-- ==== Sys2Proof/Word.lean ====
section
/-! DEFINITION. The word types of the module: bytes, 32-bit words, 64-bit doublewords, 128-bit vectors. -/
namespace Sys2Proof

/-- One byte of memory. -/
abbrev Byte := BitVec 8
/-- A general register, a register of the address map, an instruction word (R67, R13). -/
abbrev Word := BitVec 32
/-- A doubleword, held by an even and odd register pair (R68). -/
abbrev DWord := BitVec 64
/-- A vector register (R67). -/
abbrev QWord := BitVec 128

end Sys2Proof
end

