-- ==== Sys2Proof/Syntax.lean ====
section
/-! DEFINITION. The commands the module takes, one constructor per row of the opcode table: the instructions its lanes
issue, the register accesses that have a row of their own, the frames and edges that arrive at its pins, and the instants
at which its engines and timers act. Docstrings name the rule of each row. -/
namespace Sys2Proof

/-- Who makes a register access: the REQ byte of R473 (a lane's LANEID bits 7:0, or 0xC0 + block), the ticket VMID of
R163 (0xFF for supervisor software) and whether a lane issues it from bank G. -/
structure Req where
  id : Nat
  vmid : Nat
  bankG : Bool
  deriving DecidableEq, Repr

/-- What kind of access a response belongs to (KIND of R473). -/
inductive AccKind where
  | read | write | fetch | atomic | engineRead | engineWrite | walk
  deriving DecidableEq, Repr

/-- The responses of R471, with the normal completion. -/
inductive Rsp where
  | ok | absent | unpowered | denied | timeout | ecc
  deriving DecidableEq, Repr

/-- ALU operations, op 0x01 (R115). -/
inductive AluOp where
  | add | sub | and | or | xor | shl | shr | sar | cmpLt | cmpLtu | min | max | minu | maxu | clz | addsat | subsat
  deriving DecidableEq, Repr

/-- Multiplications, op 0x02 (R115). -/
inductive MulOp where
  | mul | hss | huu | hsu | mulD | mulq
  deriving DecidableEq, Repr

/-- Divisions, op 0x02 (R115). -/
inductive DivOp where
  | div | divu | rem | remu
  deriving DecidableEq, Repr

/-- Immediate operations, ops 0x03 to 0x08 (R116). -/
inductive ImmOp where
  | addi | andi | ori | xori | cmpLti | cmpLtui
  deriving DecidableEq, Repr

/-- Shift-immediate kinds (R116). -/
inductive ShiftOp where
  | shl | shr | sar | ror
  deriving DecidableEq, Repr

/-- Loads, ops 0x10 to 0x15 (R118). -/
inductive LoadOp where
  | b | bu | h | hu | w | d
  deriving DecidableEq, Repr

/-- Stores, ops 0x16 to 0x19 (R118). -/
inductive StoreOp where
  | b | h | w | d
  deriving DecidableEq, Repr

/-- Branch relations, ops 0x1A to 0x1F (R119). -/
inductive BrOp where
  | eq | ne | lt | ge | ltu | geu
  deriving DecidableEq, Repr

/-- Atomic operations (R120). -/
inductive AtOp where
  | swap | add | and | or | xor | max | min | maxu | minu | cas
  deriving DecidableEq, Repr

/-- binary32 operations, op 0x24 (R121). -/
inductive FOp where
  | add | sub | mul | div | sqrt | fma | min | max | abs | neg | cpsgn | cmp | cmps | itof | ftoi | utof | ftou | class
  deriving DecidableEq, Repr

/-- Vector operations, op 0x28 (R122). -/
inductive VOp where
  | addI | subI | mulI | and | or | xor | addF | subF | mulF | fmaF | sumF | splat | ins | ext | mov
  deriving DecidableEq, Repr

/-- Image loads, op 0x30 (R124). -/
inductive ImgLd where
  | bit | bu | b | hu | h | w | d
  deriving DecidableEq, Repr

/-- Image stores, op 0x31 (R124). -/
inductive ImgSt where
  | bit | b | h | w | d
  deriving DecidableEq, Repr

/-- The command registers whose BUSY bit COMMAND_COMPLETE clears (R499). -/
inductive CmdBlk where
  | netsw | sfe | wams | vpi | vpiTx | acq | iobus | key | sfp | life
  deriving DecidableEq, Repr

/-- Why a warm reset starts (SYS_RSTCAUSE.CAUSE, R474). -/
inductive RstCause where
  | command | watchdog | debugPort
  deriving DecidableEq, Repr

/-- What CAN_TX_ERROR reports: lost arbitration or an error (R444). -/
inductive CanTxErr where
  | arbitration | error
  deriving DecidableEq, Repr

/-- A frame on a CAN bus (R440 to R443): identifier, whether it is extended, remote, FD and with a rate switch, its data. -/
structure CanFrame where
  id : Nat
  ext : Bool
  rtr : Bool
  fd : Bool
  brs : Bool
  data : List Byte
  deriving DecidableEq, Repr

/-- A frame as a MAC delivers it (R201): its bytes from DA to the end of the payload, its FCS check, PCS errors inside it,
and the instant of its time-stamp point, in units of 2⁻¹⁶ ns of the time base. -/
structure RxFrame where
  bytes : List Byte
  fcsOk : Bool
  symErr : Bool
  stamp : Nat
  deriving DecidableEq, Repr

/-- A request waiting at an arbiter (R163, R164): input number, ticket index (64 for VMID 0xFF), transfer units. -/
structure GrantReq where
  input : Nat
  index : Nat
  units : Nat
  deriving DecidableEq, Repr

/-- The commands of the module: one constructor per row of the opcode table. -/
inductive Instr where
  /-- REGISTER_WRITE (R496): A write to a register that has no row of its own is judged field by field under its access codes and locks. -/
  | registerWrite (rq : Req) (addr size : Nat) (v : Word)
  /-- RC_REGISTER_READ (R10): A read of an RC field returns the field and clears it in the same access. -/
  | rcRegisterRead (rq : Req) (addr : Nat)
  /-- OCTET_COUNTER_LOW_READ (R230): A read of the low word of a 64-bit octet counter clears the counter and copies its high word to the high register. -/
  | octetCounterLowRead (rq : Req) (port : Fin 13) (tx : Bool)
  /-- HANDSHAKE_WATCHDOG_EXPIRY (R19): A handshake exceeds its FIC-cycle bound; the access ends with TIMEOUT, the channel resets and the fault is recorded. -/
  | handshakeWatchdogExpiry (rq : Req) (addr : Nat) (kind : AccKind) (vc chan : Nat) (cluster : Option (Fin 5)) (lane : Nat)
  /-- BEAT_PLL_REFERENCE_LOSS (R22): The beat PLL loses its OCXO reference, holds its control value and logs the loss. -/
  | beatPllReferenceLoss
  /-- LOCKET_CARD_INSERTED (R416): The card-present contact closes for 100 ms and a port-issued IDENT succeeds, setting SYS_UNITS.LOCKET. -/
  | locketCardInserted
  /-- LOCKET_CARD_REMOVED (R416): The card-present contact opens; 10 ms later SYS_UNITS.LOCKET clears and the LOCKET block resets. -/
  | locketCardRemoved
  /-- TB_INCR_WRITE (R33): A write of TB_INCR is range-checked and the new rate applies from a TB cycle at least 12 ns later. -/
  | tbIncrWrite (rq : Req) (v : Word)
  /-- TB_STEP_REQUEST (R34): A write of TB_STEP_HI requests a phase step that is applied in one TB cycle or refused. -/
  | tbStepRequest (rq : Req) (v : Word)
  /-- TB_SET (R35): Setting TB_CTL.SET loads the set time, unconditionally while invalid or as a checked step while valid. -/
  | tbSet (rq : Req) (v : Word)
  /-- TB_INVAL (R36): A write of TB_CTL.INVAL clears TB_STAT.VALID unless TB_LOCK.LOCK is 1. -/
  | tbInval (rq : Req) (v : Word)
  /-- OCXO_WARM (R38): The OCXO oven current settles and TB_STAT.OCXOWARM becomes 1. -/
  | ocxoWarm
  /-- TB_REFERENCE_LOST (R39): The time-base PLL loses its OCXO reference, holds its control value, sets REFLOST and REFLOSTL and logs an event. -/
  | tbReferenceLost
  /-- TB_REFERENCE_RELOCK (R39): The reference returns and the PLL relocks, clearing TB_STAT.REFLOST. -/
  | tbReferenceRelock
  /-- TB_NOW_LATCH (R58): A read of TB_NOW_NS latches the current time into the requester's snapshot. -/
  | tbNowLatch (rq : Req)
  /-- TSQ_ENTRY_READ (R48): A read of TB_TSQ3 returns and removes the oldest transmit time-stamp entry. -/
  | tsqEntryRead (rq : Req)
  /-- LAUNCH_FRAME_ARRIVAL (R50): A launch-time frame reaches its port and is queued, or discarded as a miss if late, too far ahead, unowned or on P12. -/
  | launchFrameArrival (port : Fin 13) (handle : Nat)
  /-- LAUNCH_SLOT_OPEN (R50): A waiting launch-time frame's slot opens and the frame is sent within ±10 ns of T or slips. -/
  | launchSlotOpen (port : Fin 13)
  /-- TDC_EDGE (R52): A selected edge of a TDC source is captured to 40 ps or dropped and counted. -/
  | tdcEdge (k : Fin 8) (rise : Bool) (raw : Nat)
  /-- TDC_RESULT_READ (R61): A read of TDC offset +0x14 returns and removes the oldest result. -/
  | tdcResultRead (rq : Req) (k : Fin 8)
  /-- TB_TDCCTL_WRITE (R53): A write of TB_TDCCTLk is refused while the channel has no owner and otherwise configures it. -/
  | tbTdcctlWrite (rq : Req) (k : Fin 8) (v : Word)
  /-- ALU_OP (R115): An ALU instruction computes rd from two general registers in one beat. -/
  | aluOp (l : Fin 52) (op : AluOp) (rd rs1 rs2 : Fin 32)
  /-- MUL_OP (R115): A multiply instruction writes the low, high, doubleword or Q31 product. -/
  | mulOp (l : Fin 52) (op : MulOp) (rd rs1 rs2 : Fin 32)
  /-- DIV_OP (R115): A divide or remainder instruction computes a saturating result and sets IDV on division by zero or overflow. -/
  | divOp (l : Fin 52) (op : DivOp) (rd rs1 rs2 : Fin 32)
  /-- IMMEDIATE_OP (R116): add.i, and.i, or.i, xor.i, cmp.lt.i or cmp.ltu.i operates on a register and an immediate. -/
  | immediateOp (l : Fin 52) (op : ImmOp) (rd rs1 : Fin 32) (imm : BitVec 16)
  /-- SHIFT_IMMEDIATE (R116): A shift-immediate instruction shifts or rotates by imm16 bits 4:0. -/
  | shiftImmediate (l : Fin 52) (op : ShiftOp) (rd rs1 : Fin 32) (sh : BitVec 5)
  /-- MOV_HI (R116): mov.hi sets rd to imm21 shifted left by 11. -/
  | movHi (l : Fin 52) (rd : Fin 32) (imm : BitVec 21)
  /-- PC_HI (R116): pc.hi sets rd to PC plus imm21 shifted left by 11. -/
  | pcHi (l : Fin 52) (rd : Fin 32) (imm : BitVec 21)
  /-- LOAD (R118): A load forms its address, translates it and reads memory or a device into rd. -/
  | load (l : Fin 52) (op : LoadOp) (rd rs1 : Fin 32) (imm : BitVec 16) (split : Bool)
  /-- STORE (R118): A store forms its address, translates it and writes memory, through the store buffer outside timed windows. -/
  | store (l : Fin 52) (op : StoreOp) (rd rs1 : Fin 32) (imm : BitVec 16)
  /-- V_LD (R118): v.ld loads 16 bytes into a vector register as two 8-byte accesses. -/
  | vLd (l : Fin 52) (d rs1 : Fin 32) (imm : BitVec 16)
  /-- V_ST (R118): v.st stores a vector register as two 8-byte accesses. -/
  | vSt (l : Fin 52) (d rs1 : Fin 32) (imm : BitVec 16)
  /-- LOAD_RESPONSE (R65): The response to an outstanding bank F load arrives and is written into bank F state, even while bank G runs. -/
  | loadResponse (l : Fin 52)
  /-- BUFFERED_STORE_COMPLETE (R91): A store held in the store buffer is acknowledged by its target and becomes visible. -/
  | bufferedStoreComplete (l : Fin 52) (bankG : Bool) (slot : Nat)
  /-- POSTED_BUS_ERROR (R102): A retired normal-memory store receives an error response and raises the imprecise POSTED_BUS exception. -/
  | postedBusError (l : Fin 52) (bankG : Bool) (i : Nat) (rsp : Rsp)
  /-- INTERRUPT_TAKE (R101): At an instruction boundary a pending, enabled interrupt is taken in bank F. -/
  | interruptTake (l : Fin 52)
  /-- BRANCH (R119): A conditional branch compares two registers and jumps if the relation holds. -/
  | branch (l : Fin 52) (op : BrOp) (rs1 rs2 : Fin 32) (off : BitVec 16)
  /-- JMP (R119): jmp jumps by a signed word offset. -/
  | jmp (l : Fin 52) (off : BitVec 26)
  /-- CALL (R119): call writes the link register and jumps by a signed word offset. -/
  | call (l : Fin 52) (off : BitVec 26)
  /-- JMP_R (R119): jmp.r jumps to a register plus offset and writes the return address to rd. -/
  | jmpR (l : Fin 52) (rd rs1 : Fin 32) (imm : BitVec 16)
  /-- ATOMIC (R120): An at.* instruction performs an indivisible read-modify-write of a 32-bit word. -/
  | atomic (l : Fin 52) (op : AtOp) (h rel acq : Bool) (rd rs1 rs2 : Fin 32)
  /-- F32_OP (R121): A binary32 instruction computes under FCSR.RM and sets the sticky flags. -/
  | f32Op (l : Fin 52) (op : FOp) (rd rs1 rs2 : Fin 32)
  /-- VECTOR_OP (R122): A vector instruction operates element-wise or moves elements between vector and general registers. -/
  | vectorOp (l : Fin 52) (op : VOp) (d a b : Fin 32) (e : Fin 4)
  /-- CMUL (R123): cmul multiplies complex elements in cq31 or cf32. -/
  | cmul (l : Fin 52) (cf : Bool) (d a b : Fin 32)
  /-- CCONJ (R123): cconj conjugates complex elements. -/
  | cconj (l : Fin 52) (cf : Bool) (d a : Fin 32)
  /-- CMAG (R123): cmag writes the exactly rounded magnitude of a cq31 element. -/
  | cmag (l : Fin 52) (e : Fin 2) (d a : Fin 32)
  /-- CANG (R123): cang writes the exactly rounded angle of a cq31 element. -/
  | cang (l : Fin 52) (e : Fin 2) (d a : Fin 32)
  /-- CMAC (R123): cmac adds the exact sum of two complex products to an accumulator, saturating once. -/
  | cmac (l : Fin 52) (d : Fin 2) (a b : Fin 32)
  /-- CMAC_C (R123): cmac.c adds the exact sum of two conjugate products to an accumulator. -/
  | cmacC (l : Fin 52) (d : Fin 2) (a b : Fin 32)
  /-- AC_CLR (R123): ac.clr clears both parts of an accumulator. -/
  | acClr (l : Fin 52) (d : Fin 2)
  /-- AC_RD (R123): ac.rd reads an accumulator out to a vector element with a shift, rounding and saturation. -/
  | acRd (l : Fin 52) (e : Fin 2) (d : Fin 32) (a : Fin 2) (sh : Fin 32)
  /-- IMG_LD (R124): An image load reads a bit, byte, halfword, word or doubleword of the I, Q or M area. -/
  | imgLd (l : Fin 52) (op : ImgLd) (rd rs1 rs2 : Fin 32) (imm : BitVec 8)
  /-- IMG_ST (R124): An image store writes a bit or a byte to doubleword of the Q or M area. -/
  | imgSt (l : Fin 52) (op : ImgSt) (rd rs1 rs2 : Fin 32) (imm : BitVec 8)
  /-- IMG_SET (R124): img.set sets the addressed image bit to 1 atomically. -/
  | imgSet (l : Fin 52) (rs1 rs2 : Fin 32) (imm : BitVec 8)
  /-- IMG_CLR (R124): img.clr clears the addressed image bit atomically. -/
  | imgClr (l : Fin 52) (rs1 rs2 : Fin 32) (imm : BitVec 8)
  /-- TMR_TON (R126): tmr.ton updates an on-delay timer block by NPER periods. -/
  | tmrTon (l : Fin 52) (rd rs1 rs2 : Fin 32) (imm : BitVec 8)
  /-- TMR_TOF (R126): tmr.tof updates an off-delay timer block. -/
  | tmrTof (l : Fin 52) (rd rs1 rs2 : Fin 32) (imm : BitVec 8)
  /-- TMR_TP (R126): tmr.tp updates a pulse timer block. -/
  | tmrTp (l : Fin 52) (rd rs1 rs2 : Fin 32) (imm : BitVec 8)
  /-- TMR_RST (R126): tmr.rst resets a timer block. -/
  | tmrRst (l : Fin 52) (rd rs1 : Fin 32) (imm : BitVec 8)
  /-- EDG_R (R127): edg.r reports a rising edge of IN against PREV and updates PREV. -/
  | edgR (l : Fin 52) (rd rs1 rs2 : Fin 32) (imm : BitVec 8)
  /-- EDG_F (R127): edg.f reports a falling edge and updates PREV. -/
  | edgF (l : Fin 52) (rd rs1 rs2 : Fin 32) (imm : BitVec 8)
  /-- EDG_B (R127): edg.b reports either edge and updates PREV. -/
  | edgB (l : Fin 52) (rd rs1 rs2 : Fin 32) (imm : BitVec 8)
  /-- EDG_INIT (R127): edg.init writes 0 and sets PREV to IN. -/
  | edgInit (l : Fin 52) (rd rs1 rs2 : Fin 32) (imm : BitVec 8)
  /-- BEZ_OPEN (R128): bez.open waits for bank F's store buffer to empty and opens a timed window. -/
  | bezOpen (l : Fin 52)
  /-- BEZ_CLOSE (R128): bez.close writes the window's beat count and closes the timed window. -/
  | bezClose (l : Fin 52) (rd : Fin 32)
  /-- CHK_COMMIT (R129): chk.commit snapshots doublewords of data memory into the activation's checkpoint record on VC0. -/
  | chkCommit (l : Fin 52) (rs1 : Fin 32) (imm : BitVec 9)
  /-- CHK_SIZE (R129): chk.size writes the bytes committed so far in the activation. -/
  | chkSize (l : Fin 52) (rd : Fin 32)
  /-- FENCE (R93): fence waits until earlier loads have returned and stores are acknowledged. -/
  | fence (l : Fin 52)
  /-- FENCE_W (R93): fence.w waits until earlier stores are acknowledged. -/
  | fenceW (l : Fin 52)
  /-- FENCE_I (R93): fence.i acts as fence.w and makes later fetches of the lane observe acknowledged stores. -/
  | fenceI (l : Fin 52)
  /-- TSYNC (R96): tsync completes a fence and starts waiting for an engine to drain older generations. -/
  | tsync (l : Fin 52) (engine : Fin 4)
  /-- TSYNC_COMPLETE (R215): The named engine holds nothing of an older generation and the waiting tsync completes. -/
  | tsyncComplete (l : Fin 52)
  /-- WAIT (R130): wait starts waiting until an enabled interrupt is pending. -/
  | wait (l : Fin 52)
  /-- WAIT_COMPLETE (R130): An enabled interrupt becomes pending and the waiting wait completes. -/
  | waitComplete (l : Fin 52)
  /-- YIELD (R130): yield ends a class-0 or bank F activation, or offers the lane to the dispatcher. -/
  | yieldLane (l : Fin 52)
  /-- SYS_RD (R131): sys.rd reads a system register subject to mode access. -/
  | sysRd (l : Fin 52) (rd : Fin 32) (num : BitVec 12)
  /-- SYS_WR (R131): sys.wr writes a system register subject to mode access and validity. -/
  | sysWr (l : Fin 52) (rs1 : Fin 32) (num : BitVec 12)
  /-- SYS_CALL (R131): sys.call raises CALL_T or CALL_K with the immediate. -/
  | sysCall (l : Fin 52) (imm : BitVec 8)
  /-- BREAK (R131): break raises BREAK to S with the immediate. -/
  | brk (l : Fin 52) (imm : BitVec 8)
  /-- ERET (R98): eret restores STATUS and PC from the saved exception state. -/
  | eret (l : Fin 52)
  /-- SYS_IPI (R131): sys.ipi raises IPI on an addressed lane, waking it if gated. -/
  | sysIpi (l : Fin 52) (rs1 : Fin 32)
  /-- TLB_INV (R132): tlb.inv invalidates translation-buffer entries by scope, locally, directed or module-wide. -/
  | tlbInv (l : Fin 52) (rd rs1 : Fin 32) (imm : BitVec 12)
  /-- TLB_PIN (R133): tlb.pin walks both stages and loads a pinned translation into a slot, returning a status. -/
  | tlbPin (l : Fin 52) (rd rs1 : Fin 32)
  /-- TLB_UNPIN (R133): tlb.unpin clears one or all pinned translation slots. -/
  | tlbUnpin (l : Fin 52) (rs1 : Fin 32) (all : Bool)
  /-- ALK_POST (R134): alk.post posts a kernel descriptor to the analytic-lane queue and returns a ticket. -/
  | alkPost (l : Fin 52) (rd rs1 : Fin 32)
  /-- ALK_POLL (R134): alk.poll returns the state of a ticket. -/
  | alkPoll (l : Fin 52) (rd rs1 : Fin 32)
  /-- RATE_WRITE (R142): A write of BEZEL_BEAT.RATE is checked against the point and floor and starts a glide. -/
  | rateWrite (rq : Req) (v : Word)
  /-- GLIDE_COMPLETE (R143): A beat-rate glide reaches its target rate and SLEW clears. -/
  | glideComplete
  /-- OPTGT_WRITE (R142): A write of BEZEL_OPTGT ramps at once, is stored pending, or is refused. -/
  | optgtWrite (rq : Req) (v : Word)
  /-- RAMP_START (R142): A pending operating-point ramp starts once the beat rate or cold plate allows it. -/
  | rampStart
  /-- RAMP_COMPLETE (R143): A VCOMP ramp reaches its point and OPCUR and OPPEND update. -/
  | rampComplete
  /-- OP4_HOT_EXIT (R144): The cold plate rises above 55 °C at OP4; the rate glides to 550 MHz, the point ramps to OP3 and HOT is set. -/
  | op4HotExit
  /-- HOT_CLEAR (R144): The cold plate falls to 53 °C or below and HOT clears. -/
  | hotClear
  /-- SLACK_READING (R145): The power controller reads the slack sensors at least every 1 µs and raises the point if any slack is below 15 %. -/
  | slackReading (c : Fin 5) (lane : Fin 8) (slack : Nat)
  /-- BEZEL_SLACK_READ (R167): A read of BEZEL_SLACKc returns MIN and reloads MIN with NOW. -/
  | bezelSlackRead (rq : Req) (c : Fin 5)
  /-- QUANTUM_EXPIRY (R147): A lane's bank F execution reaches SCHED_QUANTUM and the dispatcher makes its dispatch decision. -/
  | quantumExpiry (l : Fin 52)
  /-- SOURCE_FIRE (R153): A completion token whose output index is a multiple of DIV fires a slot source and releases its class-0 sequence. -/
  | sourceFire (c : Fin 5)
  /-- WAITING_RELEASE_START (R152): A class-0 release that waited for another source starts when the lane's running activation ends. -/
  | waitingReleaseStart (l : Fin 52)
  /-- CLASS0_OVERRUN (R154): An activation reaches BUDGET beats without yield; bank G ends and the overrun is recorded and handled. -/
  | class0Overrun (l : Fin 52)
  /-- ADMIT (R157): A write of SCHED_CTL.ADMIT checks the configuration in order and admits it, funds it and locks its registers. -/
  | admission (rq : Req) (v : Word)
  /-- REVOKE (R158): A write of SCHED_CTL.REVOKE stops releases, returns funding, opens the locks and logs an event. -/
  | revoke (rq : Req) (v : Word)
  /-- RESERVATION_FRAME_END (R161): A link direction completes a reservation frame of 512 units and VC0 reservations renew. -/
  | reservationFrameEnd (dir : Fin 4) (sent : List Nat)
  /-- ARBITER_GRANT (R165): An arbiter grants the next VC2 request by the deficit algorithm over ticket VMIDs. -/
  | arbiterGrant (a : Nat) (arrivals : List GrantReq)
  /-- CLASS1_RELEASE (R174): A class-1 task's PERIOD elapses on the TB grid and the task is released or the cycle skipped. -/
  | class1Release (task : Nat)
  /-- CLASS1_DEADLINE_MISS (R181): A class-1 activation still runs at its deadline; DMISS counts and a warning is logged. -/
  | class1DeadlineMiss (task : Nat)
  /-- CHECKPOINT_SEAL (R344): Once the posted record writes complete, the dispatcher writes CUR, sealing the checkpoint record. -/
  | checkpointSeal (task : Nat)
  /-- TAKEUP (R173): VPI_TXCMD TAKEUP reads, checks and takes up a task descriptor. -/
  | takeup (rq : Req)
  /-- EXCHANGE (R193): VPI_TXCMD EXCHANGE starts validation of an exchange block and new descriptor. -/
  | exchange (rq : Req)
  /-- EXCHANGE_VALIDATED (R193): Exchange validation ends within 100 µs and sets PEND or reports the refusal. -/
  | exchangeValidated
  /-- STOP (R184): VPI_TXCMD STOP stops a task after its running activation and cancels a pending exchange. -/
  | stopTask (rq : Req)
  /-- RESTART (R199): VPI_TXCMD RESTART rereads the descriptor, clears the fault count and sets the task to RUN with FIRST. -/
  | restart (rq : Req)
  /-- DROP (R199): VPI_TXCMD DROP stops a task and removes the dispatcher's copy. -/
  | dropTask (rq : Req)
  /-- FRAME_RECEIVE (R201): A frame received on an external port is checked, time-stamped, classified and admitted to the buffer or dropped. -/
  | frameReceive (port : Fin 13) (fr : RxFrame)
  /-- STREAM_MISS_LOOKUP_DONE (R212): A DRAM read of both buckets for a cache miss completes and the waiting frame is classified. -/
  | streamMissLookupDone
  /-- PORT_FRAME_START (R202): A port starts sending the head frame of its highest non-empty queue. -/
  | portFrameStart (port : Fin 13)
  /-- FRAME_TRANSMIT_COMPLETE (R218): A frame's last bit leaves a port; its time stamp is queued and its buffer reference released. -/
  | frameTransmitComplete (port : Fin 13)
  /-- T1S_COLLISION (R205): A collision on P12 sends jam and starts back-off, or discards the frame. -/
  | t1sCollision (late : Bool)
  /-- T1S_BACKOFF_EXPIRY (R205): The P12 back-off wait ends and the frame is retried after carrier and gap. -/
  | t1sBackoffExpiry
  /-- LINK_STATE_CHANGE (R204): A port's link, signal or PCS lock changes and PORT_STAT follows. -/
  | linkStateChange (port : Fin 13) (link sigLos pcsLock : Bool)
  /-- PORT_DISABLE (R217): Clearing PORT_CTL.EN discards the port's queued frames and counts them. -/
  | portDisable (rq : Req) (port : Fin 13) (v : Word)
  /-- STREAM_UPDATE (R213): NETSW_STCMD UPDATE checks a staged stream entry and writes it to table and cache in one step. -/
  | streamUpdate (rq : Req) (index : Nat)
  /-- STREAM_ACTIVATE (R213): NETSW_STCMD ACTIVATE loads and locks every valid locked entry and sets READY. -/
  | streamActivate (rq : Req)
  /-- STREAM_ACTIVATE_DONE (R213): ACTIVATE completes, READY is set and ERR reports the lowest skip code. -/
  | streamActivateDone
  /-- STREAM_FLUSH (R231): NETSW_STCMD FLUSH drops unlocked cache entries. -/
  | streamFlush (rq : Req)
  /-- FRAME_AGE_OUT (R217): A frame waiting longer than NETSW_MAXRES is discarded at the head of its queue and counted. -/
  | frameAgeOut (port : Nat) (q : Fin 8)
  /-- RESIDUE_SERVICE (R218): When a queue frees an entry or each 1 µs, residues move into queues or age out. -/
  | residueService
  /-- AUDITOR_VISIT (R219): The auditor visits a frame handle and reclaims it if unreferenced at two visits. -/
  | auditorVisit
  /-- REPLAY_GO (R222): NETSW_RPCMD GO starts replaying retained class-0 frames of a cluster toward I1. -/
  | replayGo (rq : Req) (v : Word)
  /-- REPLAY_DONE (R222): The replay sends its last frame and NETSW_RPSTAT.BUSY clears. -/
  | replayDone
  /-- NETSW_C0USE_READ (R231): A read of NETSW_C0USE returns HWM and reloads it with USE. -/
  | netswC0useRead (rq : Req)
  /-- TX_RING_FRAME (R225): The module reads a transmit-ring slot, checks the descriptor and sends the frame to its ports. -/
  | txRingFrame (ring : Fin 65)
  /-- SFE_FRAME_INGEST (R237): A sampled-value frame from I1 is decoded and its ASDUs are assembled, conditioned and filtered. -/
  | sfeFrameIngest
  /-- SET_WINDOW_EXPIRY (R242): A sample set's wait window ends and it and older sets close by substitution. -/
  | setWindowExpiry (group : Nat)
  /-- GROUP_COMPLETION (R247): All writes of a group output are acknowledged and a completion token goes to each destination cluster. -/
  | groupCompletion (group : Nat)
  /-- GROUP_LOST (R244): No set of a group closes for LOSS output periods; GLOST is set and an event logged. -/
  | groupLost (group : Nat)
  /-- SFE_UPDATE (R257): SFE_CMD UPDATE checks a staged input, group, channel, phasor or coefficient entry and writes it. -/
  | sfeUpdate (rq : Req) (v : Word)
  /-- SFE_CLEAR (R263): SFE_CMD CLEAR clears the chain state of one channel. -/
  | sfeClear (rq : Req) (v : Word)
  /-- C37_FRAME_INGEST (R267): A C37.118.2 network frame is checked and its values placed in the bucket of its key. -/
  | c37FrameIngest
  /-- FEED_RING_SLOT (R269): The module reads a filled feed-ring slot and ingests its frame. -/
  | feedRingSlot
  /-- LOCAL_RECORD_INGEST (R270): A phasor-estimator record is placed as a local source. -/
  | localRecordIngest
  /-- BUCKET_DEADLINE (R279): The time base passes an open bucket's deadline and the oldest buckets close in key order. -/
  | bucketDeadline
  /-- ALARM_FRAME (R296): After the detector banks finish, an alarm frame and alarm-ring entries are built for the closed bucket. -/
  | alarmFrame
  /-- WAMS_ENABLE (R275): A write of WAMS_CTL.EN checks the open-key bound, or on clearing discards open buckets. -/
  | wamsEnable (rq : Req) (v : Word)
  /-- WAMS_UPDATE (R273): WAMS_CMD UPDATE checks and writes a staged concentrator table entry. -/
  | wamsUpdate (rq : Req) (v : Word)
  /-- WAMS_FLUSH (R303): WAMS_CMD FLUSH drops unlocked signal-cache entries. -/
  | wamsFlush (rq : Req) (v : Word)
  /-- DETECTOR_RESET (R285): WAMS_CMD RESET clears a detector's history, emitting a reset edge if active. -/
  | detectorReset (rq : Req) (v : Word)
  /-- KERNEL_ACTIVATION_START (R299): A queued or due kernel activation starts on a free analytic lane. -/
  | kernelActivationStart (a : Fin 8)
  /-- KERNEL_MAXT_EXPIRY (R299): A kernel activation exceeds MAXT; the ticket faults and the lane resets. -/
  | kernelMaxtExpiry (a : Fin 8)
  /-- KERNEL_CANCEL (R299): A write of WAMS_KCANCEL ends a ticket after its running activation. -/
  | kernelCancel (rq : Req) (v : Word)
  /-- CLASP_FRAME_RECEIVE (R307): A Clasp frame is aged, checked, delivered locally and forwarded on its route. -/
  | claspFrameReceive (port : Fin 4) (fr : RxFrame)
  /-- ECHO_REQUEST_SEND (R314): Each CLASP_ECHO.PER ms a Clasp port sends an ECHOREQ and checks for missing responses. -/
  | echoRequestSend (port : Fin 4)
  /-- TIME_FRAME_SEND (R315): Each CLASP_TM.PER ms the time master sends a broadcast TIME frame. -/
  | timeFrameSend
  /-- VPI_UPDATE (R319): VPI_CMD UPDATE checks and writes a staged VPI entry. -/
  | vpiUpdate (rq : Req) (index : Nat)
  /-- SHARE_INGRESS_SWITCH (R327): A VPI's occupancy falls below its new CELLS and the ingress arbiter moves to the new W. -/
  | shareIngressSwitch (vmid : Fin 64)
  /-- PUBUPD (R322): VPI_CMD PUBUPD checks a publish entry and template and copies the template into publisher memory. -/
  | pubupd (rq : Req) (index : Nat)
  /-- SUBUPD (R325): VPI_CMD SUBUPD checks and writes a subscription entry. -/
  | subupd (rq : Req) (index : Nat)
  /-- START (R320): VPI_CMD START creates the kernel context and sets the VPI to RUN. -/
  | startVpi (rq : Req) (index : Nat)
  /-- FREEZE (R331): VPI_CMD FREEZE holds the VPI's bank F contexts and releases. -/
  | freeze (rq : Req) (index : Nat)
  /-- FREEZE_DONE (R331): The freeze completes, the VPI is FROZEN and FRZDONE is set. -/
  | freezeDone (vmid : Fin 64)
  /-- THAW (R331): VPI_CMD THAW returns a FROZEN VPI to RUN. -/
  | thaw (rq : Req) (index : Nat)
  /-- RESET (R329): VPI_CMD RESET fences, stops and drops the VPI's tasks, contexts, tickets and rings. -/
  | resetVpi (rq : Req) (index : Nat)
  /-- VPI_RESET_DONE (R329): When no request of the VPI is outstanding it becomes READY, RSTDONE is set and an event logged. -/
  | vpiResetDone (vmid : Fin 64)
  /-- GOOSE_RETRANSMIT (R323): A publish entry's retransmission interval elapses and the held frame is resent with a new sqNum. -/
  | gooseRetransmit (pub : Nat)
  /-- GOOSE_SUBSCRIBE (R325): An accepted GOOSE message is written as a consistency group or discarded and counted. -/
  | gooseSubscribe
  /-- GOOSE_TAL_EXPIRY (R325): No message within timeAllowedToLive: the block is written again with EXPIRED set. -/
  | gooseTalExpiry (sub : Nat)
  /-- HEARTBEAT_MISSING (R339): A dispatcher heartbeat is missing for 24 µs and the engine relinquishes for the cluster. -/
  | heartbeatMissing (g : Fin 5)
  /-- BEATCNT_MISMATCH (R339): A lane's BEATCNT differs from the Bezel over 1 µs and the cluster relinquishes. -/
  | beatcntMismatch (l : Fin 52)
  /-- VCOMP_FAULT (R339): VCOMP lies outside ±5 % for more than 2 µs and the cluster relinquishes. -/
  | vcompFault (g : Fin 5)
  /-- SPARE_POWER_UP_DONE (R346): PD_CLS comes on and the engine starts replay, swaps roles and restores role c onto cluster S. -/
  | sparePowerUpDone
  /-- SPARE_POWER_TIMEOUT (R350): PD_CLS is not on within 220 µs and the takeover fails. -/
  | sparePowerTimeout
  /-- DRILL (R353): FAILOVER_CMD DRILL starts waiting for a boundary of role c for a planned takeover. -/
  | drill (rq : Req) (v : Word)
  /-- DRILL_BOUNDARY (R353): Role c reaches a boundary and the drill relinquishes with CHECK 11. -/
  | drillBoundary
  /-- CANCEL (R353): FAILOVER_CMD CANCEL ends a drill still in phase 7. -/
  | cancel (rq : Req)
  /-- RESYNC (R354): FAILOVER_CMD RESYNC powers and tests the spare cluster. -/
  | resync (rq : Req)
  /-- RESYNC_DONE (R354): RESYNC wipes and powers down the cluster and sets SPARE or RSFAIL. -/
  | resyncDone (pass : Bool) (test : Nat)
  /-- DOMAIN_COMMAND (R358): A write of PWR_DCMD checks a domain change and starts it or reports ERR. -/
  | domainCommand (rq : Req) (v : Word)
  /-- DOMAIN_CHANGE_DONE (R358): A domain reaches its target state and BUSY clears. -/
  | domainChangeDone (dom : Fin 10)
  /-- GOVERNOR_GRANT (R361): At a stage completion or new request the governor grants queued power-up stages within 6 A per 20 µs. -/
  | governorGrant (confirmed : Bool)
  /-- UNIT_IDLE_GATE (R359): A privileged unit issues no instruction for PWR_IDLEu.T µs and enters GATED. -/
  | unitIdleGate (u : Fin 11)
  /-- UNIT_WAKE (R359): An interrupt, due activation or request wakes a GATED unit. -/
  | unitWake (u : Fin 11)
  /-- ACCOUNT_TICK (R363): Every 10 µs the controller reads energy sensors and updates each cluster's account. -/
  | accountTick (energy : List Nat)
  /-- TEMPERATURE_READING (R367): Every 1 ms the controller reads die and cold-plate temperatures and applies heat actions. -/
  | temperatureReading (c f n w cp : Int)
  /-- CLASS1_MINE_HOLD (R366): In budget state 3 a class-1 activation reaching MINE nJ is held until its next release. -/
  | class1MineHold (task : Nat) (energy : Nat)
  /-- WAKE_SOURCE (R372): An enabled wake source occurs; it is latched and wakes from standby or raises POWER. -/
  | wakeSource (src : Fin 10)
  /-- STANDBY_ENTRY (R373): With M0 waiting and M1 to M3 idle, banks are saved and PD_FAB opens into standby. -/
  | standbyEntry
  /-- STANDBY_TIMEOUT (R373): The management lanes are not idle within 1 ms and standby fails with ERR 6. -/
  | standbyTimeout
  /-- SUPPLY_INPUT_CHANGE (R477): A supply input enters or leaves its range and PWR_STAT follows. -/
  | supplyInputChange (a b : Bool)
  /-- HOLDUP_UPDATE (R374): Every 1 ms during hold-up PWR_HOLDUP updates and the final event is logged below 2 ms. -/
  | holdupUpdate (t : Nat)
  /-- SFW_CLEAR (R374): An input is back in range for 10 ms and SFW clears. -/
  | sfwClear
  /-- AON_SUPPLY_LOSS (R454): The always-on supply falls below its minimum and every trip driver stops conducting within 1 ms. -/
  | aonSupplyLoss
  /-- OCXO_ACTIVE (R376): The OCXO output is measured within ±10 % and CLK_STAT.OCXOACT becomes 1. -/
  | ocxoActive
  /-- PLL_LOCK (R376): An enabled PLL locks and sets LOCK. -/
  | pllLock (n : Fin 6)
  /-- PLL_REFERENCE_LOSS (R376): A PLL loses its reference, holds, sets LOSS and logs an event. -/
  | pllReferenceLoss (n : Fin 6)
  /-- MOVEBEAT (R377): CLK_CMD MOVEBEAT moves BEAT from FIC to the beat PLL at the next period boundary. -/
  | movebeat (rq : Req)
  /-- MOVEMGT (R377): CLK_CMD MOVEMGT moves the MGT domain from FIC ÷ 2 to its PLL. -/
  | movemgt (rq : Req)
  /-- CLAIM (R379): PWR_OWNCMD CLAIM grants, keeps or refuses ownership of a resource. -/
  | claim (rq : Req) (idx owner : Nat)
  /-- OWNERSHIP_RELEASE (R379): PWR_OWNCMD RELEASE frees a resource, turning off its TDC or discarding launch frames. -/
  | ownershipRelease (rq : Req) (idx owner : Nat)
  /-- EVENT_RECORD_WRITE (R389): A queued event is merged or written with its snapshots into its partition and class. -/
  | eventRecordWrite
  /-- FIRST (R390): VIEW_CMD FIRST latches the record with the lowest PSEQ. -/
  | viewFirst (rq : Req) (self : Bool)
  /-- NEXT (R390): VIEW_CMD NEXT latches the next record and reports GAP. -/
  | viewNext (rq : Req) (self : Bool)
  /-- SEEK (R390): VIEW_CMD SEEK latches the first record at or above VIEW_ARG. -/
  | viewSeek (rq : Req) (self : Bool)
  /-- RELATCH (R390): VIEW_CMD RELATCH latches the last slot again as it now stands. -/
  | viewRelatch (rq : Req) (self : Bool)
  /-- RELEASE (R390): VIEW_CMD RELEASE frees every record up to VIEW_ARG with its snapshots. -/
  | viewRelease (rq : Req) (self : Bool)
  /-- VIEW_POST (R391): A write of VIEW_POST posts a software event into the queue. -/
  | viewPost (rq : Req) (self : Bool) (v : Word)
  /-- ACQ_UPDATE (R393): ACQ_CMD UPDATE checks a staged recorder entry, disarming the recorder. -/
  | acqUpdate (rq : Req) (rec : Nat)
  /-- ARM (R396): ACQ_CMD ARM puts a recorder into FILL. -/
  | arm (rq : Req) (rec : Nat)
  /-- DISARM (R396): ACQ_CMD DISARM ends the record in progress as aborted. -/
  | disarm (rq : Req) (rec : Nat)
  /-- TRIG (R397): ACQ_CMD TRIG fires a software trigger term. -/
  | trig (rq : Req) (rec : Nat)
  /-- FREE (R396): ACQ_CMD FREE frees a segment and resumes a STOPPED recorder. -/
  | freeSeg (rq : Req) (rec seg : Nat)
  /-- ACQ_ROW_WRITE (R394): Every channel has delivered a tag's sample and the row is written. -/
  | acqRowWrite (rec : Fin 32)
  /-- ACQ_ROW_DEADLINE (R394): 2 ms after a row's tag the row is written with missing values marked. -/
  | acqRowDeadline (rec : Fin 32)
  /-- MAILBOX_SEND (R411): LOCKET_MBCMD SEND sends the request in LOCKET_MBTX with its CRC. -/
  | mailboxSend (rq : Req) (v : Word)
  /-- MAILBOX_RESPONSE (R411): A Locket response arrives and is checked, setting RESP or BADRESP. -/
  | mailboxResponse
  /-- MAILBOX_TIMEOUT (R418): No response within LOCKET_MBTO and TIMEOUT is set. -/
  | mailboxTimeout
  /-- LOCKET_FEED_FRAME (R407): The Locket receives a fed frame and meters it if it matches its sealed parameters. -/
  | locketFeedFrame
  /-- IDENT (R412): The Locket answers IDENT with the start of the Hallmark record. -/
  | ident
  /-- LOCKET_STATUS (R412): The Locket answers STATUS with each point's state and missing seconds. -/
  | locketStatus
  /-- READ_POINT (R409): The Locket answers READ_POINT with a point's legal registers. -/
  | readPoint
  /-- READ_HALLMARK (R413): The Locket answers READ_HALLMARK with the Hallmark record. -/
  | readHallmark
  /-- READ_LOG (R412): The Locket answers READ_LOG with seal-log entries. -/
  | readLog
  /-- READ_PARAM (R408): The Locket answers READ_PARAM with a point entry or header. -/
  | readParam
  /-- PARAM_WRITE (R414): The Locket stages a parameter entry while open, or refuses while sealed or log full. -/
  | paramWrite
  /-- FW_CHUNK (R414): The Locket stages firmware data while open, or refuses. -/
  | fwChunk
  /-- COMMIT (R414): The Locket commits staged parameters or firmware, resets DMAX or sets its clock. -/
  | commit
  /-- SEAL_SWITCH_OPEN (R414): The seal switch moves to OPEN, logged as KIND 1. -/
  | sealSwitchOpen
  /-- SEAL_SWITCH_CLOSE (R414): The seal switch moves to SEALED, logged as KIND 2, and staged data is discarded. -/
  | sealSwitchClose
  /-- LOCKET_POWER_UP (R414): At power-up the Locket recomputes FWSUM and PARSUM and halts metering on mismatch. -/
  | locketPowerUp
  /-- LOCKET_PERIODIC_SAVE (R410): Every 60 s the Locket saves its legal registers to NOR flash. -/
  | locketPeriodicSave
  /-- LOCKET_SUPPLY_FAIL (R410): The Locket's own supply fails and it saves its legal registers within its hold-up. -/
  | locketSupplyFail
  /-- DEMAND_INTERVAL_END (R409): A demand interval ends on the Locket clock and DEM and DMAX update. -/
  | demandIntervalEnd
  /-- ADVANCE (R420): LIFE_CMD ADVANCE wipes and fuses the next life-cycle state. -/
  | advance (rq : Req) (v : Word)
  /-- RMA (R421): LIFE_CMD RMA checks the response and moves DEPLOYED to RMA. -/
  | rma (rq : Req) (v : Word)
  /-- SCRAP (R420): LIFE_CMD SCRAP moves the module to SCRAPPED. -/
  | scrap (rq : Req) (v : Word)
  /-- LIFE_CYCLE_RESET (R465): An accepted transition ends in the life-cycle reset after the fuses verify. -/
  | lifeCycleReset
  /-- DBGOPEN (R422): LIFE_CMD DBGOPEN checks the response, wipes, sets DBG and opens the debug port. -/
  | dbgopen (rq : Req) (v : Word)
  /-- PROGROOT (R439): LIFE_CMD PROGROOT generates and fuses the fuse root in MANUF. -/
  | progroot (rq : Req) (v : Word)
  /-- SVNUP (R432): LIFE_CMD SVNUP raises LIFE_SVN to the running image's SVN. -/
  | svnup (rq : Req) (v : Word)
  /-- CHALLENGE (R421): LIFE_CMD CHALLENGE loads 128 fresh random bits into LIFE_CHAL. -/
  | challenge (rq : Req) (v : Word)
  /-- PROGKEY (R439): LIFE_CMD PROGKEY fuses a boot-key entry in MANUF. -/
  | progkey (rq : Req) (v : Word)
  /-- BOOT_KEY_REVOKE (R439): LIFE_CMD REVOKE revokes a boot-key entry. -/
  | bootKeyRevoke (rq : Req) (v : Word)
  /-- WRITE (R425): KEY_CMD WRITE stores a key in the clear into an empty slot. -/
  | writeKey (rq : Req) (v : Word)
  /-- DERIVE (R426): KEY_CMD DERIVE stores a key derived from a parent by the SP 800-108 KDF. -/
  | derive (rq : Req) (v : Word)
  /-- INVALIDATE (R427): KEY_CMD INVALIDATE clears a slot and its descendants unless any is locked. -/
  | invalidate (rq : Req) (v : Word)
  /-- SETLINK (R425): KEY_CMD SETLINK sets TXNEXT, NEXT and NEXTV of a slot. -/
  | setlink (rq : Req) (v : Word)
  /-- KEY_REMASK (R428): Every KEY_REMASK.US µs each valid slot's mask is replaced with fresh random bits. -/
  | keyRemask
  /-- RNG_HEALTH_FAIL (R428): A noise-source health test fails; RNGFAIL is set, re-masking pauses and an event is logged. -/
  | rngHealthFail
  /-- KEY_RNG_READ (R438): A read of KEY_RNG returns and consumes 32 random bits. -/
  | keyRngRead (rq : Req)
  /-- DRAM_WIPE_DONE (R435): The last 2 MiB DRAM region is wiped and LIFE_STAT.WIPE clears. -/
  | dramWipeDone
  /-- CAN_FRAME_RECEIVE (R443): A correct CAN frame is stored in its receive object or discarded as unmatched. -/
  | canFrameReceive (bus : Fin 2) (fr : CanFrame)
  /-- CAN_FRAME_SENT (R444): A transmit object's frame ends successfully; PEND clears and TS is written. -/
  | canFrameSent (bus : Fin 2) (obj : Nat)
  /-- CAN_TX_ERROR (R444): A transmitted frame loses arbitration or meets an error and is retried. -/
  | canTxError (bus : Fin 2) (obj : Nat) (e : CanTxErr)
  /-- RECOVER (R446): A write of CTL.RECOVER while bus-off starts the recovery sequence. -/
  | recover (rq : Req) (bus : Fin 2) (v : Word)
  /-- CAN_RECOVERY_DONE (R446): 128 occurrences of 11 recessive bits are seen and BOFF clears. -/
  | canRecoveryDone (bus : Fin 2)
  /-- IOBUS_UPDATE (R447): IOBUS_CMD UPDATE checks and writes an I/O group entry. -/
  | iobusUpdate (rq : Req) (index : Nat)
  /-- CONFIG (R458): IOBUS_OBJCMD CONFIG writes the window into a message object. -/
  | objConfig (rq : Req)
  /-- LATCH (R458): IOBUS_OBJCMD LATCH copies an object into the window and clears NEW and LOST. -/
  | objLatch (rq : Req)
  /-- SEND (R458): IOBUS_OBJCMD SEND writes window data into an object and sets PEND. -/
  | objSend (rq : Req)
  /-- CLEAR (R458): IOBUS_OBJCMD CLEAR clears a message object. -/
  | objClear (rq : Req)
  /-- IO_GROUP_REFRESH (R447): An output group's REFR period elapses and every object is set PEND. -/
  | ioGroupRefresh (group : Nat)
  /-- SLOT_PRESENCE_CLOSE (R449): A carrier slot's presence contact closes and debounce starts. -/
  | slotPresenceClose (slot : Fin 16)
  /-- SLOT_DEBOUNCE_DONE (R449): After 50 ms the identity record is read and checked. -/
  | slotDebounceDone (slot : Fin 16) (identity : Option (List Byte))
  /-- SLOT_ENABLE (R449): At the next idle on both buses a passed slot closes its switches and becomes ENABLED. -/
  | slotEnable (slot : Fin 16)
  /-- SLOT_PRESENCE_OPEN (R449): A presence contact opens; switches open, input groups are written with ISOL and an event logged. -/
  | slotPresenceOpen (slot : Fin 16)
  /-- SLOT_FORCE (R449): A write of IDBUS_SLOTs.FORCE isolates the slot or allows re-enabling. -/
  | slotForce (rq : Req) (slot : Fin 16) (v : Word)
  /-- SFP_INSERT (R450): An SFP is inserted and A0h bytes 0 to 63 are read and CC_BASE checked. -/
  | sfpInsert (cage : Fin 6) (a0 : Option (List Byte))
  /-- SFP_READ (R450): IDBUS_SFPCMD read fetches bytes from A0h or A2h. -/
  | sfpRead (rq : Req) (v : Word) (data : Option (List Byte))
  /-- SFP_WRITE (R450): IDBUS_SFPCMD write writes a permitted A2h byte. -/
  | sfpWrite (rq : Req) (v : Word) (ack : Bool)
  /-- CAGE_OVERCURRENT (R490): A cage draws over its limit for 1 ms and loses its V3P3 feed. -/
  | cageOvercurrent (cage : Fin 6)
  /-- DTRIP_ARM_WRITE (R451): A write of DTRIP_ARM with KEY 0xA5 sets the arm bits unless locked. -/
  | dtripArmWrite (rq : Req) (v : Word)
  /-- DTRIP_TEST_WRITE (R453): A write of DTRIP_TEST sets latches of ungranted lines. -/
  | dtripTestWrite (rq : Req) (v : Word)
  /-- DT_OUT_CHANGE (R453): A trip line's contact state changes and is stamped into its history. -/
  | dtOutChange (line : Fin 8) (out : Bool)
  /-- DT_READBACK_MISMATCH (R453): OUT differs from LATCH AND ARM for 10 µs; RBERR is set and an event logged. -/
  | dtReadbackMismatch (line : Fin 8)
  /-- BI_DEBOUNCED_CHANGE (R455): A binary input holds a new level for DEB µs and its debounced state changes with a stamp. -/
  | biDebouncedChange (line : Fin 16) (level : Bool)
  /-- BI_PERIOD_WRITE (R456): Every BIPER × 10 µs the binary-input block is written to each destination. -/
  | biPeriodWrite
  /-- BICFG_WRITE (R455): A write of DTRIP_BICFGk is refused unless the line is owned and the stamp channel exists. -/
  | bicfgWrite (rq : Req) (k : Fin 16) (v : Word)
  /-- XT_EDGE (R457): An edge on a cross-trigger line is stamped. -/
  | xtEdge (line : Fin 4) (rise : Bool)
  /-- XTDRV_WRITE (R457): A write of DTRIP_XTDRV drives lines owned by supervisor software. -/
  | xtdrvWrite (rq : Req) (v : Word)
  /-- XT_PULSE_END (R457): An acquisition XT pulse of XTPULSE µs ends and the line is released. -/
  | xtPulseEnd (line : Fin 4)
  /-- POWER_ON_RESET (R461): The always-on supply rises; the module senses fuses, powers domains, wipes and starts M0 at the boot ROM. -/
  | powerOnReset
  /-- WARM_RESET (R465): A warm reset wipes the key store, resets registers and restarts from the power-up of the core domains. -/
  | warmReset (cause : RstCause)
  /-- SYS_RSTCMD_WRITE (R468): A write of SYS_RSTCMD with the key requests a warm reset subject to admission and life-cycle state. -/
  | sysRstcmdWrite (rq : Req) (v : Word)
  /-- WATCHDOG_EXPIRY (R468): The supervisor watchdog period expires, an event is logged and a warm reset starts. -/
  | watchdogExpiry
  /-- WATCHDOG_HALF (R474): Half the watchdog period passes without a kick and POWER is raised if enabled. -/
  | watchdogHalf
  /-- SYS_WDOG_WRITE (R474): A write of SYS_WDOG can only set EN and sets MS while unlocked. -/
  | sysWdogWrite (rq : Req) (v : Word)
  /-- SYS_WDKICK_WRITE (R474): A write of SYS_WDKICK with 0x4B1C restarts the watchdog period. -/
  | sysWdkickWrite (rq : Req) (v : Word)
  /-- SYS_LANEREL_WRITE (R474): A write of SYS_LANEREL releases management lanes from reset at ENTRY. -/
  | sysLanerelWrite (rq : Req) (v : Word)
  /-- CRC_SEED_WRITE (R475): A write of CRC_SEED starts a CRC-32C computation. -/
  | crcSeedWrite (rq : Req) (v : Word)
  /-- CRC_DATA_WRITE (R475): A write of CRC_DATA adds four bytes to the CRC. -/
  | crcDataWrite (rq : Req) (v : Word)
  /-- DEBUG_HALT_REQUEST (R476): A debug-port halt request halts M0 to M3 at an instruction boundary. -/
  | debugHaltRequest
  /-- DEBUG_RESET_REQUEST (R465): A reset request on the debug port starts a warm reset. -/
  | debugResetRequest
  /-- COMMAND_COMPLETE (R499): A command that runs while its block's BUSY bit is 1 completes within its bound, and BUSY returns to 0. -/
  | commandComplete (blk : CmdBlk)
  /-- ILLEGAL_INSTRUCTION (R108): A fetched word with an unallocated major opcode or function, or a non-zero must-be-0 field, traps with ILLEGAL before any effect. -/
  | illegalInstruction (l : Fin 52) (word : Word)
  /-- CMP_OUTPUT_CHANGE (R372): A comparator's output crosses its threshold and changes state, which may fire a kind-4 trigger term or feed a recorder row. -/
  | cmpOutputChange (k : Fin 4) (out : Bool)
  /-- CAGE_MODULE_REMOVED (R459): An SFP module leaves its cage; the present contact opens and IDBUS_PRES and IDBUS_EVT follow. -/
  | cageModuleRemoved (cage : Fin 6)
  /-- LOCKET_SECOND_END (R409): A second ends on the Locket clock; a point with a missing or invalid sample counts it in MISSS, or takes STATE 2 if it had no data. -/
  | locketSecondEnd
  /-- MAILBOX_LINE_LOCK_CHANGE (R418): The mailbox pair gains or loses line-code lock, and LOCKET_STAT.LINK follows. -/
  | mailboxLineLockChange (locked : Bool)
  /-- CAN_RX_ERROR (R440): A controller detects an error in a frame it is receiving; it raises its receive error counter and may change error-passive state under ISO 11898-1. -/
  | canRxError (bus : Fin 2) (severe : Bool)
  deriving DecidableEq, Repr

end Sys2Proof
end

