-- ==== Sys2Proof/Decode.lean ====
section
/-! DEFINITION. The command a word spells. The opcode table gives no row any bits, so no word spells a command. -/
namespace Sys2Proof

/-- The command that `nbits` bits `w` spell by the opcode table: none of its rows has an encoding. -/
def decodeTableWord (_nbits _w : Nat) : Option Instr := none

end Sys2Proof
end

