-- ==== Sys2Proof/Machine/Bits.lean ====
section
/-! DEFINITION. Bit fields, sign extension, byte order and check codes that every block shares. -/
namespace Sys2Proof.Machine

/-- The `w` bits of `n` from bit `lo` on. -/
def bitsOf (n lo w : Nat) : Nat := n / 2 ^ lo % 2 ^ w

/-- Bit `i` of `n`. -/
def bitOf (n i : Nat) : Bool := n / 2 ^ i % 2 == 1

/-- `n` with bit `i` made `b`. -/
def putBit (n i : Nat) (b : Bool) : Nat :=
  if bitOf n i then (if b then n else n - 2 ^ i) else (if b then n + 2 ^ i else n)

/-- The two's complement value of the low `w` bits of `n`. -/
def signedOf (w n : Nat) : Int :=
  if n % 2 ^ w < 2 ^ (w - 1) then (n % 2 ^ w : Nat) else (n % 2 ^ w : Nat) - (2 ^ w : Nat)

/-- An integer wrapped to `w` bits. -/
def wrapTo (w : Nat) (i : Int) : Nat := (i % (2 ^ w : Nat)).toNat

/-- An integer clamped to a closed range. -/
def clampInt (lo hi i : Int) : Int := if i < lo then lo else if hi < i then hi else i

/-- A truth value as one bit. -/
def b2n (b : Bool) : Nat := if b then 1 else 0

/-- The value of bytes, lowest first: the byte order of registers and structures. -/
def leVal : List Byte → Nat
  | [] => 0
  | b :: bs => b.toNat + 256 * leVal bs

/-- The value of bytes, highest first: the byte order of network fields. -/
def beVal (bs : List Byte) : Nat := bs.foldl (fun a b => a * 256 + b.toNat) 0

/-- The low `k` bytes of a value, lowest first. -/
def leBytes : Nat → Nat → List Byte
  | 0, _ => []
  | k + 1, n => BitVec.ofNat 8 n :: leBytes k (n / 256)

/-- The low `k` bytes of a value, highest first. -/
def beBytes (k n : Nat) : List Byte := (leBytes k n).reverse

/-- `n` bytes from offset `o`; missing bytes read as nothing. -/
def sliceOf (bs : List Byte) (o n : Nat) : List Byte := (bs.drop o).take n

/-- The little-endian value of `n` bytes at offset `o`. -/
def leAt (bs : List Byte) (o n : Nat) : Nat := leVal (sliceOf bs o n)

/-- The big-endian value of `n` bytes at offset `o`. -/
def beAt (bs : List Byte) (o n : Nat) : Nat := beVal (sliceOf bs o n)

/-- `n` zero bytes. -/
def zeroBytes (n : Nat) : List Byte := List.replicate n 0

/-- Bytes cut or filled with zeros to exactly `n`. -/
def padTo (n : Nat) (bs : List Byte) : List Byte := bs.take n ++ zeroBytes (n - bs.length)

/-- `bs` with the bytes `v` written from offset `o` on. -/
def putAt (bs : List Byte) (o : Nat) (v : List Byte) : List Byte :=
  bs.take o ++ v ++ bs.drop (o + v.length)

/-- All bytes are zero: what a reserved range of a staged entry must hold. -/
def allZero (bs : List Byte) : Bool := bs.all (· == 0)

/-- A saturating increment of a `w`-bit counter. -/
def satInc (w n : Nat) : Nat := min (n + 1) (2 ^ w - 1)

/-- Ceiling division. -/
def ceilDiv (a b : Nat) : Nat := (a + b - 1) / b

/-- One bit of a reflected CRC with polynomial `poly`. -/
def crcBitR (poly c : Nat) : Nat := if c % 2 = 1 then (c / 2) ^^^ poly else c / 2

/-- One byte of the reflected CRC-32C (Castagnoli, the check code of R384, R369 and R475). -/
def crc32cByte (c : Nat) (b : Byte) : Nat :=
  Nat.repeat (crcBitR 0x82F63B78) 8 (c ^^^ b.toNat)

/-- The running CRC-32C register after `bs`, from register value `c`. -/
def crc32cRun (c : Nat) (bs : List Byte) : Nat := bs.foldl crc32cByte c

/-- CRC-32C of a byte string: preset ones, complemented result. -/
def crc32c (bs : List Byte) : Nat := crc32cRun 0xFFFFFFFF bs ^^^ 0xFFFFFFFF

/-- One bit of the CRC-CCITT register, most significant bit first (polynomial 0x1021). -/
def crcCcittBit (c : Nat) : Nat :=
  if c / 2 ^ 15 % 2 = 1 then ((c * 2) ^^^ 0x1021) % 2 ^ 16 else c * 2 % 2 ^ 16

/-- The CRC-CCITT (preset 0xFFFF) that C37.118.2 uses for CHK. -/
def crcCcitt (bs : List Byte) : Nat :=
  bs.foldl (fun c b => Nat.repeat crcCcittBit 8 (c ^^^ (b.toNat * 256))) 0xFFFF

/-- Integer square root by bits: the largest `r < 2 ^ k` with `r * r ≤ n`. -/
def isqrtBits : Nat → Nat → Nat → Nat
  | 0, _, r => r
  | k + 1, n, r =>
    let t := r + 2 ^ k
    isqrtBits k n (if t * t ≤ n then t else r)

/-- Floor of the square root of `n < 2 ^ 256`. -/
def isqrt (n : Nat) : Nat := isqrtBits 128 n 0

/-- Element `i` of a list of naturals, 0 outside it. -/
def nth (l : List Nat) (i : Nat) : Nat := l.getD i 0

/-- Bit-wise membership of a mask. -/
def maskHas (m i : Nat) : Bool := bitOf m i

/-- The indices below `n` whose bit is set in `m`. -/
def maskList (n m : Nat) : List Nat := (List.range n).filter (fun i => bitOf m i)

/-- The value of an association list at a key. -/
def alookup {α : Type} (k : Nat) : List (Nat × α) → Option α
  | [] => none
  | (k', v) :: l => if k' = k then some v else alookup k l

/-- Sets a key of an association list kept sorted by key. -/
def ainsert {α : Type} (k : Nat) (v : α) : List (Nat × α) → List (Nat × α)
  | [] => [(k, v)]
  | (k', v') :: l =>
    if k < k' then (k, v) :: (k', v') :: l
    else if k = k' then (k, v) :: l
    else (k', v') :: ainsert k v l

/-- Removes a key of an association list. -/
def aerase {α : Type} (k : Nat) (l : List (Nat × α)) : List (Nat × α) :=
  l.filter (fun p => p.1 != k)

end Sys2Proof.Machine
end

