-- ==== Sys2Proof/Machine/Float.lean ====
section
/-! DEFINITION. Exact arithmetic with one rounding: binary32 (R121), rounding to integers, the complex magnitude and
angle (R123). A binary32 result comes with its flags in their FCSR places (R79). -/
namespace Sys2Proof.Machine

/-- FCSR bits of the flags (R79). -/
def flNV : Nat := 128
def flDZ : Nat := 64
def flOF : Nat := 32
def flUF : Nat := 16
def flNX : Nat := 8

/-- The NaN every operation produces (R121). -/
def qNaN : Nat := 0x7FC00000

/-- What a binary32 pattern stands for; a finite value is `m` units of 2⁻¹⁴⁹. -/
inductive FVal where
  | nan (signalling : Bool)
  | inf (neg : Bool)
  | fin (neg : Bool) (m : Nat)
  deriving DecidableEq, Repr

/-- Decodes a binary32 pattern. -/
def fDecode (x : Nat) : FVal :=
  let neg := bitOf x 31
  let e := bitsOf x 23 8
  let f := bitsOf x 0 23
  if e = 255 then (if f = 0 then .inf neg else .nan (!bitOf x 22))
  else if e = 0 then .fin neg f
  else .fin neg ((2 ^ 23 + f) * 2 ^ (e - 1))

/-- A value's sign bit. -/
def FVal.neg : FVal → Bool
  | .nan _ => false
  | .inf n => n
  | .fin n _ => n

/-- NaN tests. -/
def FVal.isNaN : FVal → Bool
  | .nan _ => true
  | _ => false
def FVal.isSNaN : FVal → Bool
  | .nan b => b
  | _ => false

/-- The magnitude `num / den` rounded to an integer under RM (R79) for a value of sign `neg`. -/
def rintQ (rm : Nat) (neg : Bool) (num den : Nat) : Nat :=
  let q := num / den
  let r := num % den
  let up : Bool :=
    if r = 0 then false
    else if rm = 0 then decide (den < 2 * r) || (decide (2 * r = den) && q % 2 == 1)
    else if rm = 1 then false
    else if rm = 2 then neg else !neg
  if up then q + 1 else q

/-- Floor of the base-2 logarithm of `num / den`, both positive. -/
def ilog2Q (num den : Nat) : Int :=
  let e : Int := (Nat.log2 num : Int) - (Nat.log2 den : Int)
  let ge : Bool := if 0 ≤ e then decide (den * 2 ^ e.toNat ≤ num) else decide (den ≤ num * 2 ^ (-e).toNat)
  if ge then e else e - 1

/-- `num / den` divided by 2 to the power `k`. -/
def scaleQ (num den : Nat) (k : Int) : Nat × Nat :=
  if 0 ≤ k then (num, den * 2 ^ k.toNat) else (num * 2 ^ (-k).toNat, den)

/-- A sign bit in place. -/
def signBit (neg : Bool) : Nat := if neg then 2 ^ 31 else 0

/-- Rounds the magnitude `num / den` to binary32 under RM, with OF, UF and NX (R79, R121). -/
def fPack (rm : Nat) (neg : Bool) (num den : Nat) : Nat × Nat :=
  if num = 0 then (signBit neg, 0) else
  let e0 := ilog2Q num den
  let e := if e0 < -126 then -126 else e0
  let (a, b) := scaleQ num den (e - 23)
  let n := rintQ rm neg a b
  let nx := decide (n * b ≠ a)
  let (n', e') := if n = 2 ^ 24 then (2 ^ 23, e + 1) else (n, e)
  if e' > 127 then
    let toInf : Bool := rm == 0 || (rm == 2 && neg) || (rm == 3 && !neg)
    (signBit neg + (if toInf then 0x7F800000 else 0x7F7FFFFF), flOF + flNX)
  else
    let tiny : Bool :=
      decide (e0 < -126) &&
        (let (a', b') := scaleQ num den (e0 - 23)
         !(decide (e0 = -127) && decide (rintQ rm neg a' b' = 2 ^ 24)))
    let fl := if nx then flNX + (if tiny then flUF else 0) else 0
    if n' < 2 ^ 23 then (signBit neg + n', fl)
    else (signBit neg + (e' + 127).toNat * 2 ^ 23 + (n' - 2 ^ 23), fl)

/-- Rounds a signed sum `i / den`; an exact zero takes the sign `zneg`. -/
def fPackInt (rm : Nat) (zneg : Bool) (i : Int) (den : Nat) : Nat × Nat :=
  if i = 0 then (signBit zneg, 0) else fPack rm (decide (i < 0)) i.natAbs den

/-- A signed integer from sign and magnitude. -/
def sgn (neg : Bool) (m : Nat) : Int := if neg then -(m : Int) else m

/-- NV when an operand is a signalling NaN. -/
def fSig (l : List FVal) : Nat := if l.any (·.isSNaN) then flNV else 0

/-- The infinity of a sign. -/
def fInf (neg : Bool) : Nat := signBit neg + 0x7F800000

/-- f.add, and f.sub with `flip`. -/
def fAdd (rm : Nat) (flip : Bool) (x y : Nat) : Nat × Nat :=
  let b := fDecode y
  match fDecode x, (if flip then (match b with
      | .inf n => .inf (!n)
      | .fin n m => .fin (!n) m
      | v => v) else b) with
  | .nan s, v => (qNaN, fSig [.nan s, v])
  | v, .nan s => (qNaN, fSig [.nan s, v])
  | .inf m, .inf n => if m = n then (fInf m, 0) else (qNaN, flNV)
  | .inf m, .fin _ _ => (fInf m, 0)
  | .fin _ _, .inf n => (fInf n, 0)
  | .fin m p, .fin n q =>
    let zneg := if p = 0 ∧ q = 0 ∧ m = n then m else rm == 2
    fPackInt rm zneg (sgn m p + sgn n q) (2 ^ 149)

/-- f.mul. -/
def fMul (rm : Nat) (x y : Nat) : Nat × Nat :=
  match fDecode x, fDecode y with
  | .nan s, v => (qNaN, fSig [.nan s, v])
  | v, .nan s => (qNaN, fSig [.nan s, v])
  | .inf m, .inf n => (fInf (m != n), 0)
  | .inf m, .fin n q => if q = 0 then (qNaN, flNV) else (fInf (m != n), 0)
  | .fin m p, .inf n => if p = 0 then (qNaN, flNV) else (fInf (m != n), 0)
  | .fin m p, .fin n q => fPack rm (m != n) (p * q) (2 ^ 298)

/-- f.div. -/
def fDiv (rm : Nat) (x y : Nat) : Nat × Nat :=
  match fDecode x, fDecode y with
  | .nan s, v => (qNaN, fSig [.nan s, v])
  | v, .nan s => (qNaN, fSig [.nan s, v])
  | .inf _, .inf _ => (qNaN, flNV)
  | .inf m, .fin n _ => (fInf (m != n), 0)
  | .fin m _, .inf n => (signBit (m != n), 0)
  | .fin m p, .fin n q =>
    if q = 0 then (if p = 0 then (qNaN, flNV) else (fInf (m != n), flDZ))
    else fPack rm (m != n) p q

/-- The exact square root of `m` units of 2⁻¹⁴⁹ as a fraction that lies on the same side of every rounding boundary. -/
def sqrtQ (m : Nat) : Nat × Nat :=
  let n := m * 2 ^ 251
  let r := isqrtBits 270 n 0
  if r * r = n then (r, 2 ^ 200) else (2 * r + 1, 2 ^ 201)

/-- f.sqrt. -/
def fSqrt (rm : Nat) (x : Nat) : Nat × Nat :=
  match fDecode x with
  | .nan s => (qNaN, fSig [.nan s])
  | .inf n => if n then (qNaN, flNV) else (fInf false, 0)
  | .fin n m =>
    if m = 0 then (signBit n, 0) else if n then (qNaN, flNV)
    else let (a, b) := sqrtQ m
         fPack rm false a b

/-- f.fma: `c + x × y`, rounded once. -/
def fFma (rm : Nat) (c x y : Nat) : Nat × Nat :=
  let a := fDecode x
  let b := fDecode y
  let d := fDecode c
  let bad : Bool := (match a, b with
    | .inf _, .fin _ 0 => true
    | .fin _ 0, .inf _ => true
    | _, _ => false)
  if a.isNaN || b.isNaN || d.isNaN then (qNaN, if bad then flNV else fSig [a, b, d])
  else if bad then (qNaN, flNV)
  else
    let pneg := a.neg != b.neg
    match a, b, d with
    | .fin _ p, .fin _ q, .fin n m =>
      let zneg := if p * q = 0 ∧ m = 0 ∧ pneg = n then n else rm == 2
      fPackInt rm zneg (sgn pneg (p * q) + sgn n (m * 2 ^ 149)) (2 ^ 298)
    | .fin _ _, .fin _ _, .inf n => (fInf n, 0)
    | _, _, .inf n => if n = pneg then (fInf n, 0) else (qNaN, flNV)
    | _, _, _ => (fInf pneg, 0)

/-- An order key: −0 below +0, infinities beyond every finite value. -/
def fKey : FVal → Int
  | .nan _ => 0
  | .inf n => sgn n (2 ^ 300)
  | .fin n m => if n then -(2 * (m : Int)) - 1 else 2 * m

/-- f.min and f.max. -/
def fMinMax (mx : Bool) (x y : Nat) : Nat × Nat :=
  let a := fDecode x
  let b := fDecode y
  let fl := fSig [a, b]
  if a.isNaN && b.isNaN then (qNaN, fl)
  else if a.isNaN then (y, fl)
  else if b.isNaN then (x, fl)
  else
    let first : Bool := if mx then decide (fKey b ≤ fKey a) else decide (fKey a ≤ fKey b)
    (if first then x else y, fl)

/-- The value compared: both zeros are equal. -/
def fVal : FVal → Int
  | .nan _ => 0
  | .inf n => sgn n (2 ^ 300)
  | .fin n m => sgn n m

/-- f.cmp, and f.cmps with `sig`: the relation mask. -/
def fCmp (sig : Bool) (x y : Nat) : Nat × Nat :=
  let a := fDecode x
  let b := fDecode y
  if a.isNaN || b.isNaN then (8, if sig then flNV else fSig [a, b])
  else if fVal a < fVal b then (1, 0) else if fVal a = fVal b then (2, 0) else (4, 0)

/-- f.itof and f.utof of an integer. -/
def fOfInt (rm : Nat) (i : Int) : Nat × Nat := fPackInt rm false i 1

/-- f.ftoi and f.ftou: rounds under RM and saturates to `lo … hi`. -/
def fToInt (rm : Nat) (lo hi : Int) (x : Nat) : Nat × Nat :=
  match fDecode x with
  | .nan _ => (0, flNV)
  | .inf n => (wrapTo 32 (if n then lo else hi), flNV)
  | .fin n m =>
    let r := sgn n (rintQ rm n m (2 ^ 149))
    if r < lo then (wrapTo 32 lo, flNV) else if hi < r then (wrapTo 32 hi, flNV)
    else (wrapTo 32 r, if r.natAbs * 2 ^ 149 = m then 0 else flNX)

/-- f.class. -/
def fClass (x : Nat) : Nat :=
  let k := match fDecode x with
    | .inf _ => 3
    | .nan s => if s then 5 else 4
    | .fin _ m => if m = 0 then 0 else if m < 2 ^ 23 then 1 else 2
  k + (if bitOf x 31 then 8 else 0)

/-! ### Integer rounding -/

/-- `i / den` rounded to nearest, ties to even. -/
def rneInt (i : Int) (den : Nat) : Int := sgn (decide (i < 0)) (rintQ 0 false i.natAbs den)

/-- The i32 range. -/
def satI32 (i : Int) : Int := clampInt (-2147483648) 2147483647 i

/-- `i / den` rounded to nearest, ties to even, and saturated to i32: what conditioning and every filter stage do (R249). -/
def rneI32 (i : Int) (den : Nat) : Int := satI32 (rneInt i den)

/-- floor(√n + ½) (R123, R252). -/
def roundSqrt (n : Nat) : Nat := (isqrt (4 * n) + 1) / 2

/-! ### Angles -/

/-- Working precision of the angle: 2 to the power 200. -/
def angP : Nat := 2 ^ 200

/-- Terms of the arctangent series in fixed point: `pow` is t to an odd power 2k − 1, `t2` is t². -/
def atanTerms : Nat → Nat → Int → Nat → Nat → Int
  | 0, _, acc, _, _ => acc
  | n + 1, k, acc, pow, t2 =>
    let term : Int := (pow / k : Nat)
    atanTerms n (k + 2) (if k % 4 = 1 then acc + term else acc - term) (pow * t2 / angP) t2

/-- arctan of `t / angP`, small, in units of `angP`. -/
def atanSmall (t : Nat) : Int := atanTerms 90 1 0 t (t * t / angP)

/-- π in units of `angP`: 16 arctan(1/5) − 4 arctan(1/239). -/
def angPi : Int := 16 * atanSmall (angP / 5) - 4 * atanSmall (angP / 239)

/-- arctan(y / x) for 0 ≤ y ≤ x, x positive, in units of `angP`. -/
def atanQ (y x : Nat) : Int :=
  if 5 * y ≤ 2 * x then atanSmall (y * angP / x)
  else angPi / 4 - atanSmall ((x - y) * angP / (x + y))

/-- The i32 nearest to atan2(i, r) · 2³¹ ÷ π (R123). -/
def angleOf (r i : Int) : Int :=
  if r = 0 ∧ i = 0 then 0 else
  let ax := r.natAbs
  let ay := i.natAbs
  let th := if ay ≤ ax then atanQ ay ax else angPi / 2 - atanQ ax ay
  let k : Int := (2 * th * 2 ^ 31 + angPi) / (2 * angPi)
  let k := if r < 0 then 2 ^ 31 - k else k
  if i < 0 then -k else k

end Sys2Proof.Machine
end

