-- ==== Sys2Proof/Config.lean ====
section
/-! DEFINITION. The free values of the model: what the spec leaves open. None of these functions has a body that a proof
could see, so every claim holds whatever they are. -/
namespace Sys2Proof.Config

/-- A fresh free value: `fresh site n` is the value drawn at place `site` of the model when `n` values have been drawn
before. The step that draws it advances the counter `draws` of the state (assumption 1). -/
opaque fresh : Nat → Nat → Nat

/-- A free function of operands: the result at place `site` for the listed operands, where the spec names an effect and
states no value for it, or a function whose rounding it leaves open (assumption 2). -/
opaque openFn : Nat → List Nat → Nat

/-- The MAC address of a port as a 48-bit number: an implementation constant that the spec uses and does not state
(assumption 2). -/
opaque portMac : Nat → Nat

end Sys2Proof.Config

/-! The places of the model that draw a free value. -/
namespace Sys2Proof.Site

/-- Back-off random number of P12 (R205). -/
def backoff : Nat := 1
/-- Key identifier in a received frame's IEC 62351-6 extension (R429). -/
def tagKid : Nat := 2
/-- Algorithm in a received frame's extension; 0 when it has none (R429). -/
def tagAlg : Nat := 3
/-- Whether the MAC of a received frame matches (R429). -/
def tagMac : Nat := 4
/-- A byte of a transmitted frame with its extension (R429). -/
def tagBytes : Nat := 5
/-- Length of the extension of a transmitted frame (R429). -/
def tagLen : Nat := 6

/-- Time from a CAN frame's start-of-frame edge to its end (R445). -/
def canSof : Nat := 7
/-- The receive error counter after a frame received while it is above 127 (R440, ISO 11898-1). -/
def canRec : Nat := 8

/-- Words of a phasor estimator record (R254). -/
def phasor : Nat := 9
/-- Taps of the reference M-class filter (R254). -/
def mTaps : Nat := 10
/-- SCALE × raw + OFFSET where a rounding would occur (R271). -/
def affine : Nat := 11
/-- Stored form of a phasor in polar form or rotated (R271). -/
def phasorConv : Nat := 12
/-- Magnitude and angle of a stored phasor (R271, R283). -/
def magAngle : Nat := 13
/-- Whether a FRACSEC that is no whole number of microseconds is rounded up (R283). -/
def fracRound : Nat := 14
/-- wrap of an angle outside (−π, π] (R287, R293). -/
def wrap : Nat := 15
/-- Result words of a modal evaluation (R287). -/
def modal : Nat := 16
/-- Mean smoothed frequency of an island (R292). -/
def mean : Nat := 17

/-- Energies a Locket frame adds to a point's legal registers (R409). -/
def energy : Nat := 18
/-- A demand interval's average active power (R409). -/
def demand : Nat := 19
/-- Whether samples are missing where smpCnt returns to 0 and the ASDU gives no rate (R407). -/
def lktWrap : Nat := 20
/-- Whether a tag matches under a key slot of the Locket (R407). -/
def lktMac : Nat := 21
/-- Whether a staged Locket image carries the Torvif signature, and its version (R414). -/
def lktFw : Nat := 22
/-- CERTID in a parameter header (R413). -/
def lktCert : Nat := 23
/-- Signature of a retention bank of the module (R369). -/
def retSig : Nat := 24
/-- The test root (R419). -/
def testRoot : Nat := 25
/-- Random bits of the noise source (R421, R428, R438, R439). -/
def rng : Nat := 26
/-- Whether an ECDSA P-384 signature verifies, and the hash of the Torvif test key in the boot ROM (R431, R432). -/
def ecdsa : Nat := 27
/-- The boot ROM's result codes (R432, R463). -/
def bootCode : Nat := 28
/-- How PWR_ACCc LEVEL rounds a fraction of a µJ (R382). -/
def levelRound : Nat := 29
/-- A byte of the boot ROM (R463). -/
def rom : Nat := 30
/-- The beat count of a lane between timed windows (R72). -/
def beats : Nat := 31
/-- What a tlb replacement gives up (R87). -/
def tlbVictim : Nat := 32
/-- Bytes of a GOOSE block past the allData contents (R325). -/
def goosePad : Nat := 33
/-- NUM of a snapshot record's CODE (R384). -/
def snapNum : Nat := 34
/-- CHK of a record that a reset interrupted (R392). -/
def badChk : Nat := 35
/-- The FIC frequency in kHz (R21, R383). -/
def fic : Nat := 36

end Sys2Proof.Site
end

