-- ==== Sys2Proof/Machine/RegMap.lean ====
section
/-! DEFINITION. The register maps of every block of the module, field by field: physical address, place of the
field, access code (R10), reset value and the values the map accepts. One constant per field; a register that the
spec repeats is a function of its index `i` (and `j`). Registers of a view (R390, R336) take the view as their
index: 64 is the supervisor view, v below 64 is the self window of VPI v, which has addresses of its own here. -/
namespace Sys2Proof.Machine

/-- The access codes of R10. `rwl a lo r` is RW while the lock bit at address `a`, bit `lo` (reset value `r`) is 0;
`rwn` is RO while that bit is 1 (R231, transmit ring head); `rws` can only be set (R474, SYS_WDOG.EN). -/
inductive Acc where
  | ro | rw | w1c | wo | rc | rws
  | rwl (addr lo reset : Nat)
  | rwn (addr lo reset : Nat)
  deriving DecidableEq, Repr

/-- The values a map accepts for a field; a write of another value completes with DENIED. -/
inductive Legal where
  | any
  | oneOf (ranges : List (Nat × Nat))
  | multiple (n : Nat)
  | pcpMap
  deriving DecidableEq, Repr

/-- One field of a register. -/
structure Fld where
  addr : Nat
  lo : Nat
  width : Nat
  acc : Acc
  reset : Nat
  legal : Legal
  deriving DecidableEq, Repr

/-- The key a field's value is stored under: the bit address of its least significant bit. -/
def Fld.key (f : Fld) : Nat := f.addr * 32 + f.lo

/-- Whether a map accepts value `v` for a field. -/
def Legal.ok : Legal → Nat → Bool
  | .any, _ => true
  | .oneOf rs, v => rs.any (fun r => decide (r.1 ≤ v) && decide (v ≤ r.2))
  | .multiple n, v => v % n == 0
  | .pcpMap, v => (List.range 8).all (fun p => v / 2 ^ (3 * p) % 8 != 7)

/-- A register of a map, repeated `count` times every `stride` bytes. -/
structure RegSpec where
  addr : Nat
  count : Nat
  stride : Nat
  flds : Nat → List Fld

/-- The internal base of a view's registers: 64 the supervisor view (R390), below 64 a VPI's self window. -/
def viewBase (v : Nat) : Nat := if v = 64 then 0xF0000F1000 else 0xF102000000 + 0x1000 * v

/-- The register of a table that an address names, with its index. -/
def findReg (t : List RegSpec) (a : Nat) : Option (List Fld) :=
  match t.find? (fun r => decide (r.addr ≤ a) && (a - r.addr) % r.stride == 0 &&
      decide ((a - r.addr) / r.stride < r.count)) with
  | some r => some (r.flds ((a - r.addr) / r.stride))
  | none => none

namespace Reg

/-! ### TB block, spec file 02_time_base.md -/
def TB_CTL_REFIE : Fld := ⟨0xF000090000, 4, 1, .rw, 0, .any⟩
def TB_CTL_TSQIE : Fld := ⟨0xF000090000, 3, 1, .rw, 0, .any⟩
def TB_CTL_STEPIE : Fld := ⟨0xF000090000, 2, 1, .rw, 0, .any⟩
def TB_CTL_INVAL : Fld := ⟨0xF000090000, 1, 1, .wo, 0, .any⟩
def TB_CTL_SET : Fld := ⟨0xF000090000, 0, 1, .wo, 0, .any⟩
def TB_STAT_OCXOWARM : Fld := ⟨0xF000090004, 5, 1, .ro, 0, .any⟩
def TB_STAT_REFLOSTL : Fld := ⟨0xF000090004, 4, 1, .w1c, 0, .any⟩
def TB_STAT_REFLOST : Fld := ⟨0xF000090004, 3, 1, .ro, 0, .any⟩
def TB_STAT_TSQOVF : Fld := ⟨0xF000090004, 2, 1, .w1c, 0, .any⟩
def TB_STAT_STEPREF : Fld := ⟨0xF000090004, 1, 1, .w1c, 0, .any⟩
def TB_STAT_VALID : Fld := ⟨0xF000090004, 0, 1, .ro, 0, .any⟩
def TB_INCR_INCR : Fld := ⟨0xF000090008, 0, 32, .rw, 0x40000000, .any⟩
def TB_STEPMAX_MAX : Fld := ⟨0xF00009000C, 0, 32, (.rwl (0xF000090030 ) 0 1), 0x2710, .any⟩
def TB_STEP_LO_STEP : Fld := ⟨0xF000090010, 0, 32, .wo, 0, .any⟩
def TB_STEP_HI_STEP : Fld := ⟨0xF000090014, 0, 32, .wo, 0, .any⟩
def TB_SET_NS_V : Fld := ⟨0xF000090018, 0, 32, .rw, 0, .any⟩
def TB_SET_SECLO_V : Fld := ⟨0xF00009001C, 0, 32, .rw, 0, .any⟩
def TB_SET_SECHI_V : Fld := ⟨0xF000090020, 0, 32, .rw, 0, .any⟩
def TB_NOW_NS_V : Fld := ⟨0xF000090024, 0, 32, .ro, 0, .any⟩
def TB_NOW_SECLO_V : Fld := ⟨0xF000090028, 0, 32, .ro, 0, .any⟩
def TB_NOW_SECHI_V : Fld := ⟨0xF00009002C, 0, 32, .ro, 0, .any⟩
def TB_LOCK_LOCK : Fld := ⟨0xF000090030, 0, 1, .rw, 1, .any⟩
def TB_PTPCTL_ONESTEP : Fld := ⟨0xF000090034, 3, 1, .rw, 0, .any⟩
def TB_PTPCTL_ROLE : Fld := ⟨0xF000090034, 0, 3, .rw, 0, (.oneOf [(0,4)])⟩
def TB_PTPPORTS_EN : Fld := ⟨0xF000090038, 0, 13, .rw, 0, .any⟩
def TB_CNT_PTPUNS : Fld := ⟨0xF00009003C, 16, 16, .rc, 0, .any⟩
def TB_CNT_STEPREF : Fld := ⟨0xF00009003C, 0, 16, .rc, 0, .any⟩
def TB_TSQ_STAT_DROPS : Fld := ⟨0xF000090040, 8, 8, .rc, 0, .any⟩
def TB_TSQ_STAT_LEVEL : Fld := ⟨0xF000090040, 0, 5, .ro, 0, .any⟩
def TB_TSQ0_V : Fld := ⟨0xF000090044, 0, 32, .ro, 0, .any⟩
def TB_TSQ1_V : Fld := ⟨0xF000090048, 0, 32, .ro, 0, .any⟩
def TB_TSQ2_V : Fld := ⟨0xF00009004C, 0, 32, .ro, 0, .any⟩
def TB_TSQ3_VALID : Fld := ⟨0xF000090050, 31, 1, .ro, 0, .any⟩
def TB_TSQ3_PORT : Fld := ⟨0xF000090050, 20, 4, .ro, 0, .any⟩
def TB_TSQ3_MSGTYPE : Fld := ⟨0xF000090050, 16, 4, .ro, 0, .any⟩
def TB_TSQ3_SEQ : Fld := ⟨0xF000090050, 0, 16, .ro, 0, .any⟩
def TB_RXLAT_LAT (i : Nat) : Fld := ⟨0xF000090100 + 0x20 * i, 0, 16, .rw, 0, .any⟩
def TB_TXLAT_LAT (i : Nat) : Fld := ⟨0xF000090104 + 0x20 * i, 0, 16, .rw, 0, .any⟩
def TB_ASYM_ASYM (i : Nat) : Fld := ⟨0xF000090108 + 0x20 * i, 0, 16, .rw, 0, .any⟩
def TB_PDELAY_PD (i : Nat) : Fld := ⟨0xF00009010C + 0x20 * i, 0, 24, .rw, 0, .any⟩
def TB_LCNT_MISS (i : Nat) : Fld := ⟨0xF000090110 + 0x20 * i, 16, 16, .rc, 0, .any⟩
def TB_LCNT_SLIP (i : Nat) : Fld := ⟨0xF000090110 + 0x20 * i, 0, 16, .rc, 0, .any⟩
def TB_TDCCTL_OWNER (i : Nat) : Fld := ⟨0xF000090400 + 0x20 * i, 8, 8, .ro, 0, .any⟩
def TB_TDCCTL_EDGE (i : Nat) : Fld := ⟨0xF000090400 + 0x20 * i, 5, 2, .rw, 0, .any⟩
def TB_TDCCTL_SRC (i : Nat) : Fld := ⟨0xF000090400 + 0x20 * i, 0, 5, .rw, 0x1F, (.oneOf [(0,23),(31,31)])⟩
def TB_TDCDLY_DLY (i : Nat) : Fld := ⟨0xF000090404 + 0x20 * i, 0, 24, .rw, 0, .any⟩
def TB_TDCSTAT_RISE (i : Nat) : Fld := ⟨0xF000090408 + 0x20 * i, 16, 1, .ro, 0, .any⟩
def TB_TDCSTAT_DROPS (i : Nat) : Fld := ⟨0xF000090408 + 0x20 * i, 8, 8, .rc, 0, .any⟩
def TB_TDCSTAT_LEVEL (i : Nat) : Fld := ⟨0xF000090408 + 0x20 * i, 0, 3, .ro, 0, .any⟩
def TB_TDCNS_V (i : Nat) : Fld := ⟨0xF00009040C + 0x20 * i, 0, 32, .ro, 0, .any⟩
def TB_TDCSECLO_V (i : Nat) : Fld := ⟨0xF000090410 + 0x20 * i, 0, 32, .ro, 0, .any⟩
def TB_TDCSECHI_V (i : Nat) : Fld := ⟨0xF000090414 + 0x20 * i, 0, 32, .ro, 0, .any⟩
/-! ### BEZEL block, spec file 05_paced_execution.md -/
def BEZEL_CTL_RATEIE : Fld := ⟨0xF000030000, 2, 1, .rw, 0, .any⟩
def BEZEL_CTL_HOTIE : Fld := ⟨0xF000030000, 1, 1, .rw, 0, .any⟩
def BEZEL_CTL_SLACKIE : Fld := ⟨0xF000030000, 0, 1, .rw, 0, .any⟩
def BEZEL_STAT_HOTL : Fld := ⟨0xF000030004, 12, 1, .w1c, 0, .any⟩
def BEZEL_STAT_HOT : Fld := ⟨0xF000030004, 11, 1, .ro, 0, .any⟩
def BEZEL_STAT_SLACKUP : Fld := ⟨0xF000030004, 10, 1, .w1c, 0, .any⟩
def BEZEL_STAT_RATEREF : Fld := ⟨0xF000030004, 9, 1, .w1c, 0, .any⟩
def BEZEL_STAT_SLEW : Fld := ⟨0xF000030004, 8, 1, .ro, 0, .any⟩
def BEZEL_STAT_OPPEND : Fld := ⟨0xF000030004, 7, 1, .ro, 0, .any⟩
def BEZEL_STAT_OPCUR : Fld := ⟨0xF000030004, 4, 3, .ro, 2, .any⟩
def BEZEL_STAT_SRC : Fld := ⟨0xF000030004, 0, 1, .ro, 0, .any⟩
def BEZEL_BEAT_RATE : Fld := ⟨0xF000030008, 0, 5, .rw, 0x0D, (.oneOf [(0,21)])⟩
def BEZEL_OPTGT_OP : Fld := ⟨0xF00003000C, 0, 3, .rw, 2, .any⟩
def BEZEL_FLOOR_FLOOR : Fld := ⟨0xF000030010, 0, 5, (.rwl (0xF000040004 ) 16 0), 0x1F, (.oneOf [(0,17),(31,31)])⟩
def BEZEL_CNT_SLACKUP : Fld := ⟨0xF000030014, 16, 16, .rc, 0, .any⟩
def BEZEL_CNT_RATEREF : Fld := ⟨0xF000030014, 0, 16, .rc, 0, .any⟩
def BEZEL_SLACK_LANE (i : Nat) : Fld := ⟨0xF000030020 + 0x4 * i, 16, 3, .ro, 0, .any⟩
def BEZEL_SLACK_NOW (i : Nat) : Fld := ⟨0xF000030020 + 0x4 * i, 8, 8, .ro, 0xFF, .any⟩
def BEZEL_SLACK_MIN (i : Nat) : Fld := ⟨0xF000030020 + 0x4 * i, 0, 8, .ro, 0xFF, .any⟩
/-! ### SCHED block, spec file 05_paced_execution.md -/
def SCHED_CTL_OVRIE : Fld := ⟨0xF000040000, 9, 1, .rw, 0, .any⟩
def SCHED_CTL_COLLIE : Fld := ⟨0xF000040000, 8, 1, .rw, 0, .any⟩
def SCHED_CTL_REVOKE : Fld := ⟨0xF000040000, 1, 1, .wo, 0, .any⟩
def SCHED_CTL_ADMIT : Fld := ⟨0xF000040000, 0, 1, .wo, 0, .any⟩
def SCHED_STAT_ADM : Fld := ⟨0xF000040004, 16, 1, .ro, 0, .any⟩
def SCHED_STAT_LANE : Fld := ⟨0xF000040004, 8, 3, .ro, 0, .any⟩
def SCHED_STAT_CL : Fld := ⟨0xF000040004, 4, 3, .ro, 0, .any⟩
def SCHED_STAT_ERR : Fld := ⟨0xF000040004, 0, 4, .ro, 0, .any⟩
def SCHED_BSTATE_S4 : Fld := ⟨0xF000040008, 8, 2, .ro, 0, .any⟩
def SCHED_BSTATE_S3 : Fld := ⟨0xF000040008, 6, 2, .ro, 0, .any⟩
def SCHED_BSTATE_S2 : Fld := ⟨0xF000040008, 4, 2, .ro, 0, .any⟩
def SCHED_BSTATE_S1 : Fld := ⟨0xF000040008, 2, 2, .ro, 0, .any⟩
def SCHED_BSTATE_S0 : Fld := ⟨0xF000040008, 0, 2, .ro, 0, .any⟩
def SCHED_QUANTUM_Q : Fld := ⟨0xF00004000C, 0, 10, .rw, 100, (.oneOf [(10,1000)])⟩
def SCHED_STBASE_OFS (i : Nat) : Fld := ⟨0xF000040100 + 0x40 * i, 0, 14, (.rwl (0xF000040004 ) 16 0), 0, .any⟩
def SCHED_REL_REL (i : Nat) : Fld := ⟨0xF000040104 + 0x40 * i, 0, 32, .rc, 0, .any⟩
def SCHED_COLL_COLL (i : Nat) : Fld := ⟨0xF000040108 + 0x40 * i, 16, 16, .rc, 0, .any⟩
def SCHED_COLL_OVR (i : Nat) : Fld := ⟨0xF000040108 + 0x40 * i, 0, 16, .rc, 0, .any⟩
def SCHED_LAST_KIND (i : Nat) : Fld := ⟨0xF00004010C + 0x40 * i, 16, 1, .ro, 0, .any⟩
def SCHED_LAST_LANE (i : Nat) : Fld := ⟨0xF00004010C + 0x40 * i, 12, 3, .ro, 0, .any⟩
def SCHED_LAST_SRC (i : Nat) : Fld := ⟨0xF00004010C + 0x40 * i, 8, 2, .ro, 0, .any⟩
def SCHED_LAST_ENTRY (i : Nat) : Fld := ⟨0xF00004010C + 0x40 * i, 0, 4, .ro, 0, .any⟩
/-! ### FAB block, spec file 05_paced_execution.md -/
def FAB_VC3LIM_LIM : Fld := ⟨0xF000050000, 0, 4, .rw, 8, (.oneOf [(2,15)])⟩
def FAB_SUPW_W : Fld := ⟨0xF000050004, 0, 8, .rw, 16, (.oneOf [(1,255)])⟩
def FAB_VC0STAT_SRC : Fld := ⟨0xF000050008, 8, 3, .ro, 0, .any⟩
def FAB_VC0STAT_EXCL : Fld := ⟨0xF000050008, 0, 1, .w1c, 0, .any⟩
def FAB_VC0EXC_N : Fld := ⟨0xF00005000C, 0, 32, .rc, 0, .any⟩
def FAB_VC0RES_UNITS (i : Nat) : Fld := ⟨0xF000050020 + 0x4 * i, 0, 10, (.rwl (0xF000040004 ) 16 0), 0, (.oneOf [(0,256)])⟩
/-! ### VPI block, spec file 06_cyclic_tasks.md -/
def VPI_TXCMD_CMD : Fld := ⟨0xF000158000, 0, 3, .wo, 0, .any⟩
def VPI_TXARG_GEN : Fld := ⟨0xF000158004, 16, 16, .rw, 0, .any⟩
def VPI_TXARG_TASK : Fld := ⟨0xF000158004, 0, 14, .rw, 0, .any⟩
def VPI_TXBLK_CL : Fld := ⟨0xF000158008, 24, 3, .rw, 0, .any⟩
def VPI_TXBLK_OFS : Fld := ⟨0xF000158008, 0, 22, .rw, 0, .any⟩
def VPI_TXSTAT_BUSY : Fld := ⟨0xF00015800C, 31, 1, .ro, 0, .any⟩
def VPI_TXSTAT_PEND : Fld := ⟨0xF00015800C, 30, 1, .ro, 0, .any⟩
def VPI_TXSTAT_DONE : Fld := ⟨0xF00015800C, 29, 1, .w1c, 0, .any⟩
def VPI_TXSTAT_SEALED : Fld := ⟨0xF00015800C, 28, 1, .w1c, 0, .any⟩
def VPI_TXSTAT_IE : Fld := ⟨0xF00015800C, 8, 1, .rw, 0, .any⟩
def VPI_TXSTAT_ERR : Fld := ⟨0xF00015800C, 0, 4, .ro, 0, .any⟩
def VPI_TXTIME_X : Fld := ⟨0xF000158010, 0, 16, .ro, 0, .any⟩
def VPI_TSEL_TASK : Fld := ⟨0xF000158020, 0, 14, .rw, 0, .any⟩
def VPI_TRUN_GEN : Fld := ⟨0xF000158024, 16, 16, .ro, 0, .any⟩
def VPI_TRUN_CFLT : Fld := ⟨0xF000158024, 8, 8, .ro, 0, .any⟩
def VPI_TRUN_STATE : Fld := ⟨0xF000158024, 0, 3, .ro, 0, .any⟩
def VPI_TCNT_SKIP : Fld := ⟨0xF000158028, 16, 16, .rc, 0, .any⟩
def VPI_TCNT_DMISS : Fld := ⟨0xF000158028, 0, 16, .rc, 0, .any⟩
def VPI_TFLT_OVR : Fld := ⟨0xF00015802C, 16, 16, .rc, 0, .any⟩
def VPI_TFLT_ABT : Fld := ⟨0xF00015802C, 0, 16, .rc, 0, .any⟩
/-! ### NETSW block, spec file 07_ports_switch.md -/
def NETSW_CTL_RPIE : Fld := ⟨0xF0000A0000, 10, 1, .rw, 0, .any⟩
def NETSW_CTL_AUDIE : Fld := ⟨0xF0000A0000, 9, 1, .rw, 0, .any⟩
def NETSW_CTL_CNTIE : Fld := ⟨0xF0000A0000, 8, 1, .rw, 0, .any⟩
def NETSW_CTL_AUDEN : Fld := ⟨0xF0000A0000, 1, 1, .rw, 1, .any⟩
def NETSW_CTL_EN : Fld := ⟨0xF0000A0000, 0, 1, .rw, 0, .any⟩
def NETSW_STAT_AUDLEAK : Fld := ⟨0xF0000A0004, 3, 1, .w1c, 0, .any⟩
def NETSW_STAT_CNTHALF : Fld := ⟨0xF0000A0004, 2, 1, .ro, 0, .any⟩
def NETSW_STAT_READY : Fld := ⟨0xF0000A0004, 0, 1, .ro, 0, .any⟩
def NETSW_STBASE_ADDR : Fld := ⟨0xF0000A0008, 0, 28, (.rwl (0xF0000A0004 ) 0 0), 0, (.multiple 512)⟩
def NETSW_STSRC_ADDR : Fld := ⟨0xF0000A000C, 0, 32, .rw, 0, .any⟩
def NETSW_STCMD_OP : Fld := ⟨0xF0000A0010, 16, 3, .wo, 0, .any⟩
def NETSW_STCMD_INDEX : Fld := ⟨0xF0000A0010, 0, 15, .wo, 0, .any⟩
def NETSW_STSTAT_BUSY : Fld := ⟨0xF0000A0014, 31, 1, .ro, 0, .any⟩
def NETSW_STSTAT_LOCKED : Fld := ⟨0xF0000A0014, 16, 12, .ro, 0, .any⟩
def NETSW_STSTAT_ERR : Fld := ⟨0xF0000A0014, 0, 4, .ro, 0, .any⟩
def NETSW_CELLS_FREE : Fld := ⟨0xF0000A0018, 0, 18, .ro, 192512, .any⟩
def NETSW_C0POOL_CELLS : Fld := ⟨0xF0000A001C, 0, 15, (.rwl (0xF000040004 ) 16 0), 4096, (.oneOf [(1024,16384)])⟩
def NETSW_C0USE_HWM : Fld := ⟨0xF0000A0020, 16, 16, .ro, 0, .any⟩
def NETSW_C0USE_USE : Fld := ⟨0xF0000A0020, 0, 15, .ro, 0, .any⟩
def NETSW_SUPLIM_CELLS : Fld := ⟨0xF0000A0024, 0, 18, .rw, 16384, .any⟩
def NETSW_MAXRES_MS : Fld := ⟨0xF0000A0028, 0, 7, .rw, 10, (.oneOf [(1,100)])⟩
def NETSW_RESAGE_T : Fld := ⟨0xF0000A002C, 0, 10, .rw, 100, (.oneOf [(1,1000)])⟩
def NETSW_RPWIN_W : Fld := ⟨0xF0000A0030, 0, 8, (.rwl (0xF000040004 ) 16 0), 20, (.oneOf [(20,250)])⟩
def NETSW_RPSTAT_SHORT : Fld := ⟨0xF0000A0034, 31, 1, .w1c, 0, .any⟩
def NETSW_RPSTAT_BUSY : Fld := ⟨0xF0000A0034, 30, 1, .ro, 0, .any⟩
def NETSW_RPSTAT_USE : Fld := ⟨0xF0000A0034, 0, 17, .ro, 0, .any⟩
def NETSW_RPCMD_GO : Fld := ⟨0xF0000A0038, 8, 1, .wo, 0, .any⟩
def NETSW_RPCMD_CL : Fld := ⟨0xF0000A0038, 0, 3, .wo, 0, .any⟩
def NETSW_RPT_NS_V : Fld := ⟨0xF0000A003C, 0, 32, .rw, 0, .any⟩
def NETSW_RPT_SECLO_V : Fld := ⟨0xF0000A0040, 0, 32, .rw, 0, .any⟩
def NETSW_RPT_SECHI_V : Fld := ⟨0xF0000A0044, 0, 32, .rw, 0, .any⟩
def NETSW_AUDPER_MS : Fld := ⟨0xF0000A0048, 0, 10, .rw, 100, (.oneOf [(1,1000)])⟩
def NETSW_AUDCNT_N : Fld := ⟨0xF0000A004C, 0, 32, .rc, 0, .any⟩
def NETSW_STMISS_N : Fld := ⟨0xF0000A0050, 0, 32, .rc, 0, .any⟩
def NETSW_IDROP_I0 : Fld := ⟨0xF0000A0054, 16, 16, .rc, 0, .any⟩
def NETSW_IDROP_I1 : Fld := ⟨0xF0000A0054, 0, 16, .rc, 0, .any⟩
def NETSW_VLANIDX_VID : Fld := ⟨0xF0000A0058, 0, 12, .rw, 0, .any⟩
def NETSW_VLANDATA_UNTAG : Fld := ⟨0xF0000A005C, 16, 15, .rw, 0, .any⟩
def NETSW_VLANDATA_MEMBER : Fld := ⟨0xF0000A005C, 0, 15, .rw, 0, .any⟩
def NETSW_CNTHALF_BITS : Fld := ⟨0xF0000A0060, 0, 8, .ro, 0, .any⟩
def NETSW_C37PORT_P1 : Fld := ⟨0xF0000A0064, 16, 16, .rw, 4713, .any⟩
def NETSW_C37PORT_P0 : Fld := ⟨0xF0000A0064, 0, 16, .rw, 4713, .any⟩
def NETSW_MIRCTL_EN (i : Nat) : Fld := ⟨0xF0000A0080 + 0x10 * i, 31, 1, .rw, 0, .any⟩
def NETSW_MIRCTL_DIR (i : Nat) : Fld := ⟨0xF0000A0080 + 0x10 * i, 24, 2, .rw, 0, .any⟩
def NETSW_MIRCTL_TRUNC (i : Nat) : Fld := ⟨0xF0000A0080 + 0x10 * i, 16, 3, .rw, 0, (.oneOf [(0,3)])⟩
def NETSW_MIRCTL_SRC (i : Nat) : Fld := ⟨0xF0000A0080 + 0x10 * i, 0, 13, .rw, 0, .any⟩
def NETSW_MIRSID_EN (i : Nat) : Fld := ⟨0xF0000A0084 + 0x10 * i, 31, 1, .rw, 0, .any⟩
def NETSW_MIRSID_N (i : Nat) : Fld := ⟨0xF0000A0084 + 0x10 * i, 16, 15, .rw, 1, (.oneOf [(1,32767)])⟩
def NETSW_MIRSID_INDEX (i : Nat) : Fld := ⟨0xF0000A0084 + 0x10 * i, 0, 15, .rw, 0, .any⟩
def NETSW_MIRCNT_N (i : Nat) : Fld := ⟨0xF0000A0088 + 0x10 * i, 0, 32, .rc, 0, .any⟩
def NETSW_MIRDROP_N (i : Nat) : Fld := ⟨0xF0000A008C + 0x10 * i, 0, 32, .rc, 0, .any⟩
def RXRING_BASE_ADDR (i : Nat) : Fld := ⟨0xF0000A1000 + 0x20 * i, 0, 28, .rw, 0, .any⟩
def RXRING_CFG_IE (i : Nat) : Fld := ⟨0xF0000A1004 + 0x20 * i, 17, 1, .rw, 0, .any⟩
def RXRING_CFG_EN (i : Nat) : Fld := ⟨0xF0000A1004 + 0x20 * i, 16, 1, .rw, 0, .any⟩
def RXRING_CFG_SLOT (i : Nat) : Fld := ⟨0xF0000A1004 + 0x20 * i, 8, 1, .rw, 0, .any⟩
def RXRING_CFG_SIZE (i : Nat) : Fld := ⟨0xF0000A1004 + 0x20 * i, 0, 4, (.rwl (0xF0000A1004 + 0x20 * i ) 16 0), 0, (.oneOf [(0,8)])⟩
def RXRING_HEAD_IDX (i : Nat) : Fld := ⟨0xF0000A1008 + 0x20 * i, 0, 12, .ro, 0, .any⟩
def RXRING_TAIL_IDX (i : Nat) : Fld := ⟨0xF0000A100C + 0x20 * i, 0, 12, .rw, 0, .any⟩
def RXRING_ERR_N (i : Nat) : Fld := ⟨0xF0000A1010 + 0x20 * i, 0, 32, .rc, 0, .any⟩
def TXRING_BASE_ADDR (i : Nat) : Fld := ⟨0xF0000A2000 + 0x20 * i, 0, 28, .rw, 0, .any⟩
def TXRING_CFG_EN (i : Nat) : Fld := ⟨0xF0000A2004 + 0x20 * i, 16, 1, .rw, 0, .any⟩
def TXRING_CFG_SLOT (i : Nat) : Fld := ⟨0xF0000A2004 + 0x20 * i, 8, 1, .rw, 0, .any⟩
def TXRING_CFG_SIZE (i : Nat) : Fld := ⟨0xF0000A2004 + 0x20 * i, 0, 4, (.rwl (0xF0000A2004 + 0x20 * i ) 16 0), 0, (.oneOf [(0,8)])⟩
def TXRING_HEAD_IDX (i : Nat) : Fld := ⟨0xF0000A2008 + 0x20 * i, 0, 12, (.rwn (0xF0000A2004 + 0x20 * i) 16 0), 0, .any⟩
def TXRING_TAIL_IDX (i : Nat) : Fld := ⟨0xF0000A200C + 0x20 * i, 0, 12, .rw, 0, .any⟩
def TXRING_ERR_N (i : Nat) : Fld := ⟨0xF0000A2010 + 0x20 * i, 0, 32, .rc, 0, .any⟩
/-! ### PORT block, spec file 07_ports_switch.md -/
def PORT_CTL_SGSPD (i : Nat) : Fld := ⟨0xF0000B0000 + 0x1000 * i, 12, 2, .rw, 0, .any⟩
def PORT_CTL_PARTNER (i : Nat) : Fld := ⟨0xF0000B0000 + 0x1000 * i, 8, 4, .rw, 0xF, (.oneOf [(0,11),(15,15)])⟩
def PORT_CTL_RED (i : Nat) : Fld := ⟨0xF0000B0000 + 0x1000 * i, 4, 2, .rw, 0, (.oneOf [(0,2)])⟩
def PORT_CTL_MISS (i : Nat) : Fld := ⟨0xF0000B0000 + 0x1000 * i, 1, 2, .rw, 0, (.oneOf [(0,2)])⟩
def PORT_CTL_EN (i : Nat) : Fld := ⟨0xF0000B0000 + 0x1000 * i, 0, 1, .rw, 0, .any⟩
def PORT_STAT_REDERR (i : Nat) : Fld := ⟨0xF0000B0004 + 0x1000 * i, 4, 1, .w1c, 0, .any⟩
def PORT_STAT_PCSLOCK (i : Nat) : Fld := ⟨0xF0000B0004 + 0x1000 * i, 2, 1, .ro, 0, .any⟩
def PORT_STAT_SIGLOS (i : Nat) : Fld := ⟨0xF0000B0004 + 0x1000 * i, 1, 1, .ro, 0, .any⟩
def PORT_STAT_LINK (i : Nat) : Fld := ⟨0xF0000B0004 + 0x1000 * i, 0, 1, .ro, 0, .any⟩
def PORT_MAXLEN_LEN (i : Nat) : Fld := ⟨0xF0000B0008 + 0x1000 * i, 0, 14, .rw, 1522, (.oneOf [(1518,9216)])⟩
def PORT_VLAN_ACCEPT (i : Nat) : Fld := ⟨0xF0000B000C + 0x1000 * i, 16, 2, .rw, 0, (.oneOf [(0,2)])⟩
def PORT_VLAN_PCP (i : Nat) : Fld := ⟨0xF0000B000C + 0x1000 * i, 12, 3, .rw, 0, .any⟩
def PORT_VLAN_PVID (i : Nat) : Fld := ⟨0xF0000B000C + 0x1000 * i, 0, 12, .rw, 1, (.oneOf [(1,4094)])⟩
def PORT_PCPMAP_MAP (i : Nat) : Fld := ⟨0xF0000B0010 + 0x1000 * i, 0, 24, .rw, 0x00D63440, .pcpMap⟩
def PORT_T1S_TO : Fld := ⟨0xF0000BC014, 24, 8, .rw, 32, (.oneOf [(1,255)])⟩
def PORT_T1S_NCNT : Fld := ⟨0xF0000BC014, 16, 8, .rw, 8, (.oneOf [(1,255)])⟩
def PORT_T1S_NODEID : Fld := ⟨0xF0000BC014, 8, 8, .rw, 255, .any⟩
def PORT_T1S_PLCAEN : Fld := ⟨0xF0000BC014, 0, 1, .rw, 0, .any⟩
def PORT_T1S2_BTMR : Fld := ⟨0xF0000BC018, 8, 8, .rw, 128, .any⟩
def PORT_T1S2_BCNT : Fld := ⟨0xF0000BC018, 0, 8, .rw, 0, .any⟩
def PORT_RXOCT_LO_N (i : Nat) : Fld := ⟨0xF0000B0020 + 0x1000 * i, 0, 32, .rc, 0, .any⟩
def PORT_RXOCT_HI_N (i : Nat) : Fld := ⟨0xF0000B0024 + 0x1000 * i, 0, 32, .ro, 0, .any⟩
def PORT_TXOCT_LO_N (i : Nat) : Fld := ⟨0xF0000B0028 + 0x1000 * i, 0, 32, .rc, 0, .any⟩
def PORT_TXOCT_HI_N (i : Nat) : Fld := ⟨0xF0000B002C + 0x1000 * i, 0, 32, .ro, 0, .any⟩
def PORT_RXFRM_N (i : Nat) : Fld := ⟨0xF0000B0030 + 0x1000 * i, 0, 32, .rc, 0, .any⟩
def PORT_TXFRM_N (i : Nat) : Fld := ⟨0xF0000B0034 + 0x1000 * i, 0, 32, .rc, 0, .any⟩
def PORT_FCSERR_N (i : Nat) : Fld := ⟨0xF0000B0038 + 0x1000 * i, 0, 32, .rc, 0, .any⟩
def PORT_RUNT_N (i : Nat) : Fld := ⟨0xF0000B003C + 0x1000 * i, 0, 32, .rc, 0, .any⟩
def PORT_LONG_N (i : Nat) : Fld := ⟨0xF0000B0040 + 0x1000 * i, 0, 32, .rc, 0, .any⟩
def PORT_SYMERR_N (i : Nat) : Fld := ⟨0xF0000B0044 + 0x1000 * i, 0, 32, .rc, 0, .any⟩
def PORT_MACCTL_N (i : Nat) : Fld := ⟨0xF0000B0048 + 0x1000 * i, 0, 32, .rc, 0, .any⟩
def PORT_VLANDROP_N (i : Nat) : Fld := ⟨0xF0000B004C + 0x1000 * i, 0, 32, .rc, 0, .any⟩
def PORT_AUTHFAIL_N (i : Nat) : Fld := ⟨0xF0000B0050 + 0x1000 * i, 0, 32, .rc, 0, .any⟩
def PORT_POLICE_N (i : Nat) : Fld := ⟨0xF0000B0054 + 0x1000 * i, 0, 32, .rc, 0, .any⟩
def PORT_NOBUF_N (i : Nat) : Fld := ⟨0xF0000B0058 + 0x1000 * i, 0, 32, .rc, 0, .any⟩
def PORT_C0DROP_N (i : Nat) : Fld := ⟨0xF0000B005C + 0x1000 * i, 0, 32, .rc, 0, .any⟩
def PORT_MISSDROP_N (i : Nat) : Fld := ⟨0xF0000B0060 + 0x1000 * i, 0, 32, .rc, 0, .any⟩
def PORT_RESDROP_N (i : Nat) : Fld := ⟨0xF0000B0064 + 0x1000 * i, 0, 32, .rc, 0, .any⟩
def PORT_AGEDROP_N (i : Nat) : Fld := ⟨0xF0000B0068 + 0x1000 * i, 0, 32, .rc, 0, .any⟩
def PORT_DUPDISC_N (i : Nat) : Fld := ⟨0xF0000B006C + 0x1000 * i, 0, 32, .rc, 0, .any⟩
def PORT_WRONGLAN_N (i : Nat) : Fld := ⟨0xF0000B0070 + 0x1000 * i, 0, 32, .rc, 0, .any⟩
def PORT_COLL_N (i : Nat) : Fld := ⟨0xF0000B0074 + 0x1000 * i, 0, 32, .rc, 0, .any⟩
def PORT_XCOLL_N (i : Nat) : Fld := ⟨0xF0000B0078 + 0x1000 * i, 0, 32, .rc, 0, .any⟩
def PORT_LATECOLL_N (i : Nat) : Fld := ⟨0xF0000B007C + 0x1000 * i, 0, 32, .rc, 0, .any⟩
def PORT_CNTHALF_BITS (i : Nat) : Fld := ⟨0xF0000B0080 + 0x1000 * i, 0, 24, .ro, 0, .any⟩
/-! ### SFE block, spec file 08_sample_front_end.md -/
def SFE_CTL_CNTIE : Fld := ⟨0xF0000C0000, 10, 1, .rw, 0, .any⟩
def SFE_CTL_PHRIE : Fld := ⟨0xF0000C0000, 9, 1, .rw, 0, .any⟩
def SFE_CTL_LOSSIE : Fld := ⟨0xF0000C0000, 8, 1, .rw, 0, .any⟩
def SFE_CTL_EN : Fld := ⟨0xF0000C0000, 0, 1, .rw, 0, .any⟩
def SFE_STAT_REPLAY : Fld := ⟨0xF0000C0004, 2, 1, .ro, 0, .any⟩
def SFE_STAT_GLOST : Fld := ⟨0xF0000C0004, 1, 1, .w1c, 0, .any⟩
def SFE_STSRC_ADDR : Fld := ⟨0xF0000C0008, 0, 32, .rw, 0, .any⟩
def SFE_CMD_TABLE : Fld := ⟨0xF0000C000C, 20, 3, .wo, 0, (.oneOf [(0,4)])⟩
def SFE_CMD_OP : Fld := ⟨0xF0000C000C, 16, 3, .wo, 0, (.oneOf [(1,2)])⟩
def SFE_CMD_INDEX : Fld := ⟨0xF0000C000C, 0, 14, .wo, 0, .any⟩
def SFE_CMDSTAT_BUSY : Fld := ⟨0xF0000C0010, 31, 1, .ro, 0, .any⟩
def SFE_CMDSTAT_ERR : Fld := ⟨0xF0000C0010, 0, 4, .ro, 0, .any⟩
def SFE_TOTLOAD_K : Fld := ⟨0xF0000C0014, 0, 17, .ro, 0, .any⟩
def SFE_GDSEL_SLOT : Fld := ⟨0xF0000C0018, 0, 14, .rw, 0, .any⟩
def SFE_GD_GD : Fld := ⟨0xF0000C001C, 0, 32, .ro, 0, .any⟩
def SFE_DETSEL_SLOT : Fld := ⟨0xF0000C0020, 0, 14, .rw, 0, .any⟩
def SFE_DETVAL_R : Fld := ⟨0xF0000C0024, 0, 32, .ro, 0, .any⟩
def SFE_PHRBASE_ADDR : Fld := ⟨0xF0000C0030, 0, 28, .rw, 0, .any⟩
def SFE_PHRCFG_EN : Fld := ⟨0xF0000C0034, 16, 1, .rw, 0, .any⟩
def SFE_PHRCFG_SIZE : Fld := ⟨0xF0000C0034, 0, 4, (.rwl (0xF0000C0034 ) 16 0), 0, (.oneOf [(0,10)])⟩
def SFE_PHRHEAD_IDX : Fld := ⟨0xF0000C0038, 0, 14, .ro, 0, .any⟩
def SFE_PHRTAIL_IDX : Fld := ⟨0xF0000C003C, 0, 14, .rw, 0, .any⟩
def SFE_PHRERR_N : Fld := ⟨0xF0000C0040, 0, 32, .rc, 0, .any⟩
def SFE_NOINPUT_N : Fld := ⟨0xF0000C0050, 0, 32, .rc, 0, .any⟩
def SFE_DECERR_N : Fld := ⟨0xF0000C0054, 0, 32, .rc, 0, .any⟩
def SFE_CONF_N : Fld := ⟨0xF0000C0058, 0, 32, .rc, 0, .any⟩
def SFE_SIMDROP_N : Fld := ⟨0xF0000C005C, 0, 32, .rc, 0, .any⟩
def SFE_LATE_N : Fld := ⟨0xF0000C0060, 0, 32, .rc, 0, .any⟩
def SFE_DUP_N : Fld := ⟨0xF0000C0064, 0, 32, .rc, 0, .any⟩
def SFE_SUBST_N : Fld := ⟨0xF0000C0068, 0, 32, .rc, 0, .any⟩
def SFE_NOSYNC_N : Fld := ⟨0xF0000C006C, 0, 32, .rc, 0, .any⟩
def SFE_SETOVF_N : Fld := ⟨0xF0000C0070, 0, 32, .rc, 0, .any⟩
def SFE_CNTHALF_BITS : Fld := ⟨0xF0000C007C, 0, 9, .ro, 0, .any⟩
def SFE_GLOST_BITS (i : Nat) : Fld := ⟨0xF0000C0100 + 0x4 * i, 0, 32, .w1c, 0, .any⟩
def SFE_SLOAD_K (i : Nat) : Fld := ⟨0xF0000C0200 + 0x4 * i, 0, 13, .ro, 0, .any⟩
/-! ### WAMS block, spec file 09_concentrator.md -/
def WAMS_CTL_KIE : Fld := ⟨0xF0000D0000, 12, 1, .rw, 0, .any⟩
def WAMS_CTL_CNTIE : Fld := ⟨0xF0000D0000, 11, 1, .rw, 0, .any⟩
def WAMS_CTL_CFGIE : Fld := ⟨0xF0000D0000, 10, 1, .rw, 0, .any⟩
def WAMS_CTL_ALMIE : Fld := ⟨0xF0000D0000, 9, 1, .rw, 0, .any⟩
def WAMS_CTL_CLOSEIE : Fld := ⟨0xF0000D0000, 8, 1, .rw, 0, .any⟩
def WAMS_CTL_ALMEN : Fld := ⟨0xF0000D0000, 2, 1, .rw, 0, .any⟩
def WAMS_CTL_LATEFILL : Fld := ⟨0xF0000D0000, 1, 1, .rw, 0, .any⟩
def WAMS_CTL_EN : Fld := ⟨0xF0000D0000, 0, 1, .rw, 0, .any⟩
def WAMS_STAT_OPEN : Fld := ⟨0xF0000D0004, 8, 7, .ro, 0, .any⟩
def WAMS_STAT_CNTHALF : Fld := ⟨0xF0000D0004, 5, 1, .ro, 0, .any⟩
def WAMS_STAT_KFLT : Fld := ⟨0xF0000D0004, 4, 1, .w1c, 0, .any⟩
def WAMS_STAT_ALMOVF : Fld := ⟨0xF0000D0004, 3, 1, .w1c, 0, .any⟩
def WAMS_STAT_CFGCHG : Fld := ⟨0xF0000D0004, 2, 1, .ro, 0, .any⟩
def WAMS_STAT_FORCED : Fld := ⟨0xF0000D0004, 1, 1, .w1c, 0, .any⟩
def WAMS_STAT_CLOSED : Fld := ⟨0xF0000D0004, 0, 1, .w1c, 0, .any⟩
def WAMS_GRID_TOL : Fld := ⟨0xF0000D0008, 16, 7, (.rwl (0xF0000D0000 ) 0 0), 10, (.oneOf [(0,100)])⟩
def WAMS_GRID_LEAD : Fld := ⟨0xF0000D0008, 8, 8, (.rwl (0xF0000D0000 ) 0 0), 5, (.oneOf [(0,100)])⟩
def WAMS_GRID_FS : Fld := ⟨0xF0000D0008, 0, 8, (.rwl (0xF0000D0000 ) 0 0), 50, (.oneOf [(1,1),(2,2),(5,5),(10,10),(12,12),(15,15),(20,20),(25,25),(30,30),(50,50),(60,60),(100,100),(120,120),(200,200),(240,240)])⟩
def WAMS_WIN_MS : Fld := ⟨0xF0000D000C, 0, 11, (.rwl (0xF0000D0000 ) 0 0), 100, (.oneOf [(1,2000)])⟩
def WAMS_UTCOFS_S : Fld := ⟨0xF0000D0010, 0, 8, .rw, 0, .any⟩
def WAMS_SIGBASE_ADDR : Fld := ⟨0xF0000D0014, 0, 28, (.rwl (0xF0000D0000 ) 0 0), 0, (.multiple 512)⟩
def WAMS_ASBASE_ADDR : Fld := ⟨0xF0000D0018, 0, 28, (.rwl (0xF0000D0000 ) 0 0), 0, (.multiple 512)⟩
def WAMS_ASCFG_NSIG : Fld := ⟨0xF0000D001C, 0, 5, (.rwl (0xF0000D0000 ) 0 0), 20, (.oneOf [(10,20)])⟩
def WAMS_RESBASE_ADDR : Fld := ⟨0xF0000D0020, 0, 28, (.rwl (0xF0000D0000 ) 0 0), 0, (.multiple 128)⟩
def WAMS_STSRC_ADDR : Fld := ⟨0xF0000D0024, 0, 32, .rw, 0, .any⟩
def WAMS_CMD_OP : Fld := ⟨0xF0000D0028, 28, 3, .wo, 0, (.oneOf [(1,3)])⟩
def WAMS_CMD_TABLE : Fld := ⟨0xF0000D0028, 24, 3, .wo, 0, (.oneOf [(0,6)])⟩
def WAMS_CMD_INDEX : Fld := ⟨0xF0000D0028, 0, 20, .wo, 0, .any⟩
def WAMS_CMDSTAT_BUSY : Fld := ⟨0xF0000D002C, 31, 1, .ro, 0, .any⟩
def WAMS_CMDSTAT_ERR : Fld := ⟨0xF0000D002C, 0, 4, .ro, 0, .any⟩
def WAMS_LASTSEQ_SEQ : Fld := ⟨0xF0000D0030, 0, 32, .ro, 0, .any⟩
def WAMS_LASTSLOT_CAUSE : Fld := ⟨0xF0000D0034, 8, 2, .ro, 0, .any⟩
def WAMS_LASTSLOT_SLOT : Fld := ⟨0xF0000D0034, 0, 7, .ro, 0, .any⟩
def WAMS_ALMCTL_HB : Fld := ⟨0xF0000D0040, 24, 8, .rw, 0, .any⟩
def WAMS_ALMCTL_TC : Fld := ⟨0xF0000D0040, 16, 3, .rw, 6, (.oneOf [(0,6)])⟩
def WAMS_ALMCTL_SRCID : Fld := ⟨0xF0000D0040, 0, 16, .rw, 0, .any⟩
def WAMS_ALMPORTS_PORTS : Fld := ⟨0xF0000D0044, 0, 13, .rw, 0, .any⟩
def WAMS_ALMTPL_ADDR : Fld := ⟨0xF0000D0048, 0, 32, .rw, 0, .any⟩
def WAMS_ALMSEQ_SEQ : Fld := ⟨0xF0000D004C, 0, 16, .ro, 0, .any⟩
def WAMS_RBASE_ADDR (i : Nat) : Fld := ⟨0xF0000D0050 + 0x10 * i, 0, 28, .rw, 0, .any⟩
def WAMS_RCFG_EN (i : Nat) : Fld := ⟨0xF0000D0054 + 0x10 * i, 16, 1, .rw, 0, .any⟩
def WAMS_RCFG_SIZE (i : Nat) : Fld := ⟨0xF0000D0054 + 0x10 * i, 0, 4, (.rwl (0xF0000D0054 + 0x10 * i ) 16 0), 0, (.oneOf [(0,10)])⟩
def WAMS_RHEAD_IDX (i : Nat) : Fld := ⟨0xF0000D0058 + 0x10 * i, 0, 14, .ro, 0, .any⟩
def WAMS_RTAIL_IDX (i : Nat) : Fld := ⟨0xF0000D005C + 0x10 * i, 0, 14, .rw, 0, .any⟩
def WAMS_KSTAT_RUN : Fld := ⟨0xF0000D0080, 8, 8, .ro, 0, .any⟩
def WAMS_KSTAT_LIVE : Fld := ⟨0xF0000D0080, 0, 6, .ro, 0, .any⟩
def WAMS_KFLT_VALID : Fld := ⟨0xF0000D0084, 31, 1, .w1c, 0, .any⟩
def WAMS_KFLT_KIND : Fld := ⟨0xF0000D0084, 12, 2, .ro, 0, .any⟩
def WAMS_KFLT_LANE : Fld := ⟨0xF0000D0084, 8, 3, .ro, 0, .any⟩
def WAMS_KFLT_CAUSE : Fld := ⟨0xF0000D0084, 0, 6, .ro, 0, .any⟩
def WAMS_KFTICK_T : Fld := ⟨0xF0000D0088, 0, 31, .ro, 0, .any⟩
def WAMS_KCANCEL_T : Fld := ⟨0xF0000D008C, 0, 31, .wo, 0, .any⟩
def WAMS_CNTHALF_BITS : Fld := ⟨0xF0000D00BC, 0, 16, .ro, 0, .any⟩
def WAMS_CNT_N (i : Nat) : Fld := ⟨0xF0000D00C0 + 0x4 * i, 0, 32, .rc, 0, .any⟩
def WAMS_CFGCHG_BITS (i : Nat) : Fld := ⟨0xF0000D0400 + 0x4 * i, 0, 32, .w1c, 0, .any⟩
/-! ### CLASP block, spec file 10_clasp_chain.md -/
def CLASP_CTL_MAXHOP : Fld := ⟨0xF0000E0000, 8, 8, .rw, 32, (.oneOf [(1,255)])⟩
def CLASP_CTL_TTIE : Fld := ⟨0xF0000E0000, 2, 1, .rw, 0, .any⟩
def CLASP_CTL_TTEN : Fld := ⟨0xF0000E0000, 1, 1, .rw, 0, .any⟩
def CLASP_CTL_EN : Fld := ⟨0xF0000E0000, 0, 1, .rw, 0, .any⟩
def CLASP_STAT_LDLYERR : Fld := ⟨0xF0000E0004, 2, 1, .w1c, 0, .any⟩
def CLASP_STAT_TTNEW : Fld := ⟨0xF0000E0004, 1, 1, .w1c, 0, .any⟩
def CLASP_STAT_DUPDEV : Fld := ⟨0xF0000E0004, 0, 1, .w1c, 0, .any⟩
def CLASP_DEV_SINK : Fld := ⟨0xF0000E0008, 16, 9, .rw, 0, .any⟩
def CLASP_DEV_NUM : Fld := ⟨0xF0000E0008, 0, 9, (.rwl (0xF0000E0000 ) 0 0), 0, .any⟩
def CLASP_TM_PER : Fld := ⟨0xF0000E000C, 16, 10, .rw, 1, (.oneOf [(1,1000)])⟩
def CLASP_TM_TMASTER : Fld := ⟨0xF0000E000C, 0, 9, (.rwl (0xF0000E0000 ) 0 0), 0, .any⟩
def CLASP_MAXAGE_US : Fld := ⟨0xF0000E0010, 0, 12, (.rwl (0xF0000E0000 ) 0 0), 1000, (.oneOf [(10,4000)])⟩
def CLASP_ETYPE_ET : Fld := ⟨0xF0000E0014, 0, 16, (.rwl (0xF0000E0000 ) 0 0), 0x88B5, .any⟩
def CLASP_ECHO_PER : Fld := ⟨0xF0000E0018, 0, 10, .rw, 10, (.oneOf [(1,1000)])⟩
def CLASP_RTIDX_DEV : Fld := ⟨0xF0000E001C, 0, 9, .rw, 0, .any⟩
def CLASP_RTDATA_MASK : Fld := ⟨0xF0000E0020, 0, 4, .rw, 0, .any⟩
def CLASP_TTM_V (i : Nat) : Fld := ⟨0xF0000E0024 + 0x4 * i, 0, 32, .ro, 0, .any⟩
def CLASP_TTRX_V (i : Nat) : Fld := ⟨0xF0000E0030 + 0x4 * i, 0, 32, .ro, 0, .any⟩
def CLASP_OWN_N : Fld := ⟨0xF0000E0040, 0, 32, .rc, 0, .any⟩
def CLASP_AGEDROP_N : Fld := ⟨0xF0000E0044, 0, 32, .rc, 0, .any⟩
def CLASP_HOPLATE_N : Fld := ⟨0xF0000E0048, 0, 32, .rc, 0, .any⟩
def CLASP_HOPDROP_N : Fld := ⟨0xF0000E004C, 0, 32, .rc, 0, .any⟩
def CLASP_NOROUTE_N : Fld := ⟨0xF0000E0050, 0, 32, .rc, 0, .any⟩
def CLASP_TOOBIG_N : Fld := ⟨0xF0000E0054, 0, 32, .rc, 0, .any⟩
def CLASP_NONCLASP_N : Fld := ⟨0xF0000E0058, 0, 32, .rc, 0, .any⟩
def CLASP_DUPDISC_N : Fld := ⟨0xF0000E005C, 0, 32, .rc, 0, .any⟩
def CLASP_DUPRISK_N : Fld := ⟨0xF0000E0060, 0, 32, .rc, 0, .any⟩
def CLASP_PCTL_ROLE (i : Nat) : Fld := ⟨0xF0000E0100 + 0x20 * i, 0, 2, .rw, 0, (.oneOf [(0,2)])⟩
def CLASP_LDLY_D (i : Nat) : Fld := ⟨0xF0000E0104 + 0x20 * i, 0, 24, .ro, 0, .any⟩
def CLASP_ASYM_A (i : Nat) : Fld := ⟨0xF0000E0108 + 0x20 * i, 0, 16, .rw, 0, .any⟩
def CLASP_NBR_V (i : Nat) : Fld := ⟨0xF0000E010C + 0x20 * i, 31, 1, .ro, 0, .any⟩
def CLASP_NBR_DEV (i : Nat) : Fld := ⟨0xF0000E010C + 0x20 * i, 0, 9, .ro, 0, .any⟩
/-! ### VPI block, spec file 11_instances.md -/
def VPI_CTL_RSTIE : Fld := ⟨0xF000150000, 1, 1, .rw, 0, .any⟩
def VPI_CTL_CMDIE : Fld := ⟨0xF000150000, 0, 1, .rw, 0, .any⟩
def VPI_STAT_SHPEND : Fld := ⟨0xF000150004, 2, 1, .ro, 0, .any⟩
def VPI_STAT_RSTDONE : Fld := ⟨0xF000150004, 1, 1, .w1c, 0, .any⟩
def VPI_STAT_FRZDONE : Fld := ⟨0xF000150004, 0, 1, .w1c, 0, .any⟩
def VPI_STSRC_ADDR : Fld := ⟨0xF000150008, 0, 32, .rw, 0, .any⟩
def VPI_CMD_OP : Fld := ⟨0xF00015000C, 16, 3, .wo, 0, (.oneOf [(1,7)])⟩
def VPI_CMD_INDEX : Fld := ⟨0xF00015000C, 0, 13, .wo, 0, .any⟩
def VPI_CMDSTAT_BUSY : Fld := ⟨0xF000150010, 31, 1, .ro, 0, .any⟩
def VPI_CMDSTAT_ERR : Fld := ⟨0xF000150010, 0, 4, .ro, 0, .any⟩
def VPI_VSEL_VMID : Fld := ⟨0xF000150014, 0, 6, .rw, 0, .any⟩
def VPI_VSTATE_STATE : Fld := ⟨0xF000150018, 8, 3, .ro, 0, .any⟩
def VPI_VSTATE_IGEN : Fld := ⟨0xF000150018, 0, 8, .ro, 0, .any⟩
def VPI_UTCOFS_TQ : Fld := ⟨0xF00015001C, 8, 8, .rw, 0x0A, .any⟩
def VPI_UTCOFS_S : Fld := ⟨0xF00015001C, 0, 8, .rw, 0, .any⟩
def VPI_DTGRANT0_V3 : Fld := ⟨0xF000150020, 31, 1, (.rwl (0xF000040004 ) 16 0), 0, .any⟩
def VPI_DTGRANT0_VMID3 : Fld := ⟨0xF000150020, 24, 6, (.rwl (0xF000040004 ) 16 0), 0, .any⟩
def VPI_DTGRANT0_V2 : Fld := ⟨0xF000150020, 23, 1, (.rwl (0xF000040004 ) 16 0), 0, .any⟩
def VPI_DTGRANT0_VMID2 : Fld := ⟨0xF000150020, 16, 6, (.rwl (0xF000040004 ) 16 0), 0, .any⟩
def VPI_DTGRANT0_V1 : Fld := ⟨0xF000150020, 15, 1, (.rwl (0xF000040004 ) 16 0), 0, .any⟩
def VPI_DTGRANT0_VMID1 : Fld := ⟨0xF000150020, 8, 6, (.rwl (0xF000040004 ) 16 0), 0, .any⟩
def VPI_DTGRANT0_V0 : Fld := ⟨0xF000150020, 7, 1, (.rwl (0xF000040004 ) 16 0), 0, .any⟩
def VPI_DTGRANT0_VMID0 : Fld := ⟨0xF000150020, 0, 6, (.rwl (0xF000040004 ) 16 0), 0, .any⟩
def VPI_DTGRANT1_V3 : Fld := ⟨0xF000150024, 31, 1, (.rwl (0xF000040004 ) 16 0), 0, .any⟩
def VPI_DTGRANT1_VMID3 : Fld := ⟨0xF000150024, 24, 6, (.rwl (0xF000040004 ) 16 0), 0, .any⟩
def VPI_DTGRANT1_V2 : Fld := ⟨0xF000150024, 23, 1, (.rwl (0xF000040004 ) 16 0), 0, .any⟩
def VPI_DTGRANT1_VMID2 : Fld := ⟨0xF000150024, 16, 6, (.rwl (0xF000040004 ) 16 0), 0, .any⟩
def VPI_DTGRANT1_V1 : Fld := ⟨0xF000150024, 15, 1, (.rwl (0xF000040004 ) 16 0), 0, .any⟩
def VPI_DTGRANT1_VMID1 : Fld := ⟨0xF000150024, 8, 6, (.rwl (0xF000040004 ) 16 0), 0, .any⟩
def VPI_DTGRANT1_V0 : Fld := ⟨0xF000150024, 7, 1, (.rwl (0xF000040004 ) 16 0), 0, .any⟩
def VPI_DTGRANT1_VMID0 : Fld := ⟨0xF000150024, 0, 6, (.rwl (0xF000040004 ) 16 0), 0, .any⟩
def VPI_PUBSEL_IDX : Fld := ⟨0xF000150028, 0, 12, .rw, 0, .any⟩
def VPI_PUBST_ST : Fld := ⟨0xF00015002C, 0, 32, .ro, 0, .any⟩
def VPI_PUBSQ_SQ : Fld := ⟨0xF000150030, 0, 32, .ro, 0, .any⟩
def VPI_GPARSE_N : Fld := ⟨0xF000150040, 0, 32, .rc, 0, .any⟩
def VPI_GCONF_N : Fld := ⟨0xF000150044, 0, 32, .rc, 0, .any⟩
def VPI_GLEN_N : Fld := ⟨0xF000150048, 0, 32, .rc, 0, .any⟩
def VPI_PUBLEN_N : Fld := ⟨0xF00015004C, 0, 32, .rc, 0, .any⟩
def SELF_ID_STATE (i : Nat) : Fld := ⟨0xF101000000 + 0x1000 * i + 0x0, 8, 3, .ro, 0, .any⟩
def SELF_ID_VMID (i : Nat) : Fld := ⟨0xF101000000 + 0x1000 * i + 0x0, 0, 6, .ro, 0, .any⟩
def SELF_STAT_FROZEN (i : Nat) : Fld := ⟨0xF101000000 + 0x1000 * i + 0x4, 1, 1, .ro, 0, .any⟩
def SELF_STAT_SHPEND (i : Nat) : Fld := ⟨0xF101000000 + 0x1000 * i + 0x4, 0, 1, .ro, 0, .any⟩
def SELF_RX_HEAD_IDX (i : Nat) : Fld := ⟨0xF101000000 + 0x1000 * i + 0x10, 0, 12, .ro, 0, .any⟩
def SELF_RX_TAIL_IDX (i : Nat) : Fld := ⟨0xF101000000 + 0x1000 * i + 0x14, 0, 12, .rw, 0, .any⟩
def SELF_RX_CFG_V (i : Nat) : Fld := ⟨0xF101000000 + 0x1000 * i + 0x18, 0, 32, .ro, 0, .any⟩
def SELF_TX_HEAD_IDX (i : Nat) : Fld := ⟨0xF101000000 + 0x1000 * i + 0x20, 0, 12, .ro, 0, .any⟩
def SELF_TX_TAIL_IDX (i : Nat) : Fld := ⟨0xF101000000 + 0x1000 * i + 0x24, 0, 12, .rw, 0, .any⟩
def SELF_TX_CFG_V (i : Nat) : Fld := ⟨0xF101000000 + 0x1000 * i + 0x28, 0, 32, .ro, 0, .any⟩
def SELF_SPOOF_N (i : Nat) : Fld := ⟨0xF101000000 + 0x1000 * i + 0x40, 0, 32, .rc, 0, .any⟩
def SELF_FENCED_N (i : Nat) : Fld := ⟨0xF101000000 + 0x1000 * i + 0x44, 0, 32, .rc, 0, .any⟩
def SELF_SHDROP_N (i : Nat) : Fld := ⟨0xF101000000 + 0x1000 * i + 0x48, 0, 32, .rc, 0, .any⟩
def SELF_DTDENY_N (i : Nat) : Fld := ⟨0xF101000000 + 0x1000 * i + 0x4C, 0, 32, .rc, 0, .any⟩
def SELF_RSTDROP_N (i : Nat) : Fld := ⟨0xF101000000 + 0x1000 * i + 0x50, 0, 32, .rc, 0, .any⟩
def SELF_EVLOST_N (i : Nat) : Fld := ⟨0xF101000000 + 0x1000 * i + 0x54, 0, 32, .rc, 0, .any⟩
/-! ### FAILOVER block, spec file 12_failover.md -/
def FAILOVER_CTL_DONEIE : Fld := ⟨0xF000060000, 9, 1, .rw, 0, .any⟩
def FAILOVER_CTL_LOSTIE : Fld := ⟨0xF000060000, 8, 1, .rw, 0, .any⟩
def FAILOVER_CTL_EN : Fld := ⟨0xF000060000, 0, 1, .rw, 0, .any⟩
def FAILOVER_STAT_BUSY : Fld := ⟨0xF000060004, 31, 1, .ro, 0, .any⟩
def FAILOVER_STAT_PHASE : Fld := ⟨0xF000060004, 28, 3, .ro, 0, .any⟩
def FAILOVER_STAT_CL : Fld := ⟨0xF000060004, 24, 3, .ro, 0, .any⟩
def FAILOVER_STAT_RSFAIL : Fld := ⟨0xF000060004, 8, 1, .w1c, 0, .any⟩
def FAILOVER_STAT_DRILL : Fld := ⟨0xF000060004, 7, 1, .ro, 0, .any⟩
def FAILOVER_STAT_GAP : Fld := ⟨0xF000060004, 3, 1, .w1c, 0, .any⟩
def FAILOVER_STAT_LOST : Fld := ⟨0xF000060004, 2, 1, .w1c, 0, .any⟩
def FAILOVER_STAT_DONE : Fld := ⟨0xF000060004, 1, 1, .w1c, 0, .any⟩
def FAILOVER_STAT_SPARE : Fld := ⟨0xF000060004, 0, 1, .ro, 0, .any⟩
def FAILOVER_CMD_OP : Fld := ⟨0xF000060008, 16, 3, .wo, 0, (.oneOf [(1,3)])⟩
def FAILOVER_CMD_CL : Fld := ⟨0xF000060008, 0, 3, .wo, 0, .any⟩
def FAILOVER_POL_OVR : Fld := ⟨0xF00006000C, 16, 4, .rw, 1, (.oneOf [(1,15)])⟩
def FAILOVER_POL_CECC : Fld := ⟨0xF00006000C, 0, 16, .rw, 64, .any⟩
def FAILOVER_PRE_US : Fld := ⟨0xF000060010, 0, 12, (.rwl (0xF000040004 ) 16 0), 500, (.oneOf [(0,4000)])⟩
def FAILOVER_ROLE_SPARE : Fld := ⟨0xF000060014, 12, 3, .ro, 4, .any⟩
def FAILOVER_ROLE_R3 : Fld := ⟨0xF000060014, 9, 3, .ro, 3, .any⟩
def FAILOVER_ROLE_R2 : Fld := ⟨0xF000060014, 6, 3, .ro, 2, .any⟩
def FAILOVER_ROLE_R1 : Fld := ⟨0xF000060014, 3, 3, .ro, 1, .any⟩
def FAILOVER_ROLE_R0 : Fld := ⟨0xF000060014, 0, 3, .ro, 0, .any⟩
def FAILOVER_SYND_VALID : Fld := ⟨0xF000060018, 31, 1, .w1c, 0, .any⟩
def FAILOVER_SYND_CL : Fld := ⟨0xF000060018, 24, 3, .ro, 0, .any⟩
def FAILOVER_SYND_GROUP : Fld := ⟨0xF000060018, 20, 3, .ro, 0, .any⟩
def FAILOVER_SYND_LANE : Fld := ⟨0xF000060018, 16, 4, .ro, 0, .any⟩
def FAILOVER_SYND_INFO : Fld := ⟨0xF000060018, 8, 8, .ro, 0, .any⟩
def FAILOVER_SYND_CHECK : Fld := ⟨0xF000060018, 0, 4, .ro, 0, .any⟩
def FAILOVER_TPWR_T : Fld := ⟨0xF00006001C, 0, 16, .ro, 0, .any⟩
def FAILOVER_TRST_T : Fld := ⟨0xF000060020, 0, 16, .ro, 0, .any⟩
def FAILOVER_TREP_T : Fld := ⟨0xF000060024, 0, 16, .ro, 0, .any⟩
def FAILOVER_TTOT_T : Fld := ⟨0xF000060028, 0, 16, .ro, 0, .any⟩
def FAILOVER_CNT_TAKE : Fld := ⟨0xF00006002C, 16, 16, .rc, 0, .any⟩
def FAILOVER_CNT_DRILLS : Fld := ⟨0xF00006002C, 0, 16, .rc, 0, .any⟩
def FAILOVER_LOST_BITS (i : Nat) : Fld := ⟨0xF000060030 + 0x4 * i, 0, 32, .w1c, 0, .any⟩
def FAILOVER_CECC_N (i : Nat) : Fld := ⟨0xF000060040 + 0x4 * i, 0, 16, .rc, 0, .any⟩
/-! ### PWR block, spec file 13_power_thermal.md -/
def PWR_CTL_SFWSHED : Fld := ⟨0xF000010000, 12, 1, .rw, 1, .any⟩
def PWR_CTL_OWNIE : Fld := ⟨0xF000010000, 11, 1, .rw, 0, .any⟩
def PWR_CTL_RETIE : Fld := ⟨0xF000010000, 10, 1, .rw, 0, .any⟩
def PWR_CTL_THIE : Fld := ⟨0xF000010000, 9, 1, .rw, 0, .any⟩
def PWR_CTL_SFWIE : Fld := ⟨0xF000010000, 8, 1, .rw, 0, .any⟩
def PWR_STAT_OWNREF : Fld := ⟨0xF000010004, 7, 1, .w1c, 0, .any⟩
def PWR_STAT_TOVER : Fld := ⟨0xF000010004, 6, 1, .w1c, 0, .any⟩
def PWR_STAT_THOT : Fld := ⟨0xF000010004, 5, 1, .ro, 0, .any⟩
def PWR_STAT_SFWL : Fld := ⟨0xF000010004, 4, 1, .w1c, 0, .any⟩
def PWR_STAT_SFW : Fld := ⟨0xF000010004, 3, 1, .ro, 0, .any⟩
def PWR_STAT_HOLDUP : Fld := ⟨0xF000010004, 2, 1, .ro, 0, .any⟩
def PWR_STAT_INB : Fld := ⟨0xF000010004, 1, 1, .ro, 0, .any⟩
def PWR_STAT_INA : Fld := ⟨0xF000010004, 0, 1, .ro, 0, .any⟩
def PWR_DCMD_STATE : Fld := ⟨0xF000010008, 4, 2, .wo, 0, (.oneOf [(0,2)])⟩
def PWR_DCMD_DOM : Fld := ⟨0xF000010008, 0, 4, .wo, 0, (.oneOf [(0,9)])⟩
def PWR_DCMDSTAT_BUSY : Fld := ⟨0xF00001000C, 31, 1, .ro, 0, .any⟩
def PWR_DCMDSTAT_ERR : Fld := ⟨0xF00001000C, 0, 4, .ro, 0, .any⟩
def PWR_DSTATE_D9 : Fld := ⟨0xF000010010, 18, 2, .ro, 1, .any⟩
def PWR_DSTATE_D8 : Fld := ⟨0xF000010010, 16, 2, .ro, 0, .any⟩
def PWR_DSTATE_D7 : Fld := ⟨0xF000010010, 14, 2, .ro, 1, .any⟩
def PWR_DSTATE_D6 : Fld := ⟨0xF000010010, 12, 2, .ro, 1, .any⟩
def PWR_DSTATE_D5 : Fld := ⟨0xF000010010, 10, 2, .ro, 1, .any⟩
def PWR_DSTATE_D4 : Fld := ⟨0xF000010010, 8, 2, .ro, 0, .any⟩
def PWR_DSTATE_D3 : Fld := ⟨0xF000010010, 6, 2, .ro, 0, .any⟩
def PWR_DSTATE_D2 : Fld := ⟨0xF000010010, 4, 2, .ro, 0, .any⟩
def PWR_DSTATE_D1 : Fld := ⟨0xF000010010, 2, 2, .ro, 0, .any⟩
def PWR_DSTATE_D0 : Fld := ⟨0xF000010010, 0, 2, .ro, 0, .any⟩
def PWR_RETFAIL_B : Fld := ⟨0xF000010014, 0, 8, .w1c, 0, .any⟩
def PWR_RETVALID_B : Fld := ⟨0xF000010018, 0, 8, .ro, 0, .any⟩
def PWR_WAKEEN_EN : Fld := ⟨0xF00001001C, 0, 10, .rw, 0, .any⟩
def PWR_WAKESRC_SRC : Fld := ⟨0xF000010020, 0, 10, .w1c, 0, .any⟩
def PWR_WAKEIO_XT : Fld := ⟨0xF000010024, 16, 4, .rw, 0, .any⟩
def PWR_WAKEIO_BI : Fld := ⟨0xF000010024, 0, 16, .rw, 0, .any⟩
def PWR_WAKEDOM_D : Fld := ⟨0xF000010028, 0, 10, .rw, 0xE0, .any⟩
def PWR_WAKET_V (i : Nat) : Fld := ⟨0xF00001002C + 0x4 * i, 0, 32, .rw, 0, .any⟩
def PWR_PBUDGET_P : Fld := ⟨0xF000010038, 0, 16, .rw, 0, .any⟩
def PWR_THERM_KMIN : Fld := ⟨0xF00001003C, 24, 8, .rw, 160, (.oneOf [(0,0),(64,255)])⟩
def PWR_THERM_TDER : Fld := ⟨0xF00001003C, 16, 8, .rw, 4, .any⟩
def PWR_THERM_TSOFT : Fld := ⟨0xF00001003C, 0, 8, .rw, 95, (.oneOf [(50,120)])⟩
def PWR_ATH_TH1 : Fld := ⟨0xF000010040, 24, 8, .rw, 192, .any⟩
def PWR_ATH_TH2 : Fld := ⟨0xF000010040, 16, 8, .rw, 128, .any⟩
def PWR_ATH_TH3 : Fld := ⟨0xF000010040, 8, 8, .rw, 64, .any⟩
def PWR_ATH_HYS : Fld := ⟨0xF000010040, 0, 8, .rw, 16, .any⟩
def PWR_UNCORE_MW : Fld := ⟨0xF000010044, 0, 16, (.rwl (0xF000040004 ) 16 0), 12000, .any⟩
def PWR_C0FUND_MW (i : Nat) : Fld := ⟨0xF000010050 + 0x4 * i, 0, 16, (.rwl (0xF000040004 ) 16 0), 0, .any⟩
def PWR_FUNDSTAT_F : Fld := ⟨0xF000010064, 0, 5, .ro, 0, .any⟩
def PWR_ACC_W (i : Nat) : Fld := ⟨0xF000010080 + 0x10 * i, 16, 8, .rw, 16, (.oneOf [(1,255)])⟩
def PWR_ACC_CAP (i : Nat) : Fld := ⟨0xF000010080 + 0x10 * i, 0, 16, .rw, 1000, (.oneOf [(10,65535)])⟩
def PWR_ACCLEVEL_LEVEL (i : Nat) : Fld := ⟨0xF000010084 + 0x10 * i, 0, 32, .ro, 0, .any⟩
def PWR_ACCPMEAS_PMEAS (i : Nat) : Fld := ⟨0xF000010088 + 0x10 * i, 0, 16, .ro, 0, .any⟩
def PWR_TJ_W : Fld := ⟨0xF0000100D0, 24, 8, .ro, 0, .any⟩
def PWR_TJ_N : Fld := ⟨0xF0000100D0, 16, 8, .ro, 0, .any⟩
def PWR_TJ_F : Fld := ⟨0xF0000100D0, 8, 8, .ro, 0, .any⟩
def PWR_TJ_C : Fld := ⟨0xF0000100D0, 0, 8, .ro, 0, .any⟩
def PWR_TCP_T : Fld := ⟨0xF0000100D4, 0, 16, .ro, 0, .any⟩
def PWR_HOLDUP_T : Fld := ⟨0xF0000100D8, 0, 16, .ro, 0, .any⟩
def PWR_IDLE_GATED (i : Nat) : Fld := ⟨0xF000010100 + 0x4 * i, 31, 1, .ro, 0, .any⟩
def PWR_IDLE_T (i : Nat) : Fld := ⟨0xF000010100 + 0x4 * i, 0, 16, .rw, 0, .any⟩
def PWR_GOVSTAT_SPARE : Fld := ⟨0xF000010140, 16, 1, .ro, 0, .any⟩
def PWR_GOVSTAT_QLEN : Fld := ⟨0xF000010140, 8, 4, .ro, 0, .any⟩
def PWR_GOVSTAT_HEAD : Fld := ⟨0xF000010140, 0, 5, .ro, 0x1F, .any⟩
def PWR_CMP_OUT (i : Nat) : Fld := ⟨0xF000010180 + 0x4 * i, 31, 1, .ro, 0, .any⟩
def PWR_CMP_DIR (i : Nat) : Fld := ⟨0xF000010180 + 0x4 * i, 16, 1, .rw, 0, .any⟩
def PWR_CMP_HYS (i : Nat) : Fld := ⟨0xF000010180 + 0x4 * i, 12, 4, .rw, 4, .any⟩
def PWR_CMP_THR (i : Nat) : Fld := ⟨0xF000010180 + 0x4 * i, 0, 12, .rw, 0x800, .any⟩
def PWR_OWNCMD_OWNER : Fld := ⟨0xF000010200, 16, 8, .wo, 0, .any⟩
def PWR_OWNCMD_IDX : Fld := ⟨0xF000010200, 8, 6, .wo, 0, .any⟩
def PWR_OWNCMD_OP : Fld := ⟨0xF000010200, 0, 2, .wo, 0, (.oneOf [(1,2)])⟩
def PWR_OWNSTAT_CUR : Fld := ⟨0xF000010204, 8, 8, .ro, 0, .any⟩
def PWR_OWNSTAT_RES : Fld := ⟨0xF000010204, 0, 2, .ro, 0, .any⟩
def PWR_OWNREFCNT_N : Fld := ⟨0xF000010208, 0, 32, .rc, 0, .any⟩
def PWR_OWN_OWNER (i : Nat) : Fld := ⟨0xF000010300 + 0x4 * i, 0, 8, .ro, 0, .any⟩
def PWR_RETSIG_SIG (i : Nat) : Fld := ⟨0xF000010400 + 0x4 * i, 0, 32, .ro, 0, .any⟩
/-! ### CLK block, spec file 13_power_thermal.md -/
def CLK_STAT_BEATSRC : Fld := ⟨0xF000020000, 2, 1, .ro, 0, .any⟩
def CLK_STAT_MGTSRC : Fld := ⟨0xF000020000, 1, 1, .ro, 0, .any⟩
def CLK_STAT_OCXOACT : Fld := ⟨0xF000020000, 0, 1, .ro, 0, .any⟩
def CLK_CMD_OP : Fld := ⟨0xF000020004, 0, 3, .wo, 0, (.oneOf [(1,2)])⟩
def CLK_FIC_KHZ : Fld := ⟨0xF000020008, 0, 18, .ro, 0, .any⟩
def CLK_PLL0_LOCK : Fld := ⟨0xF000020010, 31, 1, .ro, 0, .any⟩
def CLK_PLL0_LOSS : Fld := ⟨0xF000020010, 30, 1, .w1c, 0, .any⟩
def CLK_PLL0_EN : Fld := ⟨0xF000020010, 0, 1, .ro, 1, .any⟩
def CLK_PLL_LOCK (i : Nat) : Fld := ⟨0xF000020014 + 0x4 * i, 31, 1, .ro, 0, .any⟩
def CLK_PLL_LOSS (i : Nat) : Fld := ⟨0xF000020014 + 0x4 * i, 30, 1, .w1c, 0, .any⟩
def CLK_PLL_EN (i : Nat) : Fld := ⟨0xF000020014 + 0x4 * i, 0, 1, .rw, 0, .any⟩
/-! ### EVREC block, spec file 14_records.md -/
def EVREC_CTL_SNAPSEV : Fld := ⟨0xF0000F0000, 24, 3, .rw, 7, .any⟩
def EVREC_CTL_REPWIN : Fld := ⟨0xF0000F0000, 16, 8, .rw, 100, .any⟩
def EVREC_CTL_FULLIE : Fld := ⟨0xF0000F0000, 9, 1, .rw, 0, .any⟩
def EVREC_CTL_DROPIE : Fld := ⟨0xF0000F0000, 8, 1, .rw, 0, .any⟩
def EVREC_STAT_FULLP : Fld := ⟨0xF0000F0004, 2, 1, .ro, 0, .any⟩
def EVREC_STAT_DROPQ : Fld := ⟨0xF0000F0004, 1, 1, .w1c, 0, .any⟩
def EVREC_STAT_READY : Fld := ⟨0xF0000F0004, 0, 1, .ro, 0, .any⟩
def EVREC_SEQ_NEXT : Fld := ⟨0xF0000F0008, 0, 32, .ro, 1, .any⟩
def EVREC_CNT_DROPQ : Fld := ⟨0xF0000F000C, 16, 16, .rc, 0, .any⟩
def EVREC_CNT_CHKBAD : Fld := ⟨0xF0000F000C, 0, 16, .rc, 0, .any⟩
def EVREC_SNAP_V (i : Nat) : Fld := ⟨0xF0000F0020 + 0x4 * i, 31, 1, .rw, 0, .any⟩
def EVREC_SNAP_OFS (i : Nat) : Fld := ⟨0xF0000F0020 + 0x4 * i, 2, 22, .rw, 0, .any⟩
def VIEW_SEL_CLS (i : Nat) : Fld := ⟨viewBase i + 0x0, 8, 1, .rw, 0, .any⟩
def VIEW_SEL_PART (i : Nat) : Fld := ⟨viewBase i + 0x0, 0, 7, .rw, 64, (.oneOf [(0,64)])⟩
def VIEW_CMD_OP (i : Nat) : Fld := ⟨viewBase i + 0x4, 0, 3, .wo, 0, (.oneOf [(1,5)])⟩
def VIEW_ARG_V (i : Nat) : Fld := ⟨viewBase i + 0x8, 0, 32, .rw, 0, .any⟩
def VIEW_STAT_CHG (i : Nat) : Fld := ⟨viewBase i + 0xC, 4, 1, .ro, 0, .any⟩
def VIEW_STAT_GAP (i : Nat) : Fld := ⟨viewBase i + 0xC, 3, 1, .ro, 0, .any⟩
def VIEW_STAT_END (i : Nat) : Fld := ⟨viewBase i + 0xC, 2, 1, .ro, 0, .any⟩
def VIEW_STAT_VALID (i : Nat) : Fld := ⟨viewBase i + 0xC, 1, 1, .ro, 0, .any⟩
def VIEW_STAT_FULLP (i : Nat) : Fld := ⟨viewBase i + 0xC, 0, 1, .ro, 0, .any⟩
def VIEW_USE_QUOTA (i : Nat) : Fld := ⟨viewBase i + 0x10, 16, 16, .ro, 0, .any⟩
def VIEW_USE_USED (i : Nat) : Fld := ⟨viewBase i + 0x10, 0, 16, .ro, 0, .any⟩
def VIEW_LOST_N (i : Nat) : Fld := ⟨viewBase i + 0x14, 0, 32, .rc, 0, .any⟩
def VIEW_SNAPLOST_N (i : Nat) : Fld := ⟨viewBase i + 0x18, 0, 32, .rc, 0, .any⟩
def VIEW_ARGS_V (i j : Nat) : Fld := ⟨viewBase i + 0x20 + 4 * j, 0, 32, .rw, 0, .any⟩
def VIEW_POST_CLS (i : Nat) : Fld := ⟨viewBase i + 0x34, 13, 1, .wo, 0, .any⟩
def VIEW_POST_SEV (i : Nat) : Fld := ⟨viewBase i + 0x34, 10, 3, .wo, 0, .any⟩
def VIEW_POST_NUM (i : Nat) : Fld := ⟨viewBase i + 0x34, 0, 10, .wo, 0, .any⟩
def VIEW_WIN_V (i j : Nat) : Fld := ⟨viewBase i + 0x40 + 4 * j, 0, 32, .ro, 0, .any⟩
/-! ### ACQ block, spec file 14_records.md -/
def ACQ_CTL_DONEIE : Fld := ⟨0xF000100000, 8, 1, .rw, 0, .any⟩
def ACQ_CTL_EN : Fld := ⟨0xF000100000, 0, 1, .rw, 0, .any⟩
def ACQ_STAT_ROWLOST : Fld := ⟨0xF000100004, 1, 1, .w1c, 0, .any⟩
def ACQ_STAT_DONE : Fld := ⟨0xF000100004, 0, 1, .w1c, 0, .any⟩
def ACQ_BASE_ADDR : Fld := ⟨0xF000100008, 0, 28, (.rwl (0xF000100000 ) 0 0), 0, (.multiple 512)⟩
def ACQ_SIZE_N : Fld := ⟨0xF00010000C, 0, 12, (.rwl (0xF000100000 ) 0 0), 0, (.oneOf [(1,2048)])⟩
def ACQ_STSRC_ADDR : Fld := ⟨0xF000100010, 0, 32, .rw, 0, .any⟩
def ACQ_CMD_OP : Fld := ⟨0xF000100014, 16, 3, .wo, 0, (.oneOf [(1,5)])⟩
def ACQ_CMD_REC : Fld := ⟨0xF000100014, 8, 5, .wo, 0, .any⟩
def ACQ_CMD_SEG : Fld := ⟨0xF000100014, 0, 8, .wo, 0, .any⟩
def ACQ_CMDSTAT_BUSY : Fld := ⟨0xF000100018, 31, 1, .ro, 0, .any⟩
def ACQ_CMDSTAT_ERR : Fld := ⟨0xF000100018, 0, 4, .ro, 0, .any⟩
def ACQ_RSTAT_DONE (i : Nat) : Fld := ⟨0xF000100100 + 0x10 * i, 16, 8, .ro, 0, .any⟩
def ACQ_RSTAT_SEG (i : Nat) : Fld := ⟨0xF000100100 + 0x10 * i, 8, 8, .ro, 0, .any⟩
def ACQ_RSTAT_STATE (i : Nat) : Fld := ⟨0xF000100100 + 0x10 * i, 0, 3, .ro, 0, .any⟩
def ACQ_RCNT_EARLY (i : Nat) : Fld := ⟨0xF000100104 + 0x10 * i, 16, 16, .rc, 0, .any⟩
def ACQ_RCNT_RETRIG (i : Nat) : Fld := ⟨0xF000100104 + 0x10 * i, 0, 16, .rc, 0, .any⟩
def ACQ_RLOST_N (i : Nat) : Fld := ⟨0xF000100108 + 0x10 * i, 0, 32, .rc, 0, .any⟩
def ACQ_RSEQ_N (i : Nat) : Fld := ⟨0xF00010010C + 0x10 * i, 0, 32, .ro, 0, .any⟩
/-! ### LOCKET block, spec file 15_locket.md -/
def LOCKET_CTL_MBIE : Fld := ⟨0xF000160000, 8, 1, .rw, 0, .any⟩
def LOCKET_CTL_FEEDEN : Fld := ⟨0xF000160000, 0, 1, .rw, 0, .any⟩
def LOCKET_STAT_LINK : Fld := ⟨0xF000160004, 4, 1, .ro, 0, .any⟩
def LOCKET_STAT_BUSY : Fld := ⟨0xF000160004, 3, 1, .ro, 0, .any⟩
def LOCKET_STAT_BADRESP : Fld := ⟨0xF000160004, 2, 1, .w1c, 0, .any⟩
def LOCKET_STAT_TIMEOUT : Fld := ⟨0xF000160004, 1, 1, .w1c, 0, .any⟩
def LOCKET_STAT_RESP : Fld := ⟨0xF000160004, 0, 1, .w1c, 0, .any⟩
def LOCKET_MBCMD_SEND : Fld := ⟨0xF000160008, 31, 1, .wo, 0, .any⟩
def LOCKET_MBCMD_NBYTES : Fld := ⟨0xF000160008, 0, 10, .wo, 0, (.oneOf [(8,504)])⟩
def LOCKET_MBRLEN_N : Fld := ⟨0xF00016000C, 0, 10, .ro, 0, .any⟩
def LOCKET_MBTO_MS : Fld := ⟨0xF000160010, 0, 16, .rw, 10, (.oneOf [(1,1000)])⟩
def LOCKET_FDROP_N : Fld := ⟨0xF000160014, 0, 32, .rc, 0, .any⟩
def LOCKET_FSENT_N : Fld := ⟨0xF000160018, 0, 32, .rc, 0, .any⟩
def LOCKET_FSEL_BITS (i : Nat) : Fld := ⟨0xF000160100 + 0x4 * i, 0, 32, .rw, 0, .any⟩
def LOCKET_MBTX_V (i : Nat) : Fld := ⟨0xF000160400 + 0x4 * i, 0, 32, .rw, 0, .any⟩
def LOCKET_MBRX_V (i : Nat) : Fld := ⟨0xF000160800 + 0x4 * i, 0, 32, .ro, 0, .any⟩
/-! ### KEY block, spec file 16_security_lifecycle.md -/
def KEY_CTL_IE : Fld := ⟨0xF000070000, 8, 1, .rw, 0, .any⟩
def KEY_STAT_RNGFAIL : Fld := ⟨0xF000070004, 2, 1, .w1c, 0, .any⟩
def KEY_STAT_ROOTT : Fld := ⟨0xF000070004, 1, 1, .ro, 0, .any⟩
def KEY_STAT_ROOTF : Fld := ⟨0xF000070004, 0, 1, .ro, 0, .any⟩
def KEY_CMD_OP : Fld := ⟨0xF000070008, 16, 3, .wo, 0, (.oneOf [(1,4)])⟩
def KEY_CMD_PARENT : Fld := ⟨0xF000070008, 8, 7, .wo, 0, .any⟩
def KEY_CMD_SLOT : Fld := ⟨0xF000070008, 0, 6, .wo, 0, .any⟩
def KEY_CMDSTAT_BUSY : Fld := ⟨0xF00007000C, 31, 1, .ro, 0, .any⟩
def KEY_CMDSTAT_ERR : Fld := ⟨0xF00007000C, 0, 4, .ro, 0, .any⟩
def KEY_NEWATTR_TXNEXT : Fld := ⟨0xF000070010, 27, 1, .rw, 0, .any⟩
def KEY_NEWATTR_ALG : Fld := ⟨0xF000070010, 24, 3, .rw, 0, .any⟩
def KEY_NEWATTR_UTX : Fld := ⟨0xF000070010, 23, 1, .rw, 0, .any⟩
def KEY_NEWATTR_URX : Fld := ⟨0xF000070010, 22, 1, .rw, 0, .any⟩
def KEY_NEWATTR_UKDF : Fld := ⟨0xF000070010, 21, 1, .rw, 0, .any⟩
def KEY_NEWATTR_NEXT : Fld := ⟨0xF000070010, 14, 6, .rw, 0, .any⟩
def KEY_NEWATTR_NEXTV : Fld := ⟨0xF000070010, 13, 1, .rw, 0, .any⟩
def KEY_REMASK_US : Fld := ⟨0xF000070014, 0, 16, .rw, 1000, (.oneOf [(100,60000)])⟩
def KEY_CNT_TXNOKEY : Fld := ⟨0xF000070018, 0, 32, .rc, 0, .any⟩
def KEY_DATA_V (i : Nat) : Fld := ⟨0xF000070020 + 0x4 * i, 0, 32, .wo, 0, .any⟩
def KEY_LABEL_V (i : Nat) : Fld := ⟨0xF000070040 + 0x4 * i, 0, 32, .rw, 0, .any⟩
def KEY_CTX_V (i : Nat) : Fld := ⟨0xF000070050 + 0x4 * i, 0, 32, .rw, 0, .any⟩
def KEY_RNG_V : Fld := ⟨0xF000070060, 0, 32, .ro, 0, .any⟩
def KEY_ATTR_V (i : Nat) : Fld := ⟨0xF000070100 + 0x4 * i, 31, 1, .ro, 0, .any⟩
def KEY_ATTR_LOCKED (i : Nat) : Fld := ⟨0xF000070100 + 0x4 * i, 30, 1, .ro, 0, .any⟩
def KEY_ATTR_ORIGIN (i : Nat) : Fld := ⟨0xF000070100 + 0x4 * i, 28, 2, .ro, 0, .any⟩
def KEY_ATTR_TXNEXT (i : Nat) : Fld := ⟨0xF000070100 + 0x4 * i, 27, 1, .ro, 0, .any⟩
def KEY_ATTR_ALG (i : Nat) : Fld := ⟨0xF000070100 + 0x4 * i, 24, 3, .ro, 0, .any⟩
def KEY_ATTR_UTX (i : Nat) : Fld := ⟨0xF000070100 + 0x4 * i, 23, 1, .ro, 0, .any⟩
def KEY_ATTR_URX (i : Nat) : Fld := ⟨0xF000070100 + 0x4 * i, 22, 1, .ro, 0, .any⟩
def KEY_ATTR_UKDF (i : Nat) : Fld := ⟨0xF000070100 + 0x4 * i, 21, 1, .ro, 0, .any⟩
def KEY_ATTR_NEXT (i : Nat) : Fld := ⟨0xF000070100 + 0x4 * i, 14, 6, .ro, 0, .any⟩
def KEY_ATTR_NEXTV (i : Nat) : Fld := ⟨0xF000070100 + 0x4 * i, 13, 1, .ro, 0, .any⟩
def KEY_ATTR_PARENT (i : Nat) : Fld := ⟨0xF000070100 + 0x4 * i, 6, 7, .ro, 0x7F, .any⟩
def KEY_KID_KID (i : Nat) : Fld := ⟨0xF000070200 + 0x4 * i, 0, 32, (.rwl (0xF000070100 + 0x4 * i ) 31 0), 0, .any⟩
/-! ### LIFE block, spec file 16_security_lifecycle.md -/
def LIFE_STAT_BOOTFAIL : Fld := ⟨0xF000080000, 31, 1, .ro, 0, .any⟩
def LIFE_STAT_DBG : Fld := ⟨0xF000080000, 8, 1, .ro, 0, .any⟩
def LIFE_STAT_WIPE : Fld := ⟨0xF000080000, 7, 1, .ro, 0, .any⟩
def LIFE_STAT_STATE : Fld := ⟨0xF000080000, 0, 3, .ro, 0, .any⟩
def LIFE_CMD_OP : Fld := ⟨0xF000080004, 16, 4, .wo, 0, (.oneOf [(1,9)])⟩
def LIFE_CMD_ARG : Fld := ⟨0xF000080004, 0, 2, .wo, 0, .any⟩
def LIFE_CMDSTAT_BUSY : Fld := ⟨0xF000080008, 31, 1, .ro, 0, .any⟩
def LIFE_CMDSTAT_ERR : Fld := ⟨0xF000080008, 0, 4, .ro, 0, .any⟩
def LIFE_SVN_SVN : Fld := ⟨0xF00008000C, 0, 7, .ro, 0, .any⟩
def LIFE_BOOTKEY_RUN : Fld := ⟨0xF000080010, 8, 2, .ro, 0, .any⟩
def LIFE_BOOTKEY_REV : Fld := ⟨0xF000080010, 4, 4, .ro, 0, .any⟩
def LIFE_BOOTKEY_PROG : Fld := ⟨0xF000080010, 0, 4, .ro, 0, .any⟩
def LIFE_WIPED_N : Fld := ⟨0xF000080014, 0, 14, .ro, 0, .any⟩
def LIFE_CHAL_V (i : Nat) : Fld := ⟨0xF000080020 + 0x4 * i, 0, 32, .ro, 0, .any⟩
def LIFE_RESP_V (i : Nat) : Fld := ⟨0xF000080040 + 0x4 * i, 0, 32, .wo, 0, .any⟩
def LIFE_DIEID_V (i : Nat) : Fld := ⟨0xF000080070 + 0x4 * i, 0, 32, .ro, 0, .any⟩
/-! ### IOBUS block, spec file 17_backplane_io.md -/
def IO_CTL_IE (i : Nat) : Fld := ⟨0xF000120000 + 0x100 * i, 8, 1, .rw, 0, .any⟩
def IO_CTL_RECOVER (i : Nat) : Fld := ⟨0xF000120000 + 0x100 * i, 3, 1, .wo, 0, .any⟩
def IO_CTL_MON (i : Nat) : Fld := ⟨0xF000120000 + 0x100 * i, 2, 1, (.rwl (0xF000120000 + 0x100 * i ) 0 0), 0, .any⟩
def IO_CTL_EN (i : Nat) : Fld := ⟨0xF000120000 + 0x100 * i, 0, 1, .rw, 0, .any⟩
def IO_STAT_REC (i : Nat) : Fld := ⟨0xF000120004 + 0x100 * i, 24, 8, .ro, 0, .any⟩
def IO_STAT_TEC (i : Nat) : Fld := ⟨0xF000120004 + 0x100 * i, 16, 8, .ro, 0, .any⟩
def IO_STAT_BOFF (i : Nat) : Fld := ⟨0xF000120004 + 0x100 * i, 2, 1, .ro, 0, .any⟩
def IO_STAT_EPASS (i : Nat) : Fld := ⟨0xF000120004 + 0x100 * i, 1, 1, .ro, 0, .any⟩
def IO_NBT_SJW (i : Nat) : Fld := ⟨0xF000120008 + 0x100 * i, 24, 7, (.rwl (0xF000120000 + 0x100 * i ) 0 0), 16, .any⟩
def IO_NBT_TSEG2 (i : Nat) : Fld := ⟨0xF000120008 + 0x100 * i, 16, 7, (.rwl (0xF000120000 + 0x100 * i ) 0 0), 16, .any⟩
def IO_NBT_TSEG1 (i : Nat) : Fld := ⟨0xF000120008 + 0x100 * i, 8, 8, (.rwl (0xF000120000 + 0x100 * i ) 0 0), 63, .any⟩
def IO_NBT_BRP (i : Nat) : Fld := ⟨0xF000120008 + 0x100 * i, 0, 6, (.rwl (0xF000120000 + 0x100 * i ) 0 0), 2, .any⟩
def IO_DBT_TDCEN (i : Nat) : Fld := ⟨0xF00012000C + 0x100 * i, 31, 1, (.rwl (0xF000120000 + 0x100 * i ) 0 0), 1, .any⟩
def IO_DBT_DSJW (i : Nat) : Fld := ⟨0xF00012000C + 0x100 * i, 24, 4, (.rwl (0xF000120000 + 0x100 * i ) 0 0), 10, .any⟩
def IO_DBT_DTSEG2 (i : Nat) : Fld := ⟨0xF00012000C + 0x100 * i, 16, 4, (.rwl (0xF000120000 + 0x100 * i ) 0 0), 10, .any⟩
def IO_DBT_DTSEG1 (i : Nat) : Fld := ⟨0xF00012000C + 0x100 * i, 8, 5, (.rwl (0xF000120000 + 0x100 * i ) 0 0), 29, .any⟩
def IO_DBT_DBRP (i : Nat) : Fld := ⟨0xF00012000C + 0x100 * i, 0, 6, (.rwl (0xF000120000 + 0x100 * i ) 0 0), 1, .any⟩
def IO_TDC_TDCV (i : Nat) : Fld := ⟨0xF000120010 + 0x100 * i, 8, 7, .ro, 0, .any⟩
def IO_TDC_TDCO (i : Nat) : Fld := ⟨0xF000120010 + 0x100 * i, 0, 7, (.rwl (0xF000120000 + 0x100 * i ) 0 0), 30, .any⟩
def IO_RXDLY_D (i : Nat) : Fld := ⟨0xF000120014 + 0x100 * i, 0, 16, .rw, 0, .any⟩
def IO_RXRTR_N (i : Nat) : Fld := ⟨0xF000120018 + 0x100 * i, 0, 32, .rc, 0, .any⟩
def IO_NOMATCH_N (i : Nat) : Fld := ⟨0xF00012001C + 0x100 * i, 0, 32, .rc, 0, .any⟩
def IO_LOSTCNT_N (i : Nat) : Fld := ⟨0xF000120020 + 0x100 * i, 0, 32, .rc, 0, .any⟩
def IO_BOFFCNT_N (i : Nat) : Fld := ⟨0xF000120024 + 0x100 * i, 0, 32, .rc, 0, .any⟩
def IOBUS_STSRC_ADDR : Fld := ⟨0xF000120800, 0, 32, .rw, 0, .any⟩
def IOBUS_CMD_OP : Fld := ⟨0xF000120804, 16, 3, .wo, 0, (.oneOf [(1,1)])⟩
def IOBUS_CMD_INDEX : Fld := ⟨0xF000120804, 0, 8, .wo, 0, .any⟩
def IOBUS_CMDSTAT_BUSY : Fld := ⟨0xF000120808, 31, 1, .ro, 0, .any⟩
def IOBUS_CMDSTAT_ERR : Fld := ⟨0xF000120808, 0, 4, .ro, 0, .any⟩
def IOBUS_OBJSEL_BUS : Fld := ⟨0xF00012080C, 16, 1, .rw, 0, .any⟩
def IOBUS_OBJSEL_IDX : Fld := ⟨0xF00012080C, 0, 11, .rw, 0, .any⟩
def IOBUS_OBJCMD_OP : Fld := ⟨0xF000120810, 0, 3, .wo, 0, (.oneOf [(1,4)])⟩
def IOBUS_DENY_N : Fld := ⟨0xF000120814, 0, 32, .rc, 0, .any⟩
def IOBUS_WIN_V (i : Nat) : Fld := ⟨0xF000120900 + 0x4 * i, 0, 32, .rw, 0, .any⟩
/-! ### IDBUS block, spec file 17_backplane_io.md -/
def IDBUS_CTL_IE : Fld := ⟨0xF000130000, 8, 1, .rw, 0, .any⟩
def IDBUS_CTL_FAST : Fld := ⟨0xF000130000, 1, 1, .rw, 1, .any⟩
def IDBUS_CTL_EN : Fld := ⟨0xF000130000, 0, 1, .rw, 0, .any⟩
def IDBUS_PRES_CAGE : Fld := ⟨0xF000130004, 16, 6, .ro, 0, .any⟩
def IDBUS_PRES_SLOT : Fld := ⟨0xF000130004, 0, 16, .ro, 0, .any⟩
def IDBUS_EVT_CAGE : Fld := ⟨0xF000130008, 16, 6, .w1c, 0, .any⟩
def IDBUS_EVT_SLOT : Fld := ⟨0xF000130008, 0, 16, .w1c, 0, .any⟩
def IDBUS_EXP_V (i : Nat) : Fld := ⟨0xF000130100 + 0x4 * i, 31, 1, .rw, 0, .any⟩
def IDBUS_EXP_ANY (i : Nat) : Fld := ⟨0xF000130100 + 0x4 * i, 30, 1, .rw, 0, .any⟩
def IDBUS_EXP_KIND (i : Nat) : Fld := ⟨0xF000130100 + 0x4 * i, 0, 16, .rw, 0, .any⟩
def IDBUS_SLOT_KIND (i : Nat) : Fld := ⟨0xF000130140 + 0x4 * i, 16, 16, .ro, 0, .any⟩
def IDBUS_SLOT_FORCE (i : Nat) : Fld := ⟨0xF000130140 + 0x4 * i, 8, 1, .rw, 0, .any⟩
def IDBUS_SLOT_STATE (i : Nat) : Fld := ⟨0xF000130140 + 0x4 * i, 0, 3, .ro, 0, .any⟩
def IDBUS_RECSEL_SLOT : Fld := ⟨0xF000130200, 0, 4, .rw, 0, .any⟩
def IDBUS_SFPCMD_OP : Fld := ⟨0xF000130300, 30, 2, .wo, 0, .any⟩
def IDBUS_SFPCMD_CAGE : Fld := ⟨0xF000130300, 24, 3, .wo, 0, .any⟩
def IDBUS_SFPCMD_DEV : Fld := ⟨0xF000130300, 16, 1, .wo, 0, .any⟩
def IDBUS_SFPCMD_OFS : Fld := ⟨0xF000130300, 8, 8, .wo, 0, .any⟩
def IDBUS_SFPCMD_LEN : Fld := ⟨0xF000130300, 0, 7, .wo, 0, .any⟩
def IDBUS_SFPSTAT_BUSY : Fld := ⟨0xF000130304, 31, 1, .ro, 0, .any⟩
def IDBUS_SFPSTAT_CCOK : Fld := ⟨0xF000130304, 16, 6, .ro, 0, .any⟩
def IDBUS_SFPSTAT_ERR : Fld := ⟨0xF000130304, 0, 4, .ro, 0, .any⟩
def IDBUS_SFPWD_V : Fld := ⟨0xF000130308, 0, 32, .rw, 0, .any⟩
def IDBUS_REC_V (i : Nat) : Fld := ⟨0xF000130400 + 0x4 * i, 0, 32, .ro, 0, .any⟩
def IDBUS_SFPBUF_V (i : Nat) : Fld := ⟨0xF000130500 + 0x4 * i, 0, 32, .ro, 0, .any⟩
/-! ### DTRIP block, spec file 17_backplane_io.md -/
def DTRIP_CTL_BIIE : Fld := ⟨0xF000140000, 9, 1, .rw, 0, .any⟩
def DTRIP_CTL_RBIE : Fld := ⟨0xF000140000, 8, 1, .rw, 0, .any⟩
def DTRIP_ARM_KEY : Fld := ⟨0xF000140004, 8, 8, .wo, 0, .any⟩
def DTRIP_ARM_ARM : Fld := ⟨0xF000140004, 0, 8, (.rwl (0xF000040004 ) 16 0), 0, .any⟩
def DTRIP_STATE_MIS : Fld := ⟨0xF000140008, 16, 8, .ro, 0, .any⟩
def DTRIP_STATE_OUT : Fld := ⟨0xF000140008, 8, 8, .ro, 0, .any⟩
def DTRIP_STATE_LATCH : Fld := ⟨0xF000140008, 0, 8, .ro, 0, .any⟩
def DTRIP_RBERR_B : Fld := ⟨0xF00014000C, 0, 8, .w1c, 0, .any⟩
def DTRIP_TEST_VAL : Fld := ⟨0xF000140010, 8, 8, .wo, 0, .any⟩
def DTRIP_TEST_MASK : Fld := ⟨0xF000140010, 0, 8, .wo, 0, .any⟩
def DTRIP_LAST_SRC (i : Nat) : Fld := ⟨0xF000140020 + 0x4 * i, 31, 1, .ro, 0, .any⟩
def DTRIP_LAST_VAL (i : Nat) : Fld := ⟨0xF000140020 + 0x4 * i, 30, 1, .ro, 0, .any⟩
def DTRIP_LAST_TASK (i : Nat) : Fld := ⟨0xF000140020 + 0x4 * i, 0, 14, .ro, 0, .any⟩
def DTRIP_CONFL_N : Fld := ⟨0xF000140040, 0, 32, .rc, 0, .any⟩
def DTRIP_BICFG_STAMP (i : Nat) : Fld := ⟨0xF000140100 + 0x4 * i, 17, 1, .rw, 0, .any⟩
def DTRIP_BICFG_INV (i : Nat) : Fld := ⟨0xF000140100 + 0x4 * i, 16, 1, .rw, 0, .any⟩
def DTRIP_BICFG_DEB (i : Nat) : Fld := ⟨0xF000140100 + 0x4 * i, 0, 10, .rw, 10, (.oneOf [(0,1000)])⟩
def DTRIP_BISTATE_RAW : Fld := ⟨0xF000140140, 16, 16, .ro, 0, .any⟩
def DTRIP_BISTATE_DEB : Fld := ⟨0xF000140140, 0, 16, .ro, 0, .any⟩
def DTRIP_BIEVT_B : Fld := ⟨0xF000140144, 0, 16, .w1c, 0, .any⟩
def DTRIP_BIPER_P : Fld := ⟨0xF000140148, 0, 16, .rw, 0, .any⟩
def DTRIP_BIDEST_V (i : Nat) : Fld := ⟨0xF000140150 + 0x4 * i, 31, 1, .rw, 0, .any⟩
def DTRIP_BIDEST_CL (i : Nat) : Fld := ⟨0xF000140150 + 0x4 * i, 28, 3, .rw, 0, .any⟩
def DTRIP_BIDEST_LANE (i : Nat) : Fld := ⟨0xF000140150 + 0x4 * i, 24, 3, .rw, 0, .any⟩
def DTRIP_BIDEST_ALL (i : Nat) : Fld := ⟨0xF000140150 + 0x4 * i, 23, 1, .rw, 0, .any⟩
def DTRIP_BIDEST_VMID (i : Nat) : Fld := ⟨0xF000140150 + 0x4 * i, 16, 6, .rw, 0, .any⟩
def DTRIP_BIDEST_OFS (i : Nat) : Fld := ⟨0xF000140150 + 0x4 * i, 0, 16, .rw, 0, .any⟩
def DTRIP_BITSNS_V (i : Nat) : Fld := ⟨0xF000140200 + 0x10 * i, 0, 32, .ro, 0, .any⟩
def DTRIP_BITSLO_V (i : Nat) : Fld := ⟨0xF000140204 + 0x10 * i, 0, 32, .ro, 0, .any⟩
def DTRIP_BITSHI_V (i : Nat) : Fld := ⟨0xF000140208 + 0x10 * i, 0, 32, .ro, 0, .any⟩
def DTRIP_BITSF_TDC (i : Nat) : Fld := ⟨0xF00014020C + 0x10 * i, 31, 1, .ro, 0, .any⟩
def DTRIP_BITSF_RISE (i : Nat) : Fld := ⟨0xF00014020C + 0x10 * i, 0, 1, .ro, 0, .any⟩
def DTRIP_XTDRV_D : Fld := ⟨0xF000140300, 0, 4, .rw, 0, .any⟩
def DTRIP_XTSTATE_DRV : Fld := ⟨0xF000140304, 16, 4, .ro, 0, .any⟩
def DTRIP_XTSTATE_LVL : Fld := ⟨0xF000140304, 0, 4, .ro, 0, .any⟩
def DTRIP_XTPULSE_US : Fld := ⟨0xF000140308, 0, 10, .rw, 100, (.oneOf [(1,1000)])⟩
def DTRIP_XTTSNS_V (i : Nat) : Fld := ⟨0xF000140310 + 0x10 * i, 0, 32, .ro, 0, .any⟩
def DTRIP_XTTSLO_V (i : Nat) : Fld := ⟨0xF000140314 + 0x10 * i, 0, 32, .ro, 0, .any⟩
def DTRIP_XTTSHI_V (i : Nat) : Fld := ⟨0xF000140318 + 0x10 * i, 0, 32, .ro, 0, .any⟩
/-! ### SYS block, spec file 18_startup_maps.md -/
def SYS_ID_PART : Fld := ⟨0xF000000000, 16, 16, .ro, 0x5E08, .any⟩
def SYS_ID_REV : Fld := ⟨0xF000000000, 0, 16, .ro, 0, .any⟩
def SYS_STAT_WDIE : Fld := ⟨0xF000000004, 9, 1, .rw, 0, .any⟩
def SYS_STAT_FIE : Fld := ⟨0xF000000004, 8, 1, .rw, 0, .any⟩
def SYS_STAT_BOOTOK : Fld := ⟨0xF000000004, 1, 1, .ro, 0, .any⟩
def SYS_STAT_PREADY : Fld := ⟨0xF000000004, 0, 1, .ro, 0, .any⟩
def SYS_RSTCAUSE_CAUSE : Fld := ⟨0xF000000008, 0, 5, .ro, 1, .any⟩
def SYS_RSTCNT_N : Fld := ⟨0xF00000000C, 0, 32, .ro, 0, .any⟩
def SYS_VARIANT_VARIANT : Fld := ⟨0xF000000010, 0, 8, .ro, 0, .any⟩
def SYS_UNITS_SFEHI : Fld := ⟨0xF000000014, 6, 1, .ro, 0, .any⟩
def SYS_UNITS_P3 : Fld := ⟨0xF000000014, 5, 1, .ro, 0, .any⟩
def SYS_UNITS_P2 : Fld := ⟨0xF000000014, 4, 1, .ro, 0, .any⟩
def SYS_UNITS_CL3 : Fld := ⟨0xF000000014, 3, 1, .ro, 0, .any⟩
def SYS_UNITS_CL2 : Fld := ⟨0xF000000014, 2, 1, .ro, 0, .any⟩
def SYS_UNITS_LOCKET : Fld := ⟨0xF000000014, 1, 1, .ro, 0, .any⟩
def SYS_UNITS_DIEW : Fld := ⟨0xF000000014, 0, 1, .ro, 0, .any⟩
def SYS_BOOT_SLOT : Fld := ⟨0xF000000018, 31, 1, .ro, 0, .any⟩
def SYS_BOOT_RESB : Fld := ⟨0xF000000018, 8, 8, .ro, 0, .any⟩
def SYS_BOOT_RESA : Fld := ⟨0xF000000018, 0, 8, .ro, 0, .any⟩
def SYS_BOOTPREF_SLOT : Fld := ⟨0xF00000001C, 0, 1, .rw, 0, .any⟩
def SYS_WDOG_EN : Fld := ⟨0xF000000020, 31, 1, .rws, 0, .any⟩
def SYS_WDOG_MS : Fld := ⟨0xF000000020, 0, 16, (.rwl (0xF000000020 ) 31 0), 1000, (.oneOf [(1,60000)])⟩
def SYS_WDKICK_KEY : Fld := ⟨0xF000000024, 0, 16, .wo, 0, .any⟩
def SYS_LANEREL_M : Fld := ⟨0xF000000028, 0, 4, .wo, 0, .any⟩
def SYS_RSTCMD_KEY : Fld := ⟨0xF00000002C, 8, 8, .wo, 0, .any⟩
def SYS_RSTCMD_FORCE : Fld := ⟨0xF00000002C, 1, 1, .wo, 0, .any⟩
def SYS_RSTCMD_WARM : Fld := ⟨0xF00000002C, 0, 1, .wo, 0, .any⟩
def SYS_TREADY_MS : Fld := ⟨0xF000000030, 0, 32, .ro, 0, .any⟩
def SYS_FSYND0_VALID : Fld := ⟨0xF000000040, 31, 1, .w1c, 0, .any⟩
def SYS_FSYND0_RESP : Fld := ⟨0xF000000040, 28, 3, .ro, 0, .any⟩
def SYS_FSYND0_KIND : Fld := ⟨0xF000000040, 24, 4, .ro, 0, .any⟩
def SYS_FSYND0_VC : Fld := ⟨0xF000000040, 22, 2, .ro, 0, .any⟩
def SYS_FSYND0_VMID : Fld := ⟨0xF000000040, 8, 8, .ro, 0, .any⟩
def SYS_FSYND0_REQ : Fld := ⟨0xF000000040, 0, 8, .ro, 0, .any⟩
def SYS_FSYND1_ADDRLO : Fld := ⟨0xF000000044, 0, 32, .ro, 0, .any⟩
def SYS_FSYND2_DOM : Fld := ⟨0xF000000048, 12, 4, .ro, 0, .any⟩
def SYS_FSYND2_CHAN : Fld := ⟨0xF000000048, 8, 4, .ro, 0, .any⟩
def SYS_FSYND2_ADDRHI : Fld := ⟨0xF000000048, 0, 8, .ro, 0, .any⟩
def SYS_FSYND3_NS : Fld := ⟨0xF00000004C, 0, 32, .ro, 0, .any⟩
def SYS_FCNT_ABS : Fld := ⟨0xF000000050, 24, 8, .rc, 0, .any⟩
def SYS_FCNT_UNP : Fld := ⟨0xF000000050, 16, 8, .rc, 0, .any⟩
def SYS_FCNT_DEN : Fld := ⟨0xF000000050, 8, 8, .rc, 0, .any⟩
def SYS_FCNT_TMO : Fld := ⟨0xF000000050, 0, 8, .rc, 0, .any⟩
def SYS_FECC_N : Fld := ⟨0xF000000054, 0, 16, .rc, 0, .any⟩
/-! ### CRC block, spec file 18_startup_maps.md -/
def CRC_SEED_V : Fld := ⟨0xF000110000, 0, 32, .rw, 0xFFFFFFFF, .any⟩
def CRC_DATA_V : Fld := ⟨0xF000110004, 0, 32, .wo, 0, .any⟩
def CRC_RESULT_V : Fld := ⟨0xF000110008, 0, 32, .ro, 0, .any⟩
/-! ### DEBUG block, spec file 18_startup_maps.md -/
def DEBUG_STAT_HALTREQ : Fld := ⟨0xF000170000, 2, 1, .ro, 0, .any⟩
def DEBUG_STAT_CONNECTED : Fld := ⟨0xF000170000, 1, 1, .ro, 0, .any⟩
def DEBUG_STAT_OPEN : Fld := ⟨0xF000170000, 0, 1, .ro, 0, .any⟩

/-- Registers of the TB block, part 0. -/
def regsTB0 : List RegSpec :=
  [⟨0xF000090000, 1, 0x4, fun _ => [TB_CTL_REFIE, TB_CTL_TSQIE, TB_CTL_STEPIE, TB_CTL_INVAL, TB_CTL_SET]⟩,
   ⟨0xF000090004, 1, 0x4, fun _ => [TB_STAT_OCXOWARM, TB_STAT_REFLOSTL, TB_STAT_REFLOST, TB_STAT_TSQOVF, TB_STAT_STEPREF, TB_STAT_VALID]⟩,
   ⟨0xF000090008, 1, 0x4, fun _ => [TB_INCR_INCR]⟩,
   ⟨0xF00009000C, 1, 0x4, fun _ => [TB_STEPMAX_MAX]⟩,
   ⟨0xF000090010, 1, 0x4, fun _ => [TB_STEP_LO_STEP]⟩,
   ⟨0xF000090014, 1, 0x4, fun _ => [TB_STEP_HI_STEP]⟩,
   ⟨0xF000090018, 1, 0x4, fun _ => [TB_SET_NS_V]⟩,
   ⟨0xF00009001C, 1, 0x4, fun _ => [TB_SET_SECLO_V]⟩,
   ⟨0xF000090020, 1, 0x4, fun _ => [TB_SET_SECHI_V]⟩,
   ⟨0xF000090024, 1, 0x4, fun _ => [TB_NOW_NS_V]⟩,
   ⟨0xF000090028, 1, 0x4, fun _ => [TB_NOW_SECLO_V]⟩,
   ⟨0xF00009002C, 1, 0x4, fun _ => [TB_NOW_SECHI_V]⟩,
   ⟨0xF000090030, 1, 0x4, fun _ => [TB_LOCK_LOCK]⟩,
   ⟨0xF000090034, 1, 0x4, fun _ => [TB_PTPCTL_ONESTEP, TB_PTPCTL_ROLE]⟩,
   ⟨0xF000090038, 1, 0x4, fun _ => [TB_PTPPORTS_EN]⟩,
   ⟨0xF00009003C, 1, 0x4, fun _ => [TB_CNT_PTPUNS, TB_CNT_STEPREF]⟩,
   ⟨0xF000090040, 1, 0x4, fun _ => [TB_TSQ_STAT_DROPS, TB_TSQ_STAT_LEVEL]⟩,
   ⟨0xF000090044, 1, 0x4, fun _ => [TB_TSQ0_V]⟩,
   ⟨0xF000090048, 1, 0x4, fun _ => [TB_TSQ1_V]⟩,
   ⟨0xF00009004C, 1, 0x4, fun _ => [TB_TSQ2_V]⟩,
   ⟨0xF000090050, 1, 0x4, fun _ => [TB_TSQ3_VALID, TB_TSQ3_PORT, TB_TSQ3_MSGTYPE, TB_TSQ3_SEQ]⟩,
   ⟨0xF000090100, 13, 0x20, fun i => [TB_RXLAT_LAT i]⟩,
   ⟨0xF000090104, 13, 0x20, fun i => [TB_TXLAT_LAT i]⟩,
   ⟨0xF000090108, 13, 0x20, fun i => [TB_ASYM_ASYM i]⟩,
   ⟨0xF00009010C, 13, 0x20, fun i => [TB_PDELAY_PD i]⟩,
   ⟨0xF000090110, 13, 0x20, fun i => [TB_LCNT_MISS i, TB_LCNT_SLIP i]⟩,
   ⟨0xF000090400, 8, 0x20, fun i => [TB_TDCCTL_OWNER i, TB_TDCCTL_EDGE i, TB_TDCCTL_SRC i]⟩,
   ⟨0xF000090404, 8, 0x20, fun i => [TB_TDCDLY_DLY i]⟩,
   ⟨0xF000090408, 8, 0x20, fun i => [TB_TDCSTAT_RISE i, TB_TDCSTAT_DROPS i, TB_TDCSTAT_LEVEL i]⟩,
   ⟨0xF00009040C, 8, 0x20, fun i => [TB_TDCNS_V i]⟩,
   ⟨0xF000090410, 8, 0x20, fun i => [TB_TDCSECLO_V i]⟩,
   ⟨0xF000090414, 8, 0x20, fun i => [TB_TDCSECHI_V i]⟩]
/-- Every register of the TB block. -/
def regsTB : List RegSpec := regsTB0

/-- Registers of the BEZEL block, part 0. -/
def regsBEZEL0 : List RegSpec :=
  [⟨0xF000030000, 1, 0x4, fun _ => [BEZEL_CTL_RATEIE, BEZEL_CTL_HOTIE, BEZEL_CTL_SLACKIE]⟩,
   ⟨0xF000030004, 1, 0x4, fun _ => [BEZEL_STAT_HOTL, BEZEL_STAT_HOT, BEZEL_STAT_SLACKUP, BEZEL_STAT_RATEREF, BEZEL_STAT_SLEW, BEZEL_STAT_OPPEND, BEZEL_STAT_OPCUR, BEZEL_STAT_SRC]⟩,
   ⟨0xF000030008, 1, 0x4, fun _ => [BEZEL_BEAT_RATE]⟩,
   ⟨0xF00003000C, 1, 0x4, fun _ => [BEZEL_OPTGT_OP]⟩,
   ⟨0xF000030010, 1, 0x4, fun _ => [BEZEL_FLOOR_FLOOR]⟩,
   ⟨0xF000030014, 1, 0x4, fun _ => [BEZEL_CNT_SLACKUP, BEZEL_CNT_RATEREF]⟩,
   ⟨0xF000030020, 5, 0x4, fun i => [BEZEL_SLACK_LANE i, BEZEL_SLACK_NOW i, BEZEL_SLACK_MIN i]⟩]
/-- Every register of the BEZEL block. -/
def regsBEZEL : List RegSpec := regsBEZEL0

/-- Registers of the SCHED block, part 0. -/
def regsSCHED0 : List RegSpec :=
  [⟨0xF000040000, 1, 0x4, fun _ => [SCHED_CTL_OVRIE, SCHED_CTL_COLLIE, SCHED_CTL_REVOKE, SCHED_CTL_ADMIT]⟩,
   ⟨0xF000040004, 1, 0x4, fun _ => [SCHED_STAT_ADM, SCHED_STAT_LANE, SCHED_STAT_CL, SCHED_STAT_ERR]⟩,
   ⟨0xF000040008, 1, 0x4, fun _ => [SCHED_BSTATE_S4, SCHED_BSTATE_S3, SCHED_BSTATE_S2, SCHED_BSTATE_S1, SCHED_BSTATE_S0]⟩,
   ⟨0xF00004000C, 1, 0x4, fun _ => [SCHED_QUANTUM_Q]⟩,
   ⟨0xF000040100, 5, 0x40, fun i => [SCHED_STBASE_OFS i]⟩,
   ⟨0xF000040104, 5, 0x40, fun i => [SCHED_REL_REL i]⟩,
   ⟨0xF000040108, 5, 0x40, fun i => [SCHED_COLL_COLL i, SCHED_COLL_OVR i]⟩,
   ⟨0xF00004010C, 5, 0x40, fun i => [SCHED_LAST_KIND i, SCHED_LAST_LANE i, SCHED_LAST_SRC i, SCHED_LAST_ENTRY i]⟩]
/-- Every register of the SCHED block. -/
def regsSCHED : List RegSpec := regsSCHED0

/-- Registers of the FAB block, part 0. -/
def regsFAB0 : List RegSpec :=
  [⟨0xF000050000, 1, 0x4, fun _ => [FAB_VC3LIM_LIM]⟩,
   ⟨0xF000050004, 1, 0x4, fun _ => [FAB_SUPW_W]⟩,
   ⟨0xF000050008, 1, 0x4, fun _ => [FAB_VC0STAT_SRC, FAB_VC0STAT_EXCL]⟩,
   ⟨0xF00005000C, 1, 0x4, fun _ => [FAB_VC0EXC_N]⟩,
   ⟨0xF000050020, 8, 0x4, fun i => [FAB_VC0RES_UNITS i]⟩]
/-- Every register of the FAB block. -/
def regsFAB : List RegSpec := regsFAB0

/-- Registers of the VPI block, part 0. -/
def regsVPI0 : List RegSpec :=
  [⟨0xF000158000, 1, 0x4, fun _ => [VPI_TXCMD_CMD]⟩,
   ⟨0xF000158004, 1, 0x4, fun _ => [VPI_TXARG_GEN, VPI_TXARG_TASK]⟩,
   ⟨0xF000158008, 1, 0x4, fun _ => [VPI_TXBLK_CL, VPI_TXBLK_OFS]⟩,
   ⟨0xF00015800C, 1, 0x4, fun _ => [VPI_TXSTAT_BUSY, VPI_TXSTAT_PEND, VPI_TXSTAT_DONE, VPI_TXSTAT_SEALED, VPI_TXSTAT_IE, VPI_TXSTAT_ERR]⟩,
   ⟨0xF000158010, 1, 0x4, fun _ => [VPI_TXTIME_X]⟩,
   ⟨0xF000158020, 1, 0x4, fun _ => [VPI_TSEL_TASK]⟩,
   ⟨0xF000158024, 1, 0x4, fun _ => [VPI_TRUN_GEN, VPI_TRUN_CFLT, VPI_TRUN_STATE]⟩,
   ⟨0xF000158028, 1, 0x4, fun _ => [VPI_TCNT_SKIP, VPI_TCNT_DMISS]⟩,
   ⟨0xF00015802C, 1, 0x4, fun _ => [VPI_TFLT_OVR, VPI_TFLT_ABT]⟩,
   ⟨0xF000150000, 1, 0x4, fun _ => [VPI_CTL_RSTIE, VPI_CTL_CMDIE]⟩,
   ⟨0xF000150004, 1, 0x4, fun _ => [VPI_STAT_SHPEND, VPI_STAT_RSTDONE, VPI_STAT_FRZDONE]⟩,
   ⟨0xF000150008, 1, 0x4, fun _ => [VPI_STSRC_ADDR]⟩,
   ⟨0xF00015000C, 1, 0x4, fun _ => [VPI_CMD_OP, VPI_CMD_INDEX]⟩,
   ⟨0xF000150010, 1, 0x4, fun _ => [VPI_CMDSTAT_BUSY, VPI_CMDSTAT_ERR]⟩,
   ⟨0xF000150014, 1, 0x4, fun _ => [VPI_VSEL_VMID]⟩,
   ⟨0xF000150018, 1, 0x4, fun _ => [VPI_VSTATE_STATE, VPI_VSTATE_IGEN]⟩,
   ⟨0xF00015001C, 1, 0x4, fun _ => [VPI_UTCOFS_TQ, VPI_UTCOFS_S]⟩,
   ⟨0xF000150020, 1, 0x4, fun _ => [VPI_DTGRANT0_V3, VPI_DTGRANT0_VMID3, VPI_DTGRANT0_V2, VPI_DTGRANT0_VMID2, VPI_DTGRANT0_V1, VPI_DTGRANT0_VMID1, VPI_DTGRANT0_V0, VPI_DTGRANT0_VMID0]⟩,
   ⟨0xF000150024, 1, 0x4, fun _ => [VPI_DTGRANT1_V3, VPI_DTGRANT1_VMID3, VPI_DTGRANT1_V2, VPI_DTGRANT1_VMID2, VPI_DTGRANT1_V1, VPI_DTGRANT1_VMID1, VPI_DTGRANT1_V0, VPI_DTGRANT1_VMID0]⟩,
   ⟨0xF000150028, 1, 0x4, fun _ => [VPI_PUBSEL_IDX]⟩,
   ⟨0xF00015002C, 1, 0x4, fun _ => [VPI_PUBST_ST]⟩,
   ⟨0xF000150030, 1, 0x4, fun _ => [VPI_PUBSQ_SQ]⟩,
   ⟨0xF000150040, 1, 0x4, fun _ => [VPI_GPARSE_N]⟩,
   ⟨0xF000150044, 1, 0x4, fun _ => [VPI_GCONF_N]⟩,
   ⟨0xF000150048, 1, 0x4, fun _ => [VPI_GLEN_N]⟩,
   ⟨0xF00015004C, 1, 0x4, fun _ => [VPI_PUBLEN_N]⟩]
/-- Every register of the VPI block. -/
def regsVPI : List RegSpec := regsVPI0

/-- Registers of the NETSW block, part 0. -/
def regsNETSW0 : List RegSpec :=
  [⟨0xF0000A0000, 1, 0x4, fun _ => [NETSW_CTL_RPIE, NETSW_CTL_AUDIE, NETSW_CTL_CNTIE, NETSW_CTL_AUDEN, NETSW_CTL_EN]⟩,
   ⟨0xF0000A0004, 1, 0x4, fun _ => [NETSW_STAT_AUDLEAK, NETSW_STAT_CNTHALF, NETSW_STAT_READY]⟩,
   ⟨0xF0000A0008, 1, 0x4, fun _ => [NETSW_STBASE_ADDR]⟩,
   ⟨0xF0000A000C, 1, 0x4, fun _ => [NETSW_STSRC_ADDR]⟩,
   ⟨0xF0000A0010, 1, 0x4, fun _ => [NETSW_STCMD_OP, NETSW_STCMD_INDEX]⟩,
   ⟨0xF0000A0014, 1, 0x4, fun _ => [NETSW_STSTAT_BUSY, NETSW_STSTAT_LOCKED, NETSW_STSTAT_ERR]⟩,
   ⟨0xF0000A0018, 1, 0x4, fun _ => [NETSW_CELLS_FREE]⟩,
   ⟨0xF0000A001C, 1, 0x4, fun _ => [NETSW_C0POOL_CELLS]⟩,
   ⟨0xF0000A0020, 1, 0x4, fun _ => [NETSW_C0USE_HWM, NETSW_C0USE_USE]⟩,
   ⟨0xF0000A0024, 1, 0x4, fun _ => [NETSW_SUPLIM_CELLS]⟩,
   ⟨0xF0000A0028, 1, 0x4, fun _ => [NETSW_MAXRES_MS]⟩,
   ⟨0xF0000A002C, 1, 0x4, fun _ => [NETSW_RESAGE_T]⟩,
   ⟨0xF0000A0030, 1, 0x4, fun _ => [NETSW_RPWIN_W]⟩,
   ⟨0xF0000A0034, 1, 0x4, fun _ => [NETSW_RPSTAT_SHORT, NETSW_RPSTAT_BUSY, NETSW_RPSTAT_USE]⟩,
   ⟨0xF0000A0038, 1, 0x4, fun _ => [NETSW_RPCMD_GO, NETSW_RPCMD_CL]⟩,
   ⟨0xF0000A003C, 1, 0x4, fun _ => [NETSW_RPT_NS_V]⟩,
   ⟨0xF0000A0040, 1, 0x4, fun _ => [NETSW_RPT_SECLO_V]⟩,
   ⟨0xF0000A0044, 1, 0x4, fun _ => [NETSW_RPT_SECHI_V]⟩,
   ⟨0xF0000A0048, 1, 0x4, fun _ => [NETSW_AUDPER_MS]⟩,
   ⟨0xF0000A004C, 1, 0x4, fun _ => [NETSW_AUDCNT_N]⟩,
   ⟨0xF0000A0050, 1, 0x4, fun _ => [NETSW_STMISS_N]⟩,
   ⟨0xF0000A0054, 1, 0x4, fun _ => [NETSW_IDROP_I0, NETSW_IDROP_I1]⟩,
   ⟨0xF0000A0058, 1, 0x4, fun _ => [NETSW_VLANIDX_VID]⟩,
   ⟨0xF0000A005C, 1, 0x4, fun _ => [NETSW_VLANDATA_UNTAG, NETSW_VLANDATA_MEMBER]⟩,
   ⟨0xF0000A0060, 1, 0x4, fun _ => [NETSW_CNTHALF_BITS]⟩,
   ⟨0xF0000A0064, 1, 0x4, fun _ => [NETSW_C37PORT_P1, NETSW_C37PORT_P0]⟩,
   ⟨0xF0000A0080, 4, 0x10, fun i => [NETSW_MIRCTL_EN i, NETSW_MIRCTL_DIR i, NETSW_MIRCTL_TRUNC i, NETSW_MIRCTL_SRC i]⟩,
   ⟨0xF0000A0084, 4, 0x10, fun i => [NETSW_MIRSID_EN i, NETSW_MIRSID_N i, NETSW_MIRSID_INDEX i]⟩,
   ⟨0xF0000A0088, 4, 0x10, fun i => [NETSW_MIRCNT_N i]⟩,
   ⟨0xF0000A008C, 4, 0x10, fun i => [NETSW_MIRDROP_N i]⟩,
   ⟨0xF0000A1000, 66, 0x20, fun i => [RXRING_BASE_ADDR i]⟩,
   ⟨0xF0000A1004, 66, 0x20, fun i => [RXRING_CFG_IE i, RXRING_CFG_EN i, RXRING_CFG_SLOT i, RXRING_CFG_SIZE i]⟩,
   ⟨0xF0000A1008, 66, 0x20, fun i => [RXRING_HEAD_IDX i]⟩,
   ⟨0xF0000A100C, 66, 0x20, fun i => [RXRING_TAIL_IDX i]⟩,
   ⟨0xF0000A1010, 66, 0x20, fun i => [RXRING_ERR_N i]⟩,
   ⟨0xF0000A2000, 65, 0x20, fun i => [TXRING_BASE_ADDR i]⟩,
   ⟨0xF0000A2004, 65, 0x20, fun i => [TXRING_CFG_EN i, TXRING_CFG_SLOT i, TXRING_CFG_SIZE i]⟩,
   ⟨0xF0000A2008, 65, 0x20, fun i => [TXRING_HEAD_IDX i]⟩,
   ⟨0xF0000A200C, 65, 0x20, fun i => [TXRING_TAIL_IDX i]⟩,
   ⟨0xF0000A2010, 65, 0x20, fun i => [TXRING_ERR_N i]⟩]
/-- Every register of the NETSW block. -/
def regsNETSW : List RegSpec := regsNETSW0

/-- Registers of the PORT block, part 0. -/
def regsPORT0 : List RegSpec :=
  [⟨0xF0000B0000, 13, 0x1000, fun i => [PORT_CTL_SGSPD i, PORT_CTL_PARTNER i, PORT_CTL_RED i, PORT_CTL_MISS i, PORT_CTL_EN i]⟩,
   ⟨0xF0000B0004, 13, 0x1000, fun i => [PORT_STAT_REDERR i, PORT_STAT_PCSLOCK i, PORT_STAT_SIGLOS i, PORT_STAT_LINK i]⟩,
   ⟨0xF0000B0008, 13, 0x1000, fun i => [PORT_MAXLEN_LEN i]⟩,
   ⟨0xF0000B000C, 13, 0x1000, fun i => [PORT_VLAN_ACCEPT i, PORT_VLAN_PCP i, PORT_VLAN_PVID i]⟩,
   ⟨0xF0000B0010, 13, 0x1000, fun i => [PORT_PCPMAP_MAP i]⟩,
   ⟨0xF0000BC014, 1, 0x4, fun _ => [PORT_T1S_TO, PORT_T1S_NCNT, PORT_T1S_NODEID, PORT_T1S_PLCAEN]⟩,
   ⟨0xF0000BC018, 1, 0x4, fun _ => [PORT_T1S2_BTMR, PORT_T1S2_BCNT]⟩,
   ⟨0xF0000B0020, 13, 0x1000, fun i => [PORT_RXOCT_LO_N i]⟩,
   ⟨0xF0000B0024, 13, 0x1000, fun i => [PORT_RXOCT_HI_N i]⟩,
   ⟨0xF0000B0028, 13, 0x1000, fun i => [PORT_TXOCT_LO_N i]⟩,
   ⟨0xF0000B002C, 13, 0x1000, fun i => [PORT_TXOCT_HI_N i]⟩,
   ⟨0xF0000B0030, 13, 0x1000, fun i => [PORT_RXFRM_N i]⟩,
   ⟨0xF0000B0034, 13, 0x1000, fun i => [PORT_TXFRM_N i]⟩,
   ⟨0xF0000B0038, 13, 0x1000, fun i => [PORT_FCSERR_N i]⟩,
   ⟨0xF0000B003C, 13, 0x1000, fun i => [PORT_RUNT_N i]⟩,
   ⟨0xF0000B0040, 13, 0x1000, fun i => [PORT_LONG_N i]⟩,
   ⟨0xF0000B0044, 13, 0x1000, fun i => [PORT_SYMERR_N i]⟩,
   ⟨0xF0000B0048, 13, 0x1000, fun i => [PORT_MACCTL_N i]⟩,
   ⟨0xF0000B004C, 13, 0x1000, fun i => [PORT_VLANDROP_N i]⟩,
   ⟨0xF0000B0050, 13, 0x1000, fun i => [PORT_AUTHFAIL_N i]⟩,
   ⟨0xF0000B0054, 13, 0x1000, fun i => [PORT_POLICE_N i]⟩,
   ⟨0xF0000B0058, 13, 0x1000, fun i => [PORT_NOBUF_N i]⟩,
   ⟨0xF0000B005C, 13, 0x1000, fun i => [PORT_C0DROP_N i]⟩,
   ⟨0xF0000B0060, 13, 0x1000, fun i => [PORT_MISSDROP_N i]⟩,
   ⟨0xF0000B0064, 13, 0x1000, fun i => [PORT_RESDROP_N i]⟩,
   ⟨0xF0000B0068, 13, 0x1000, fun i => [PORT_AGEDROP_N i]⟩,
   ⟨0xF0000B006C, 13, 0x1000, fun i => [PORT_DUPDISC_N i]⟩,
   ⟨0xF0000B0070, 13, 0x1000, fun i => [PORT_WRONGLAN_N i]⟩,
   ⟨0xF0000B0074, 13, 0x1000, fun i => [PORT_COLL_N i]⟩,
   ⟨0xF0000B0078, 13, 0x1000, fun i => [PORT_XCOLL_N i]⟩,
   ⟨0xF0000B007C, 13, 0x1000, fun i => [PORT_LATECOLL_N i]⟩,
   ⟨0xF0000B0080, 13, 0x1000, fun i => [PORT_CNTHALF_BITS i]⟩]
/-- Every register of the PORT block. -/
def regsPORT : List RegSpec := regsPORT0

/-- Registers of the SFE block, part 0. -/
def regsSFE0 : List RegSpec :=
  [⟨0xF0000C0000, 1, 0x4, fun _ => [SFE_CTL_CNTIE, SFE_CTL_PHRIE, SFE_CTL_LOSSIE, SFE_CTL_EN]⟩,
   ⟨0xF0000C0004, 1, 0x4, fun _ => [SFE_STAT_REPLAY, SFE_STAT_GLOST]⟩,
   ⟨0xF0000C0008, 1, 0x4, fun _ => [SFE_STSRC_ADDR]⟩,
   ⟨0xF0000C000C, 1, 0x4, fun _ => [SFE_CMD_TABLE, SFE_CMD_OP, SFE_CMD_INDEX]⟩,
   ⟨0xF0000C0010, 1, 0x4, fun _ => [SFE_CMDSTAT_BUSY, SFE_CMDSTAT_ERR]⟩,
   ⟨0xF0000C0014, 1, 0x4, fun _ => [SFE_TOTLOAD_K]⟩,
   ⟨0xF0000C0018, 1, 0x4, fun _ => [SFE_GDSEL_SLOT]⟩,
   ⟨0xF0000C001C, 1, 0x4, fun _ => [SFE_GD_GD]⟩,
   ⟨0xF0000C0020, 1, 0x4, fun _ => [SFE_DETSEL_SLOT]⟩,
   ⟨0xF0000C0024, 1, 0x4, fun _ => [SFE_DETVAL_R]⟩,
   ⟨0xF0000C0030, 1, 0x4, fun _ => [SFE_PHRBASE_ADDR]⟩,
   ⟨0xF0000C0034, 1, 0x4, fun _ => [SFE_PHRCFG_EN, SFE_PHRCFG_SIZE]⟩,
   ⟨0xF0000C0038, 1, 0x4, fun _ => [SFE_PHRHEAD_IDX]⟩,
   ⟨0xF0000C003C, 1, 0x4, fun _ => [SFE_PHRTAIL_IDX]⟩,
   ⟨0xF0000C0040, 1, 0x4, fun _ => [SFE_PHRERR_N]⟩,
   ⟨0xF0000C0050, 1, 0x4, fun _ => [SFE_NOINPUT_N]⟩,
   ⟨0xF0000C0054, 1, 0x4, fun _ => [SFE_DECERR_N]⟩,
   ⟨0xF0000C0058, 1, 0x4, fun _ => [SFE_CONF_N]⟩,
   ⟨0xF0000C005C, 1, 0x4, fun _ => [SFE_SIMDROP_N]⟩,
   ⟨0xF0000C0060, 1, 0x4, fun _ => [SFE_LATE_N]⟩,
   ⟨0xF0000C0064, 1, 0x4, fun _ => [SFE_DUP_N]⟩,
   ⟨0xF0000C0068, 1, 0x4, fun _ => [SFE_SUBST_N]⟩,
   ⟨0xF0000C006C, 1, 0x4, fun _ => [SFE_NOSYNC_N]⟩,
   ⟨0xF0000C0070, 1, 0x4, fun _ => [SFE_SETOVF_N]⟩,
   ⟨0xF0000C007C, 1, 0x4, fun _ => [SFE_CNTHALF_BITS]⟩,
   ⟨0xF0000C0100, 64, 0x4, fun i => [SFE_GLOST_BITS i]⟩,
   ⟨0xF0000C0200, 16, 0x4, fun i => [SFE_SLOAD_K i]⟩]
/-- Every register of the SFE block. -/
def regsSFE : List RegSpec := regsSFE0

/-- Registers of the WAMS block, part 0. -/
def regsWAMS0 : List RegSpec :=
  [⟨0xF0000D0000, 1, 0x4, fun _ => [WAMS_CTL_KIE, WAMS_CTL_CNTIE, WAMS_CTL_CFGIE, WAMS_CTL_ALMIE, WAMS_CTL_CLOSEIE, WAMS_CTL_ALMEN, WAMS_CTL_LATEFILL, WAMS_CTL_EN]⟩,
   ⟨0xF0000D0004, 1, 0x4, fun _ => [WAMS_STAT_OPEN, WAMS_STAT_CNTHALF, WAMS_STAT_KFLT, WAMS_STAT_ALMOVF, WAMS_STAT_CFGCHG, WAMS_STAT_FORCED, WAMS_STAT_CLOSED]⟩,
   ⟨0xF0000D0008, 1, 0x4, fun _ => [WAMS_GRID_TOL, WAMS_GRID_LEAD, WAMS_GRID_FS]⟩,
   ⟨0xF0000D000C, 1, 0x4, fun _ => [WAMS_WIN_MS]⟩,
   ⟨0xF0000D0010, 1, 0x4, fun _ => [WAMS_UTCOFS_S]⟩,
   ⟨0xF0000D0014, 1, 0x4, fun _ => [WAMS_SIGBASE_ADDR]⟩,
   ⟨0xF0000D0018, 1, 0x4, fun _ => [WAMS_ASBASE_ADDR]⟩,
   ⟨0xF0000D001C, 1, 0x4, fun _ => [WAMS_ASCFG_NSIG]⟩,
   ⟨0xF0000D0020, 1, 0x4, fun _ => [WAMS_RESBASE_ADDR]⟩,
   ⟨0xF0000D0024, 1, 0x4, fun _ => [WAMS_STSRC_ADDR]⟩,
   ⟨0xF0000D0028, 1, 0x4, fun _ => [WAMS_CMD_OP, WAMS_CMD_TABLE, WAMS_CMD_INDEX]⟩,
   ⟨0xF0000D002C, 1, 0x4, fun _ => [WAMS_CMDSTAT_BUSY, WAMS_CMDSTAT_ERR]⟩,
   ⟨0xF0000D0030, 1, 0x4, fun _ => [WAMS_LASTSEQ_SEQ]⟩,
   ⟨0xF0000D0034, 1, 0x4, fun _ => [WAMS_LASTSLOT_CAUSE, WAMS_LASTSLOT_SLOT]⟩,
   ⟨0xF0000D0040, 1, 0x4, fun _ => [WAMS_ALMCTL_HB, WAMS_ALMCTL_TC, WAMS_ALMCTL_SRCID]⟩,
   ⟨0xF0000D0044, 1, 0x4, fun _ => [WAMS_ALMPORTS_PORTS]⟩,
   ⟨0xF0000D0048, 1, 0x4, fun _ => [WAMS_ALMTPL_ADDR]⟩,
   ⟨0xF0000D004C, 1, 0x4, fun _ => [WAMS_ALMSEQ_SEQ]⟩,
   ⟨0xF0000D0050, 3, 0x10, fun i => [WAMS_RBASE_ADDR i]⟩,
   ⟨0xF0000D0054, 3, 0x10, fun i => [WAMS_RCFG_EN i, WAMS_RCFG_SIZE i]⟩,
   ⟨0xF0000D0058, 3, 0x10, fun i => [WAMS_RHEAD_IDX i]⟩,
   ⟨0xF0000D005C, 3, 0x10, fun i => [WAMS_RTAIL_IDX i]⟩,
   ⟨0xF0000D0080, 1, 0x4, fun _ => [WAMS_KSTAT_RUN, WAMS_KSTAT_LIVE]⟩,
   ⟨0xF0000D0084, 1, 0x4, fun _ => [WAMS_KFLT_VALID, WAMS_KFLT_KIND, WAMS_KFLT_LANE, WAMS_KFLT_CAUSE]⟩,
   ⟨0xF0000D0088, 1, 0x4, fun _ => [WAMS_KFTICK_T]⟩,
   ⟨0xF0000D008C, 1, 0x4, fun _ => [WAMS_KCANCEL_T]⟩,
   ⟨0xF0000D00BC, 1, 0x4, fun _ => [WAMS_CNTHALF_BITS]⟩,
   ⟨0xF0000D00C0, 16, 0x4, fun i => [WAMS_CNT_N i]⟩,
   ⟨0xF0000D0400, 512, 0x4, fun i => [WAMS_CFGCHG_BITS i]⟩]
/-- Every register of the WAMS block. -/
def regsWAMS : List RegSpec := regsWAMS0

/-- Registers of the CLASP block, part 0. -/
def regsCLASP0 : List RegSpec :=
  [⟨0xF0000E0000, 1, 0x4, fun _ => [CLASP_CTL_MAXHOP, CLASP_CTL_TTIE, CLASP_CTL_TTEN, CLASP_CTL_EN]⟩,
   ⟨0xF0000E0004, 1, 0x4, fun _ => [CLASP_STAT_LDLYERR, CLASP_STAT_TTNEW, CLASP_STAT_DUPDEV]⟩,
   ⟨0xF0000E0008, 1, 0x4, fun _ => [CLASP_DEV_SINK, CLASP_DEV_NUM]⟩,
   ⟨0xF0000E000C, 1, 0x4, fun _ => [CLASP_TM_PER, CLASP_TM_TMASTER]⟩,
   ⟨0xF0000E0010, 1, 0x4, fun _ => [CLASP_MAXAGE_US]⟩,
   ⟨0xF0000E0014, 1, 0x4, fun _ => [CLASP_ETYPE_ET]⟩,
   ⟨0xF0000E0018, 1, 0x4, fun _ => [CLASP_ECHO_PER]⟩,
   ⟨0xF0000E001C, 1, 0x4, fun _ => [CLASP_RTIDX_DEV]⟩,
   ⟨0xF0000E0020, 1, 0x4, fun _ => [CLASP_RTDATA_MASK]⟩,
   ⟨0xF0000E0024, 3, 0x4, fun i => [CLASP_TTM_V i]⟩,
   ⟨0xF0000E0030, 3, 0x4, fun i => [CLASP_TTRX_V i]⟩,
   ⟨0xF0000E0040, 1, 0x4, fun _ => [CLASP_OWN_N]⟩,
   ⟨0xF0000E0044, 1, 0x4, fun _ => [CLASP_AGEDROP_N]⟩,
   ⟨0xF0000E0048, 1, 0x4, fun _ => [CLASP_HOPLATE_N]⟩,
   ⟨0xF0000E004C, 1, 0x4, fun _ => [CLASP_HOPDROP_N]⟩,
   ⟨0xF0000E0050, 1, 0x4, fun _ => [CLASP_NOROUTE_N]⟩,
   ⟨0xF0000E0054, 1, 0x4, fun _ => [CLASP_TOOBIG_N]⟩,
   ⟨0xF0000E0058, 1, 0x4, fun _ => [CLASP_NONCLASP_N]⟩,
   ⟨0xF0000E005C, 1, 0x4, fun _ => [CLASP_DUPDISC_N]⟩,
   ⟨0xF0000E0060, 1, 0x4, fun _ => [CLASP_DUPRISK_N]⟩,
   ⟨0xF0000E0100, 4, 0x20, fun i => [CLASP_PCTL_ROLE i]⟩,
   ⟨0xF0000E0104, 4, 0x20, fun i => [CLASP_LDLY_D i]⟩,
   ⟨0xF0000E0108, 4, 0x20, fun i => [CLASP_ASYM_A i]⟩,
   ⟨0xF0000E010C, 4, 0x20, fun i => [CLASP_NBR_V i, CLASP_NBR_DEV i]⟩]
/-- Every register of the CLASP block. -/
def regsCLASP : List RegSpec := regsCLASP0

/-- Registers of the FAILOVER block, part 0. -/
def regsFAILOVER0 : List RegSpec :=
  [⟨0xF000060000, 1, 0x4, fun _ => [FAILOVER_CTL_DONEIE, FAILOVER_CTL_LOSTIE, FAILOVER_CTL_EN]⟩,
   ⟨0xF000060004, 1, 0x4, fun _ => [FAILOVER_STAT_BUSY, FAILOVER_STAT_PHASE, FAILOVER_STAT_CL, FAILOVER_STAT_RSFAIL, FAILOVER_STAT_DRILL, FAILOVER_STAT_GAP, FAILOVER_STAT_LOST, FAILOVER_STAT_DONE, FAILOVER_STAT_SPARE]⟩,
   ⟨0xF000060008, 1, 0x4, fun _ => [FAILOVER_CMD_OP, FAILOVER_CMD_CL]⟩,
   ⟨0xF00006000C, 1, 0x4, fun _ => [FAILOVER_POL_OVR, FAILOVER_POL_CECC]⟩,
   ⟨0xF000060010, 1, 0x4, fun _ => [FAILOVER_PRE_US]⟩,
   ⟨0xF000060014, 1, 0x4, fun _ => [FAILOVER_ROLE_SPARE, FAILOVER_ROLE_R3, FAILOVER_ROLE_R2, FAILOVER_ROLE_R1, FAILOVER_ROLE_R0]⟩,
   ⟨0xF000060018, 1, 0x4, fun _ => [FAILOVER_SYND_VALID, FAILOVER_SYND_CL, FAILOVER_SYND_GROUP, FAILOVER_SYND_LANE, FAILOVER_SYND_INFO, FAILOVER_SYND_CHECK]⟩,
   ⟨0xF00006001C, 1, 0x4, fun _ => [FAILOVER_TPWR_T]⟩,
   ⟨0xF000060020, 1, 0x4, fun _ => [FAILOVER_TRST_T]⟩,
   ⟨0xF000060024, 1, 0x4, fun _ => [FAILOVER_TREP_T]⟩,
   ⟨0xF000060028, 1, 0x4, fun _ => [FAILOVER_TTOT_T]⟩,
   ⟨0xF00006002C, 1, 0x4, fun _ => [FAILOVER_CNT_TAKE, FAILOVER_CNT_DRILLS]⟩,
   ⟨0xF000060030, 2, 0x4, fun i => [FAILOVER_LOST_BITS i]⟩,
   ⟨0xF000060040, 5, 0x4, fun i => [FAILOVER_CECC_N i]⟩]
/-- Every register of the FAILOVER block. -/
def regsFAILOVER : List RegSpec := regsFAILOVER0

/-- Registers of the PWR block, part 0. -/
def regsPWR0 : List RegSpec :=
  [⟨0xF000010000, 1, 0x4, fun _ => [PWR_CTL_SFWSHED, PWR_CTL_OWNIE, PWR_CTL_RETIE, PWR_CTL_THIE, PWR_CTL_SFWIE]⟩,
   ⟨0xF000010004, 1, 0x4, fun _ => [PWR_STAT_OWNREF, PWR_STAT_TOVER, PWR_STAT_THOT, PWR_STAT_SFWL, PWR_STAT_SFW, PWR_STAT_HOLDUP, PWR_STAT_INB, PWR_STAT_INA]⟩,
   ⟨0xF000010008, 1, 0x4, fun _ => [PWR_DCMD_STATE, PWR_DCMD_DOM]⟩,
   ⟨0xF00001000C, 1, 0x4, fun _ => [PWR_DCMDSTAT_BUSY, PWR_DCMDSTAT_ERR]⟩,
   ⟨0xF000010010, 1, 0x4, fun _ => [PWR_DSTATE_D9, PWR_DSTATE_D8, PWR_DSTATE_D7, PWR_DSTATE_D6, PWR_DSTATE_D5, PWR_DSTATE_D4, PWR_DSTATE_D3, PWR_DSTATE_D2, PWR_DSTATE_D1, PWR_DSTATE_D0]⟩,
   ⟨0xF000010014, 1, 0x4, fun _ => [PWR_RETFAIL_B]⟩,
   ⟨0xF000010018, 1, 0x4, fun _ => [PWR_RETVALID_B]⟩,
   ⟨0xF00001001C, 1, 0x4, fun _ => [PWR_WAKEEN_EN]⟩,
   ⟨0xF000010020, 1, 0x4, fun _ => [PWR_WAKESRC_SRC]⟩,
   ⟨0xF000010024, 1, 0x4, fun _ => [PWR_WAKEIO_XT, PWR_WAKEIO_BI]⟩,
   ⟨0xF000010028, 1, 0x4, fun _ => [PWR_WAKEDOM_D]⟩,
   ⟨0xF00001002C, 3, 0x4, fun i => [PWR_WAKET_V i]⟩,
   ⟨0xF000010038, 1, 0x4, fun _ => [PWR_PBUDGET_P]⟩,
   ⟨0xF00001003C, 1, 0x4, fun _ => [PWR_THERM_KMIN, PWR_THERM_TDER, PWR_THERM_TSOFT]⟩,
   ⟨0xF000010040, 1, 0x4, fun _ => [PWR_ATH_TH1, PWR_ATH_TH2, PWR_ATH_TH3, PWR_ATH_HYS]⟩,
   ⟨0xF000010044, 1, 0x4, fun _ => [PWR_UNCORE_MW]⟩,
   ⟨0xF000010050, 5, 0x4, fun i => [PWR_C0FUND_MW i]⟩,
   ⟨0xF000010064, 1, 0x4, fun _ => [PWR_FUNDSTAT_F]⟩,
   ⟨0xF000010080, 5, 0x10, fun i => [PWR_ACC_W i, PWR_ACC_CAP i]⟩,
   ⟨0xF000010084, 5, 0x10, fun i => [PWR_ACCLEVEL_LEVEL i]⟩,
   ⟨0xF000010088, 5, 0x10, fun i => [PWR_ACCPMEAS_PMEAS i]⟩,
   ⟨0xF0000100D0, 1, 0x4, fun _ => [PWR_TJ_W, PWR_TJ_N, PWR_TJ_F, PWR_TJ_C]⟩,
   ⟨0xF0000100D4, 1, 0x4, fun _ => [PWR_TCP_T]⟩,
   ⟨0xF0000100D8, 1, 0x4, fun _ => [PWR_HOLDUP_T]⟩,
   ⟨0xF000010100, 11, 0x4, fun i => [PWR_IDLE_GATED i, PWR_IDLE_T i]⟩,
   ⟨0xF000010140, 1, 0x4, fun _ => [PWR_GOVSTAT_SPARE, PWR_GOVSTAT_QLEN, PWR_GOVSTAT_HEAD]⟩,
   ⟨0xF000010180, 4, 0x4, fun i => [PWR_CMP_OUT i, PWR_CMP_DIR i, PWR_CMP_HYS i, PWR_CMP_THR i]⟩,
   ⟨0xF000010200, 1, 0x4, fun _ => [PWR_OWNCMD_OWNER, PWR_OWNCMD_IDX, PWR_OWNCMD_OP]⟩,
   ⟨0xF000010204, 1, 0x4, fun _ => [PWR_OWNSTAT_CUR, PWR_OWNSTAT_RES]⟩,
   ⟨0xF000010208, 1, 0x4, fun _ => [PWR_OWNREFCNT_N]⟩,
   ⟨0xF000010300, 44, 0x4, fun i => [PWR_OWN_OWNER i]⟩,
   ⟨0xF000010400, 8, 0x4, fun i => [PWR_RETSIG_SIG i]⟩]
/-- Every register of the PWR block. -/
def regsPWR : List RegSpec := regsPWR0

/-- Registers of the CLK block, part 0. -/
def regsCLK0 : List RegSpec :=
  [⟨0xF000020000, 1, 0x4, fun _ => [CLK_STAT_BEATSRC, CLK_STAT_MGTSRC, CLK_STAT_OCXOACT]⟩,
   ⟨0xF000020004, 1, 0x4, fun _ => [CLK_CMD_OP]⟩,
   ⟨0xF000020008, 1, 0x4, fun _ => [CLK_FIC_KHZ]⟩,
   ⟨0xF000020010, 1, 0x4, fun _ => [CLK_PLL0_LOCK, CLK_PLL0_LOSS, CLK_PLL0_EN]⟩,
   ⟨0xF000020014, 5, 0x4, fun i => [CLK_PLL_LOCK i, CLK_PLL_LOSS i, CLK_PLL_EN i]⟩]
/-- Every register of the CLK block. -/
def regsCLK : List RegSpec := regsCLK0

/-- Registers of the EVREC block, part 0. -/
def regsEVREC0 : List RegSpec :=
  [⟨0xF0000F0000, 1, 0x4, fun _ => [EVREC_CTL_SNAPSEV, EVREC_CTL_REPWIN, EVREC_CTL_FULLIE, EVREC_CTL_DROPIE]⟩,
   ⟨0xF0000F0004, 1, 0x4, fun _ => [EVREC_STAT_FULLP, EVREC_STAT_DROPQ, EVREC_STAT_READY]⟩,
   ⟨0xF0000F0008, 1, 0x4, fun _ => [EVREC_SEQ_NEXT]⟩,
   ⟨0xF0000F000C, 1, 0x4, fun _ => [EVREC_CNT_DROPQ, EVREC_CNT_CHKBAD]⟩,
   ⟨0xF0000F0020, 16, 0x4, fun i => [EVREC_SNAP_V i, EVREC_SNAP_OFS i]⟩]
/-- Every register of the EVREC block. -/
def regsEVREC : List RegSpec := regsEVREC0

/-- Registers of the ACQ block, part 0. -/
def regsACQ0 : List RegSpec :=
  [⟨0xF000100000, 1, 0x4, fun _ => [ACQ_CTL_DONEIE, ACQ_CTL_EN]⟩,
   ⟨0xF000100004, 1, 0x4, fun _ => [ACQ_STAT_ROWLOST, ACQ_STAT_DONE]⟩,
   ⟨0xF000100008, 1, 0x4, fun _ => [ACQ_BASE_ADDR]⟩,
   ⟨0xF00010000C, 1, 0x4, fun _ => [ACQ_SIZE_N]⟩,
   ⟨0xF000100010, 1, 0x4, fun _ => [ACQ_STSRC_ADDR]⟩,
   ⟨0xF000100014, 1, 0x4, fun _ => [ACQ_CMD_OP, ACQ_CMD_REC, ACQ_CMD_SEG]⟩,
   ⟨0xF000100018, 1, 0x4, fun _ => [ACQ_CMDSTAT_BUSY, ACQ_CMDSTAT_ERR]⟩,
   ⟨0xF000100100, 32, 0x10, fun i => [ACQ_RSTAT_DONE i, ACQ_RSTAT_SEG i, ACQ_RSTAT_STATE i]⟩,
   ⟨0xF000100104, 32, 0x10, fun i => [ACQ_RCNT_EARLY i, ACQ_RCNT_RETRIG i]⟩,
   ⟨0xF000100108, 32, 0x10, fun i => [ACQ_RLOST_N i]⟩,
   ⟨0xF00010010C, 32, 0x10, fun i => [ACQ_RSEQ_N i]⟩]
/-- Every register of the ACQ block. -/
def regsACQ : List RegSpec := regsACQ0

/-- Registers of the LOCKET block, part 0. -/
def regsLOCKET0 : List RegSpec :=
  [⟨0xF000160000, 1, 0x4, fun _ => [LOCKET_CTL_MBIE, LOCKET_CTL_FEEDEN]⟩,
   ⟨0xF000160004, 1, 0x4, fun _ => [LOCKET_STAT_LINK, LOCKET_STAT_BUSY, LOCKET_STAT_BADRESP, LOCKET_STAT_TIMEOUT, LOCKET_STAT_RESP]⟩,
   ⟨0xF000160008, 1, 0x4, fun _ => [LOCKET_MBCMD_SEND, LOCKET_MBCMD_NBYTES]⟩,
   ⟨0xF00016000C, 1, 0x4, fun _ => [LOCKET_MBRLEN_N]⟩,
   ⟨0xF000160010, 1, 0x4, fun _ => [LOCKET_MBTO_MS]⟩,
   ⟨0xF000160014, 1, 0x4, fun _ => [LOCKET_FDROP_N]⟩,
   ⟨0xF000160018, 1, 0x4, fun _ => [LOCKET_FSENT_N]⟩,
   ⟨0xF000160100, 64, 0x4, fun i => [LOCKET_FSEL_BITS i]⟩,
   ⟨0xF000160400, 128, 0x4, fun i => [LOCKET_MBTX_V i]⟩,
   ⟨0xF000160800, 128, 0x4, fun i => [LOCKET_MBRX_V i]⟩]
/-- Every register of the LOCKET block. -/
def regsLOCKET : List RegSpec := regsLOCKET0

/-- Registers of the KEY block, part 0. -/
def regsKEY0 : List RegSpec :=
  [⟨0xF000070000, 1, 0x4, fun _ => [KEY_CTL_IE]⟩,
   ⟨0xF000070004, 1, 0x4, fun _ => [KEY_STAT_RNGFAIL, KEY_STAT_ROOTT, KEY_STAT_ROOTF]⟩,
   ⟨0xF000070008, 1, 0x4, fun _ => [KEY_CMD_OP, KEY_CMD_PARENT, KEY_CMD_SLOT]⟩,
   ⟨0xF00007000C, 1, 0x4, fun _ => [KEY_CMDSTAT_BUSY, KEY_CMDSTAT_ERR]⟩,
   ⟨0xF000070010, 1, 0x4, fun _ => [KEY_NEWATTR_TXNEXT, KEY_NEWATTR_ALG, KEY_NEWATTR_UTX, KEY_NEWATTR_URX, KEY_NEWATTR_UKDF, KEY_NEWATTR_NEXT, KEY_NEWATTR_NEXTV]⟩,
   ⟨0xF000070014, 1, 0x4, fun _ => [KEY_REMASK_US]⟩,
   ⟨0xF000070018, 1, 0x4, fun _ => [KEY_CNT_TXNOKEY]⟩,
   ⟨0xF000070020, 8, 0x4, fun i => [KEY_DATA_V i]⟩,
   ⟨0xF000070040, 4, 0x4, fun i => [KEY_LABEL_V i]⟩,
   ⟨0xF000070050, 4, 0x4, fun i => [KEY_CTX_V i]⟩,
   ⟨0xF000070060, 1, 0x4, fun _ => [KEY_RNG_V]⟩,
   ⟨0xF000070100, 64, 0x4, fun i => [KEY_ATTR_V i, KEY_ATTR_LOCKED i, KEY_ATTR_ORIGIN i, KEY_ATTR_TXNEXT i, KEY_ATTR_ALG i, KEY_ATTR_UTX i, KEY_ATTR_URX i, KEY_ATTR_UKDF i, KEY_ATTR_NEXT i, KEY_ATTR_NEXTV i, KEY_ATTR_PARENT i]⟩,
   ⟨0xF000070200, 64, 0x4, fun i => [KEY_KID_KID i]⟩]
/-- Every register of the KEY block. -/
def regsKEY : List RegSpec := regsKEY0

/-- Registers of the LIFE block, part 0. -/
def regsLIFE0 : List RegSpec :=
  [⟨0xF000080000, 1, 0x4, fun _ => [LIFE_STAT_BOOTFAIL, LIFE_STAT_DBG, LIFE_STAT_WIPE, LIFE_STAT_STATE]⟩,
   ⟨0xF000080004, 1, 0x4, fun _ => [LIFE_CMD_OP, LIFE_CMD_ARG]⟩,
   ⟨0xF000080008, 1, 0x4, fun _ => [LIFE_CMDSTAT_BUSY, LIFE_CMDSTAT_ERR]⟩,
   ⟨0xF00008000C, 1, 0x4, fun _ => [LIFE_SVN_SVN]⟩,
   ⟨0xF000080010, 1, 0x4, fun _ => [LIFE_BOOTKEY_RUN, LIFE_BOOTKEY_REV, LIFE_BOOTKEY_PROG]⟩,
   ⟨0xF000080014, 1, 0x4, fun _ => [LIFE_WIPED_N]⟩,
   ⟨0xF000080020, 4, 0x4, fun i => [LIFE_CHAL_V i]⟩,
   ⟨0xF000080040, 12, 0x4, fun i => [LIFE_RESP_V i]⟩,
   ⟨0xF000080070, 2, 0x4, fun i => [LIFE_DIEID_V i]⟩]
/-- Every register of the LIFE block. -/
def regsLIFE : List RegSpec := regsLIFE0

/-- Registers of the IOBUS block, part 0. -/
def regsIOBUS0 : List RegSpec :=
  [⟨0xF000120000, 2, 0x100, fun i => [IO_CTL_IE i, IO_CTL_RECOVER i, IO_CTL_MON i, IO_CTL_EN i]⟩,
   ⟨0xF000120004, 2, 0x100, fun i => [IO_STAT_REC i, IO_STAT_TEC i, IO_STAT_BOFF i, IO_STAT_EPASS i]⟩,
   ⟨0xF000120008, 2, 0x100, fun i => [IO_NBT_SJW i, IO_NBT_TSEG2 i, IO_NBT_TSEG1 i, IO_NBT_BRP i]⟩,
   ⟨0xF00012000C, 2, 0x100, fun i => [IO_DBT_TDCEN i, IO_DBT_DSJW i, IO_DBT_DTSEG2 i, IO_DBT_DTSEG1 i, IO_DBT_DBRP i]⟩,
   ⟨0xF000120010, 2, 0x100, fun i => [IO_TDC_TDCV i, IO_TDC_TDCO i]⟩,
   ⟨0xF000120014, 2, 0x100, fun i => [IO_RXDLY_D i]⟩,
   ⟨0xF000120018, 2, 0x100, fun i => [IO_RXRTR_N i]⟩,
   ⟨0xF00012001C, 2, 0x100, fun i => [IO_NOMATCH_N i]⟩,
   ⟨0xF000120020, 2, 0x100, fun i => [IO_LOSTCNT_N i]⟩,
   ⟨0xF000120024, 2, 0x100, fun i => [IO_BOFFCNT_N i]⟩,
   ⟨0xF000120800, 1, 0x4, fun _ => [IOBUS_STSRC_ADDR]⟩,
   ⟨0xF000120804, 1, 0x4, fun _ => [IOBUS_CMD_OP, IOBUS_CMD_INDEX]⟩,
   ⟨0xF000120808, 1, 0x4, fun _ => [IOBUS_CMDSTAT_BUSY, IOBUS_CMDSTAT_ERR]⟩,
   ⟨0xF00012080C, 1, 0x4, fun _ => [IOBUS_OBJSEL_BUS, IOBUS_OBJSEL_IDX]⟩,
   ⟨0xF000120810, 1, 0x4, fun _ => [IOBUS_OBJCMD_OP]⟩,
   ⟨0xF000120814, 1, 0x4, fun _ => [IOBUS_DENY_N]⟩,
   ⟨0xF000120900, 24, 0x4, fun i => [IOBUS_WIN_V i]⟩]
/-- Every register of the IOBUS block. -/
def regsIOBUS : List RegSpec := regsIOBUS0

/-- Registers of the IDBUS block, part 0. -/
def regsIDBUS0 : List RegSpec :=
  [⟨0xF000130000, 1, 0x4, fun _ => [IDBUS_CTL_IE, IDBUS_CTL_FAST, IDBUS_CTL_EN]⟩,
   ⟨0xF000130004, 1, 0x4, fun _ => [IDBUS_PRES_CAGE, IDBUS_PRES_SLOT]⟩,
   ⟨0xF000130008, 1, 0x4, fun _ => [IDBUS_EVT_CAGE, IDBUS_EVT_SLOT]⟩,
   ⟨0xF000130100, 16, 0x4, fun i => [IDBUS_EXP_V i, IDBUS_EXP_ANY i, IDBUS_EXP_KIND i]⟩,
   ⟨0xF000130140, 16, 0x4, fun i => [IDBUS_SLOT_KIND i, IDBUS_SLOT_FORCE i, IDBUS_SLOT_STATE i]⟩,
   ⟨0xF000130200, 1, 0x4, fun _ => [IDBUS_RECSEL_SLOT]⟩,
   ⟨0xF000130300, 1, 0x4, fun _ => [IDBUS_SFPCMD_OP, IDBUS_SFPCMD_CAGE, IDBUS_SFPCMD_DEV, IDBUS_SFPCMD_OFS, IDBUS_SFPCMD_LEN]⟩,
   ⟨0xF000130304, 1, 0x4, fun _ => [IDBUS_SFPSTAT_BUSY, IDBUS_SFPSTAT_CCOK, IDBUS_SFPSTAT_ERR]⟩,
   ⟨0xF000130308, 1, 0x4, fun _ => [IDBUS_SFPWD_V]⟩,
   ⟨0xF000130400, 32, 0x4, fun i => [IDBUS_REC_V i]⟩,
   ⟨0xF000130500, 32, 0x4, fun i => [IDBUS_SFPBUF_V i]⟩]
/-- Every register of the IDBUS block. -/
def regsIDBUS : List RegSpec := regsIDBUS0

/-- Registers of the DTRIP block, part 0. -/
def regsDTRIP0 : List RegSpec :=
  [⟨0xF000140000, 1, 0x4, fun _ => [DTRIP_CTL_BIIE, DTRIP_CTL_RBIE]⟩,
   ⟨0xF000140004, 1, 0x4, fun _ => [DTRIP_ARM_KEY, DTRIP_ARM_ARM]⟩,
   ⟨0xF000140008, 1, 0x4, fun _ => [DTRIP_STATE_MIS, DTRIP_STATE_OUT, DTRIP_STATE_LATCH]⟩,
   ⟨0xF00014000C, 1, 0x4, fun _ => [DTRIP_RBERR_B]⟩,
   ⟨0xF000140010, 1, 0x4, fun _ => [DTRIP_TEST_VAL, DTRIP_TEST_MASK]⟩,
   ⟨0xF000140020, 8, 0x4, fun i => [DTRIP_LAST_SRC i, DTRIP_LAST_VAL i, DTRIP_LAST_TASK i]⟩,
   ⟨0xF000140040, 1, 0x4, fun _ => [DTRIP_CONFL_N]⟩,
   ⟨0xF000140100, 16, 0x4, fun i => [DTRIP_BICFG_STAMP i, DTRIP_BICFG_INV i, DTRIP_BICFG_DEB i]⟩,
   ⟨0xF000140140, 1, 0x4, fun _ => [DTRIP_BISTATE_RAW, DTRIP_BISTATE_DEB]⟩,
   ⟨0xF000140144, 1, 0x4, fun _ => [DTRIP_BIEVT_B]⟩,
   ⟨0xF000140148, 1, 0x4, fun _ => [DTRIP_BIPER_P]⟩,
   ⟨0xF000140150, 4, 0x4, fun i => [DTRIP_BIDEST_V i, DTRIP_BIDEST_CL i, DTRIP_BIDEST_LANE i, DTRIP_BIDEST_ALL i, DTRIP_BIDEST_VMID i, DTRIP_BIDEST_OFS i]⟩,
   ⟨0xF000140200, 16, 0x10, fun i => [DTRIP_BITSNS_V i]⟩,
   ⟨0xF000140204, 16, 0x10, fun i => [DTRIP_BITSLO_V i]⟩,
   ⟨0xF000140208, 16, 0x10, fun i => [DTRIP_BITSHI_V i]⟩,
   ⟨0xF00014020C, 16, 0x10, fun i => [DTRIP_BITSF_TDC i, DTRIP_BITSF_RISE i]⟩,
   ⟨0xF000140300, 1, 0x4, fun _ => [DTRIP_XTDRV_D]⟩,
   ⟨0xF000140304, 1, 0x4, fun _ => [DTRIP_XTSTATE_DRV, DTRIP_XTSTATE_LVL]⟩,
   ⟨0xF000140308, 1, 0x4, fun _ => [DTRIP_XTPULSE_US]⟩,
   ⟨0xF000140310, 4, 0x10, fun i => [DTRIP_XTTSNS_V i]⟩,
   ⟨0xF000140314, 4, 0x10, fun i => [DTRIP_XTTSLO_V i]⟩,
   ⟨0xF000140318, 4, 0x10, fun i => [DTRIP_XTTSHI_V i]⟩]
/-- Every register of the DTRIP block. -/
def regsDTRIP : List RegSpec := regsDTRIP0

/-- Registers of the SYS block, part 0. -/
def regsSYS0 : List RegSpec :=
  [⟨0xF000000000, 1, 0x4, fun _ => [SYS_ID_PART, SYS_ID_REV]⟩,
   ⟨0xF000000004, 1, 0x4, fun _ => [SYS_STAT_WDIE, SYS_STAT_FIE, SYS_STAT_BOOTOK, SYS_STAT_PREADY]⟩,
   ⟨0xF000000008, 1, 0x4, fun _ => [SYS_RSTCAUSE_CAUSE]⟩,
   ⟨0xF00000000C, 1, 0x4, fun _ => [SYS_RSTCNT_N]⟩,
   ⟨0xF000000010, 1, 0x4, fun _ => [SYS_VARIANT_VARIANT]⟩,
   ⟨0xF000000014, 1, 0x4, fun _ => [SYS_UNITS_SFEHI, SYS_UNITS_P3, SYS_UNITS_P2, SYS_UNITS_CL3, SYS_UNITS_CL2, SYS_UNITS_LOCKET, SYS_UNITS_DIEW]⟩,
   ⟨0xF000000018, 1, 0x4, fun _ => [SYS_BOOT_SLOT, SYS_BOOT_RESB, SYS_BOOT_RESA]⟩,
   ⟨0xF00000001C, 1, 0x4, fun _ => [SYS_BOOTPREF_SLOT]⟩,
   ⟨0xF000000020, 1, 0x4, fun _ => [SYS_WDOG_EN, SYS_WDOG_MS]⟩,
   ⟨0xF000000024, 1, 0x4, fun _ => [SYS_WDKICK_KEY]⟩,
   ⟨0xF000000028, 1, 0x4, fun _ => [SYS_LANEREL_M]⟩,
   ⟨0xF00000002C, 1, 0x4, fun _ => [SYS_RSTCMD_KEY, SYS_RSTCMD_FORCE, SYS_RSTCMD_WARM]⟩,
   ⟨0xF000000030, 1, 0x4, fun _ => [SYS_TREADY_MS]⟩,
   ⟨0xF000000040, 1, 0x4, fun _ => [SYS_FSYND0_VALID, SYS_FSYND0_RESP, SYS_FSYND0_KIND, SYS_FSYND0_VC, SYS_FSYND0_VMID, SYS_FSYND0_REQ]⟩,
   ⟨0xF000000044, 1, 0x4, fun _ => [SYS_FSYND1_ADDRLO]⟩,
   ⟨0xF000000048, 1, 0x4, fun _ => [SYS_FSYND2_DOM, SYS_FSYND2_CHAN, SYS_FSYND2_ADDRHI]⟩,
   ⟨0xF00000004C, 1, 0x4, fun _ => [SYS_FSYND3_NS]⟩,
   ⟨0xF000000050, 1, 0x4, fun _ => [SYS_FCNT_ABS, SYS_FCNT_UNP, SYS_FCNT_DEN, SYS_FCNT_TMO]⟩,
   ⟨0xF000000054, 1, 0x4, fun _ => [SYS_FECC_N]⟩]
/-- Every register of the SYS block. -/
def regsSYS : List RegSpec := regsSYS0

/-- Registers of the CRC block, part 0. -/
def regsCRC0 : List RegSpec :=
  [⟨0xF000110000, 1, 0x4, fun _ => [CRC_SEED_V]⟩,
   ⟨0xF000110004, 1, 0x4, fun _ => [CRC_DATA_V]⟩,
   ⟨0xF000110008, 1, 0x4, fun _ => [CRC_RESULT_V]⟩]
/-- Every register of the CRC block. -/
def regsCRC : List RegSpec := regsCRC0

/-- Registers of the DEBUG block, part 0. -/
def regsDEBUG0 : List RegSpec :=
  [⟨0xF000170000, 1, 0x4, fun _ => [DEBUG_STAT_HALTREQ, DEBUG_STAT_CONNECTED, DEBUG_STAT_OPEN]⟩]
/-- Every register of the DEBUG block. -/
def regsDEBUG : List RegSpec := regsDEBUG0

end Reg
end Sys2Proof.Machine
end

