-- ==== Sys2Proof/Machine/TypesLane.lean ====
section
/-! DEFINITION. The state of the time base, the lanes, the dispatchers and the tasks (spec files 02 to 06), as plain
data. Everything a register map shows is held in the register store of Machine/State.lean and not repeated here. -/
namespace Sys2Proof.Machine

/-- Byte-addressed memory: listed cells rise in address and none holds 0, what an unlisted byte reads as. -/
abbrev Mem := List Host.Cell

/-- One entry of the transmit time-stamp queue (R47). -/
structure TsqEntry where
  stamp : Nat
  port : Nat
  msgType : Nat
  seq : Nat
  deriving DecidableEq, Repr

/-- One TDC channel: up to 4 results, each the captured stamp and whether the edge rose (R52), and the raw stamp of the
last captured edge. -/
structure Tdc where
  results : List (Nat × Bool)
  last : Option Nat
  deriving DecidableEq, Repr

/-- A launch-time frame waiting at its port (R50): its switch handle and the stamp its slot opens. -/
structure LaunchFrame where
  handle : Nat
  t : Nat
  deriving DecidableEq, Repr

/-- The time base (R29): `count` is the counter in units of 2⁻²⁸ ns, all its 12 hidden fraction bits included. -/
structure TimeBase where
  count : Nat
  /-- The increment in force, units of 2⁻²⁸ ns per TB cycle (R33). -/
  incr : Nat
  /-- An accepted TB_INCR value and the TB cycles left before it takes effect (R33). -/
  incrPend : Option (Nat × Nat)
  /-- The snapshot every requester other than a lane shares (R58). -/
  sharedSnap : Nat
  tsq : List TsqEntry
  tdc : Vector Tdc 8
  /-- Launch-time frames waiting per port, earliest slot first (R50). -/
  launch : Vector (List LaunchFrame) 13
  deriving DecidableEq, Repr

/-- The modes of a lane (R70, R74). -/
inductive Mode where
  | t | k | s | l
  deriving DecidableEq, Repr

/-- STATUS (R74); BANK is the bank the lane runs. -/
structure Status where
  xoff : Bool
  timed : Bool
  mode : Mode
  exl : Bool
  bet : Bool
  ie : Bool
  deriving DecidableEq, Repr

/-- A complex accumulator: two signed 72-bit parts in Q62 (R69). -/
structure CAcc where
  re : BitVec 72
  im : BitVec 72
  deriving DecidableEq, Repr

/-- A store waiting in a bank's store buffer (R91): its physical address, its bytes and the ticket it carries. -/
structure BufStore where
  pa : Nat
  bytes : List Byte
  vmid : Nat
  deriving DecidableEq, Repr

/-- The registers of one bank of a lane (R64, R67, R72 "per bank"). `snap` is the bank's time-base snapshot (R58). -/
structure Bank where
  pc : Word
  g : Vector Word 32
  v : Vector QWord 16
  ac : Vector CAcc 2
  lastResp : BitVec 3
  fcsr : BitVec 9
  imgI : Word
  imgQ : Word
  imgM : Word
  status : Status
  vmid : BitVec 8
  snap : Nat
  sbuf : List BufStore
  deriving DecidableEq, Repr

/-- The "F only" registers that belong to the running context: K's and the translation roots (R72). -/
structure KRegs where
  kepc : Word
  kestatus : Word
  kcause : Word
  keval : Word
  kvec : Word
  kscratch : Word
  st1root : Word
  asid : Word
  kie : Word
  st2root : Word
  deriving DecidableEq, Repr

/-- The "F only" registers of mode S (R72). -/
structure SRegs where
  sepc : Word
  sestatus : Word
  scause : Word
  seval : Word
  svec : Word
  sscratch : Word
  sie : Word
  deriving DecidableEq, Repr

/-- A translation-buffer entry (R87). `page` is VA bits 38:12 (or 38:21 times 512 for a 2 MiB entry), `ppage` the
physical page, `dirty` says that a write needs no further table update (R85), `one` that it was walked in mode S, without stage
2 (R89). -/
structure TlbEntry where
  vmid : Nat
  asid : Nat
  page : Nat
  big : Bool
  ppage : Nat
  r : Bool
  w : Bool
  x : Bool
  tu : Bool
  dev : Bool
  dirty : Bool
  one : Bool
  deriving DecidableEq, Repr

/-- A pinned translation (R88): a mapping with the combined permissions at pin time. -/
structure Pin where
  vmid : Nat
  page : Nat
  big : Bool
  ppage : Nat
  r : Bool
  w : Bool
  x : Bool
  dev : Bool
  deriving DecidableEq, Repr

/-- What an outstanding bank F load will do with its response (R65). -/
structure OutLoad where
  rd : Fin 32
  bytes : Nat
  signed : Bool
  pa : Nat
  dev : Bool
  deriving DecidableEq, Repr

/-- What a lane is doing. -/
inductive LaneSt where
  /-- The lane's domain is not ON. -/
  | off
  /-- Held in reset: M1 to M3 before SYS_LANEREL (R461). -/
  | reset
  /-- No context runs. -/
  | idle
  | running
  /-- In `wait` (R130). -/
  | waiting
  /-- In `tsync` for an engine: the count of its table changes at the fence, and for the dispatchers the tasks with an
  activation of an older generation, each with that generation's number (R96, R172). -/
  | tsync (engine : Nat) (mark : Nat) (olds : List (Nat × Nat))
  /-- Stopped by a double fault (R99). -/
  | stopped
  deriving DecidableEq, Repr

/-- A bank F context the dispatcher holds while another runs: an instance kernel (`task = none`) or a task of class 1
to 3 (R147, R320). -/
structure Ctx where
  vmid : Nat
  task : Option Nat
  cls : Nat
  /-- The activation has latched its image and run (R170). -/
  started : Bool
  /-- In `wait`, so not ready. -/
  waiting : Bool
  deadline : Nat
  bank : Bank
  k : KRegs
  deriving DecidableEq, Repr

/-- A committed item of the activation's checkpoint record (R343). -/
structure ChkItem where
  src : Nat
  bytes : List Byte
  deriving DecidableEq, Repr

/-- A consistency group in a staging image: its place in data memory and the time of its source message (R177). -/
structure CGroup where
  off : Nat
  len : Nat
  time : Nat
  deriving DecidableEq, Repr

/-- A completion token at a cluster's event controller (R247): group, time tag, quality summary, and the group's output
rate as a fraction. -/
structure Token where
  group : Nat
  tag : Nat
  sq : Nat
  rateN : Nat
  rateD : Nat
  /-- Sent by the replay context (R261). -/
  replay : Bool
  deriving DecidableEq, Repr

/-- The class-0 activation that runs on a lane (R152, R154). -/
structure C0Run where
  src : Nat
  entry : Nat
  task : Nat
  budget : Nat
  beats : Nat
  items : List ChkItem
  /-- The cycle header the latch wrote (R175). -/
  header : List Byte
  nper : Nat
  tok : Token
  deriving DecidableEq, Repr

/-- A source word of an admitted lane block (R150). -/
structure SlotSrc where
  v : Bool
  div : Nat
  group : Nat
  deriving DecidableEq, Repr

/-- A slot entry of an admitted lane block (R150). -/
structure SlotEntry where
  v : Bool
  task : Nat
  src : Nat
  budget : Nat
  deriving DecidableEq, Repr

/-- A deficit arbiter over the 65 ticket indices (R164, R165). -/
structure Deficit where
  deficit : List Nat
  cursor : Nat
  deriving DecidableEq, Repr

/-- A waiting request of an arbiter: its input, its ticket index and its COST in units (R163). -/
structure ArbReq where
  input : Nat
  index : Nat
  units : Nat
  deriving DecidableEq, Repr

/-- An arbiter on VC2 with its queued requests, oldest first (R164). `last` is the last request granted. -/
structure Arbiter where
  d : Deficit
  queue : List ArbReq
  last : Option ArbReq
  deriving DecidableEq, Repr

/-- One lane: both banks, the lane's own registers and what its dispatcher keeps for it. -/
structure Lane where
  st : LaneSt
  /-- Halted by the debug port (R476). -/
  halted : Bool
  /-- Retired by self-diagnosis (R339). -/
  retired : Bool
  /-- Gated for idleness (R359); only management and analytic lanes. -/
  gated : Bool
  /-- Bank G is current. -/
  inG : Bool
  f : Bank
  g : Bank
  k : KRegs
  sr : SRegs
  /-- A latched IPI with the sending lane's LANEID bits 7:0 (R101). -/
  ipi : Option Nat
  beatcnt : Word
  g0cause : Word
  g0epc : Word
  g0eval : Word
  /-- Beats counted in bank F's open timed window (R128). -/
  winBeats : Nat
  out : Option OutLoad
  /-- Posted-store errors waiting to be taken, oldest first: the store's address and the response code (R102). -/
  posted : List (Nat × Nat)
  tlb : List TlbEntry
  pins : Vector (Option Pin) 16
  /-- The edge-init set: task index and image bit address (R195). -/
  edges : List (Nat × Nat)
  /-- The identity of the running bank F context: VMID and task (none: a kernel). -/
  cur : Option (Nat × Option Nat)
  ctxs : List Ctx
  /-- Deficits of the class-2 and class-3 choice (R165). -/
  arb2 : Deficit
  arb3 : Deficit
  /-- The admitted lane block (R151). -/
  srcs : Vector SlotSrc 4
  entries : List SlotEntry
  /-- Waiting releases per source (R152). -/
  waits : Vector (Option Token) 4
  /-- Consistency groups in the lane's data memory (R177). -/
  cgroups : List CGroup
  run : Option C0Run
  /-- The kernel ticket an analytic lane runs (R299). -/
  ticket : Option Nat
  deriving DecidableEq, Repr

/-- The dirty-log registers of a cluster (R72, R80). -/
structure DirtyLog where
  base : Word
  en : Bool
  ovf : Bool
  size : Nat
  head : Nat
  tail : Nat
  deriving DecidableEq, Repr

/-- A task descriptor as the dispatcher keeps it (R171). -/
structure Desc where
  gen : Nat
  en : Bool
  cls : Nat
  cluster : Nat
  lane : Nat
  flim : Nat
  fact : Bool
  omapn : Nat
  pc : Nat
  sp : Nat
  arg : Nat
  imgI : Nat
  imgQ : Nat
  imgM : Nat
  stg : Nat
  lsize : Nat
  frcOfs : Nat
  frcCap : Nat
  omap : Nat
  safe : Nat
  chkSize : Nat
  period : Nat
  deadline : Nat
  mine : Nat
  /-- The 64 bytes the descriptor was read as; checkpoint records copy them (R343). -/
  raw : List Byte
  deriving DecidableEq, Repr

/-- The state of a task (R199, VPI_TRUN.STATE). -/
inductive TaskSt where
  | idle | run | stopped | faulted
  deriving DecidableEq, Repr

/-- A transfer entry of an exchange block (R192). -/
structure Xfer where
  kind : Nat
  len : Nat
  src : Nat
  dst : Nat
  srcArea : Nat
  dstArea : Nat
  srcBit : Nat
  dstBit : Nat
  deriving DecidableEq, Repr

/-- A validated exchange that waits for its boundary (R193). -/
structure Exchange where
  newDesc : Desc
  xfers : List Xfer
  rels : List Nat
  bofs : Nat
  deriving DecidableEq, Repr

/-- What the dispatcher keeps for a taken-up task (R172). -/
structure Task where
  desc : Desc
  st : TaskSt
  cflt : Nat
  cycle : Nat
  skip : Nat
  dmiss : Nat
  ovr : Nat
  abt : Nat
  /-- Releases dropped or skipped since the previous activation was released (R182). -/
  nskip : Nat
  first : Bool
  restored : Bool
  /-- Force entries valid at the previous latch: index, tag and area (R189). -/
  forced : List (Nat × Nat × Nat)
  /-- A bad force entry has been logged since take-up (R185). -/
  warned : Bool
  exch : Option Exchange
  /-- STOP or DROP waits for the end of the activation in progress (R184). -/
  stopReq : Bool
  dropReq : Bool
  /-- An activation is in progress. -/
  active : Bool
  /-- Changes of the descriptor's generation so far, and that count at the release of the latest activation (R172). -/
  gens : Nat
  actGens : Nat
  /-- NPER of the latest activation (R182). -/
  nper : Nat
  /-- Stamp of the latest release and, for class 1, of its deadline (R174, R181). -/
  relAt : Nat
  dlAt : Nat
  missed : Bool
  /-- Energy drawn in this class-1 activation, nJ, and whether it is held for MINE (R366). -/
  energy : Nat
  /-- Body offset of its checkpoint record (R344). -/
  bofs : Nat
  /-- A record written and waiting for its seal: half, and whether it is the first under a new generation (R344, R197). -/
  unsealed : Option (Nat × Bool)
  /-- An exchange completed whose first record is not yet sealed: the body offset and descriptor it keeps (R197). -/
  oldBofs : Option (Nat × Nat)
  /-- TIME of the restored record; only later tags release the task (R346). -/
  after : Option Nat
  /-- Directory entry of role region (R343). -/
  dir : Nat
  deriving DecidableEq, Repr

end Sys2Proof.Machine
end

