-- ==== Sys2Proof/Machine/TypesVpi.lean ====
section
/-! DEFINITION. The state of the virtual protection instances, the failover engine, the event log and the disturbance
recorders (spec files 11, 12 and 14), as plain data. -/
namespace Sys2Proof.Machine

/-- The states of a VPI (R320). -/
inductive VpiSt where
  | off | ready | run | frozen | resetting
  deriving DecidableEq, Repr

/-- A VPI table entry (R318). `smac` is the 6-byte address as a number, first byte highest. -/
structure VpiEntry where
  gen : Nat
  v : Bool
  w : Nat
  cells : Nat
  ttab : Nat
  lanes : Nat
  st2 : Nat
  kst1 : Nat
  kpc : Nat
  ksp : Nat
  pubBase : Nat
  pubN : Nat
  evp : Nat
  evo : Nat
  smac : Nat
  smacn : Nat
  deriving DecidableEq, Repr

/-- One VPI: its entry, its state, its instance generation (R328) and the weight the switch ingress still uses while a
share change is pending (R327). -/
structure Vpi where
  ent : VpiEntry
  st : VpiSt
  igen : Nat
  oldW : Option Nat
  /-- A FREEZE has been accepted and not yet completed (R331). -/
  freezing : Bool
  /-- Stamp of the last logged spoof event (R324). -/
  spoofAt : Option Nat
  deriving DecidableEq, Repr

/-- A publish entry with the publisher's state for it (R322, R323). -/
structure Pub where
  gen : Nat
  v : Bool
  c0 : Bool
  sw : Bool
  auth : Bool
  kind : Nat
  vmid : Nat
  dmac : Nat
  appid : Nat
  refh : Nat
  ports : Nat
  tc : Nat
  ks : Nat
  tpl : Nat
  tlen : Nat
  dofs : Nat
  dlen : Nat
  tmin : Nat
  tmax : Nat
  stinit : Nat
  /-- Held allData contents, stNum, sqNum and the 8 bytes of t. -/
  held : List Byte
  stNum : Nat
  sqNum : Nat
  utc : List Byte
  /-- The retransmission schedule: the current interval in µs and the stamp it elapses at; none before the first send. -/
  sched : Option (Nat × Nat)
  deriving DecidableEq, Repr

/-- A subscription entry and its last message (R325). -/
structure Sub where
  gen : Nat
  v : Bool
  sim : Bool
  vmid : Nat
  cluster : Nat
  lane : Nat
  dofs : Nat
  dlen : Nat
  confRev : Nat
  /-- The block last written, the stamp its timeAllowedToLive ends and the instance generation of its frame; none before a
  message or after expiry. -/
  last : Option (List Byte × Nat × Nat)
  deriving DecidableEq, Repr

/-- What the failover engine keeps beside the FAILOVER registers. -/
structure Failover where
  /-- Stamps of the lane timing faults per physical group (check 5 of R339). -/
  ovrAt : Vector (List Nat) 5
  /-- The correctable-error count of the last second has been logged (check 10). -/
  ceccAt : Vector (List Nat) 5
  /-- Stamps: relinquish decision, end of step 2, end of step 3, end of step 4, end of step 5 (R337). -/
  tDecide : Nat
  tPower : Nat
  tRestore : Nat
  tReplay : Nat
  /-- Physical group that failed or is drilled. -/
  failed : Nat
  /-- Lanes of the role that still have to begin a live output copy (R346, phase 5). -/
  liveLeft : List Nat
  /-- A revocation waits for the end of the takeover (R351). -/
  revokePend : Bool
  deriving DecidableEq, Repr

/-- An event waiting in the input queue of the event log (R386). -/
structure Ev where
  clsP : Bool
  sev : Nat
  code : Nat
  vmid : Nat
  part : Nat
  sw : Bool
  orig : Nat
  tsinv : Bool
  ts : Nat
  args : List Nat
  deriving DecidableEq, Repr

/-- A written record of the event log (R384). `lastW` and `args` are the words at 0x1C and 0x28. -/
structure EvRec where
  ts : Nat
  seq : Nat
  pseq : Nat
  code : Nat
  clsP : Bool
  sev : Nat
  sw : Bool
  snap : Bool
  tsinv : Bool
  hasSnap : Bool
  vmid : Nat
  part : Nat
  orig : Nat
  rpt : Nat
  lastW : List Nat
  args : List Nat
  /-- Stamp of the write or the last merge (R387). -/
  at_ : Nat
  /-- CHK does not match the record (R392). -/
  bad : Bool
  deriving DecidableEq, Repr

/-- A view's cursor (R390): the latched slot, the PSEQ of the last valid latch and the window buffer. -/
structure View where
  slot : Option Nat
  pseq : Nat
  win : List Nat
  deriving DecidableEq, Repr

/-- The counters of a partition of the event log (R389). Index 0 is class O and 1 class P. -/
structure Part where
  lostO : Nat
  lostP : Nat
  snapLost : Nat
  fullP : Bool
  nextO : Nat
  nextP : Nat
  deriving DecidableEq, Repr

/-- The event log: its queue, its 65 536 slots (sparse: 0 to 16 383 class P, then class O), partitions and views. -/
structure EventLog where
  queue : List Ev
  slots : List (Nat × EvRec)
  parts : Vector Part 65
  views : Vector View 65
  deriving DecidableEq, Repr

/-- A trigger term (R395). -/
structure Term where
  kind : Nat
  edge : Nat
  index : Nat
  tdcU : Bool
  tdcCh : Nat
  deriving DecidableEq, Repr

/-- A recorder entry (R393). -/
structure RecEntry where
  gen : Nat
  v : Bool
  ovw : Bool
  xtout : Bool
  xtl : Nat
  na : Nat
  rate : Nat
  pre : Nat
  post : Nat
  nseg : Nat
  owner : Nat
  base : Nat
  segsz : Nat
  dmask : Nat
  terms : List Term
  snaps : List Nat
  chans : List Nat
  deriving DecidableEq, Repr

/-- A row of the 256-row buffer (R394): its index on the grid, the values delivered so far and the OR of their quality
codes. -/
structure AcqRow where
  k : Nat
  vals : List (Option Nat)
  qor : Nat
  deriving DecidableEq, Repr

/-- The states of a recorder (R396). -/
inductive RecSt where
  | off | fill | armed | post | stopped
  deriving DecidableEq, Repr

/-- A disturbance recorder (R393 to R398). -/
structure Recorder where
  ent : RecEntry
  st : RecSt
  /-- Current segment, header STATE of each segment (0 free, 1 filling, 2 complete, 3 aborted), and the complete ones,
  oldest first. -/
  seg : Nat
  segs : List Nat
  order : List Nat
  /-- Grid index of the next row to be written, the rows in the buffer and the rows that were lost. -/
  next : Nat
  pend : List AcqRow
  lost : List Nat
  /-- Rows written since FILL was entered, ring index of the next pre-trigger row, QOR of the ring's rows, newest first. -/
  rows : Nat
  ring : Nat
  qors : List Nat
  /-- The trigger (R396, R397): grid index of the trigger row, post-trigger rows still to write, instant, TFRAC, term and
  TSRC. -/
  kTrig : Nat
  postLeft : Nat
  ttrig : Nat
  tfrac : Nat
  term : Nat
  tsrc : Nat
  rtrigs : List Nat
  nrtrig : Nat
  /-- FIRST, T0, QOR of the post-trigger rows, FLAGS.LOSS and the snapshot of the header (R398). -/
  firstIdx : Nat
  t0 : Nat
  qor : Nat
  loss : Bool
  snapVals : List Nat
  recSeq : Nat
  deriving DecidableEq, Repr

end Sys2Proof.Machine
end

