-- ==== Sys2Proof/Machine/TypesNet.lean ====
section
/-! DEFINITION. The state of the ports, the switch core and the Clasp logic (spec files 07 and 10), as plain data. -/
namespace Sys2Proof.Machine

/-- A stored frame: its bytes from DA to the end of the payload and everything it carries until it leaves the module
(R214, R223, R225). `port` 13 is I0. `q` is the egress queue and `dest` the destination mask (bit 13 I0, bit 14 I1). -/
structure NetFrame where
  bytes : List Byte
  ts : Nat
  sidx : Nat
  gen : Nat
  port : Nat
  vid : Nat
  pcp : Nat
  auth : Bool
  replay : Bool
  ptp : Bool
  /-- Sent without tag rule or trailer: a ring frame that HSR forwards (R220). -/
  asIs : Bool
  /-- PTP frame that a transparent clock corrects on the way out (R45). -/
  corr : Bool
  kind : Nat
  target : Nat
  ks : Nat
  repcl : Nat
  c0 : Bool
  owner : Nat
  /-- Instance generation of the owner when the frame was classified (R328). -/
  igen : Nat
  q : Nat
  dest : Nat
  cells : Nat
  /-- Stamp of the admission, and the count of stream-table changes before the classification (R215). -/
  at_ : Nat
  epoch : Nat
  refs : Nat
  /-- Redundancy sequence numbers by pair (R220). -/
  rseq : List (Nat × Nat)
  /-- Egress descriptor (R225): STAMP, TAG, launch time and ring of origin. -/
  stamp : Bool
  tag : Nat
  launch : Option Nat
  ring : Nat
  deriving DecidableEq, Repr

/-- A destination a frame waits for (R218). -/
structure Residue where
  handle : Nat
  dest : Nat
  t0 : Nat
  deriving DecidableEq, Repr

/-- An entry of the die-N stream cache (R212) with its token bucket (R216): `level` in units of RLIM-ticks. -/
structure StreamEnt where
  idx : Nat
  raw : List Byte
  locked : Bool
  level : Nat
  at_ : Nat
  deriving DecidableEq, Repr

/-- An entry of a pair's duplicate table (R220). -/
structure DupEnt where
  pair : Nat
  sa : Nat
  seq : Nat
  t : Nat
  /-- Entered because the module sent the frame. -/
  own : Bool
  deriving DecidableEq, Repr

/-- A frame on its way out of a port: what the wire carries, the switch handle (none for a frame of the Clasp logic) and
the time stamp to queue. -/
structure TxNow where
  bytes : List Byte
  handle : Option Nat
  start : Nat
  stamp : Option TsqEntry
  deriving DecidableEq, Repr

/-- The CSMA/CD sender of P12 (R205): collisions of the frame in hand and the end of its back-off wait. -/
structure T1s where
  n : Nat
  until_ : Option Nat
  deriving DecidableEq, Repr

/-- The switch core. Queue 8 · d + q belongs to destination d = 0 to 14. -/
structure Net where
  bufs : List (Nat × NetFrame)
  queues : Vector (List Nat) 120
  resid : List Residue
  missq : List NetFrame
  /-- Most recently used first. -/
  cache : List StreamEnt
  /-- Changes of the stream table and the lowest skip code of an ACTIVATE in progress. -/
  epoch : Nat
  actErr : Option Nat
  /-- VLAN entries that have been written: VID, MEMBER, UNTAG (R207). -/
  vlans : List (Nat × (Nat × Nat))
  /-- The replay reserve, oldest first, and the frames of a replay still to be sent (R221, R222). -/
  reserve : List NetFrame
  replayQ : List NetFrame
  /-- Octets received and sent per port (R230). -/
  oct : Vector (Nat × Nat) 13
  dups : List DupEnt
  pairSeq : List (Nat × Nat)
  /-- Selected frames per mirror session (R226). -/
  mirSel : Vector Nat 4
  tx : Vector (Option TxNow) 13
  /-- Launch-time frames that have reached their port: port and handle (R50). -/
  arriving : List (Nat × Nat)
  /-- The auditor's next handle and the handles unreferenced at its previous visit (R219). -/
  audNext : Nat
  audSeen : List Nat
  t1s : T1s
  deriving DecidableEq, Repr

/-- A frame in a Clasp forward buffer (R308): its bytes, its receive stamp, its arrival stamp and its AGE. -/
structure ClaspFwd where
  bytes : List Byte
  ts : Nat
  at_ : Nat
  deriving DecidableEq, Repr

/-- A Clasp frame the module originates, waiting at a port, with the time stamp its egress descriptor asks for. -/
structure ClaspOwn where
  bytes : List Byte
  stamp : Option TsqEntry
  deriving DecidableEq, Repr

/-- The Clasp logic (R304 to R317). -/
structure Clasp where
  /-- The origin's 32-bit frame counter (R305). -/
  seq : Nat
  routes : List (Nat × Nat)
  /-- Duplicate table of rings: SRC, SEQ and the stamp of the entry (R311). -/
  dups : List (Nat × Nat × Nat)
  fwd : Vector (List ClaspFwd) 4
  /-- Frames that the module originates and that wait at a port. -/
  own : Vector (List ClaspOwn) 4
  /-- Per port: SEQ bits 15:0 of the last ECHOREQ, its transmit stamp t1 once sent, and periods without a response. -/
  echo : Vector (Option (Nat × Option Nat)) 4
  miss : Vector Nat 4
  deriving DecidableEq, Repr

/-- The switch core after reset. -/
def net0 : Net :=
  { bufs := [], queues := Vector.replicate 120 [], resid := [], missq := [], cache := [], epoch := 0, actErr := none,
    vlans := [], reserve := [], replayQ := [], oct := Vector.replicate 13 (0, 0), dups := [], pairSeq := [],
    mirSel := Vector.replicate 4 0, tx := Vector.replicate 13 none, arriving := [], audNext := 0, audSeen := [],
    t1s := ⟨0, none⟩ }

/-- The Clasp logic after reset. -/
def clasp0 : Clasp :=
  { seq := 0, routes := [], dups := [], fwd := Vector.replicate 4 [], own := Vector.replicate 4 [],
    echo := Vector.replicate 4 none, miss := Vector.replicate 4 0 }

end Sys2Proof.Machine
end

