-- ==== Sys2Proof/Machine/TypesIo.lean ====
section
/-! DEFINITION. The state of the backplane I/O bus, the identity bus and the DTRIP logic beside their registers (spec file
17), as plain data. -/
namespace Sys2Proof.Machine

/-- A CAN controller: its message objects (96 bytes each, unlisted ones all zero) and the data each transmit object last
sent (R442, R447). -/
structure CanCtl where
  objs : List (Nat × List Byte)
  sent : List (Nat × List Byte)
  /-- Receive objects that got a frame since their group's block was written (FLAGS.OLD of R447). -/
  fresh : List Nat
  deriving DecidableEq, Repr

/-- A command on a trip line: value, task and stamp (R451). -/
structure TripCmd where
  val : Bool
  task : Nat
  t : Nat
  deriving DecidableEq, Repr

/-- The I/O blocks. -/
structure IoState where
  can : Vector CanCtl 2
  /-- I/O group entries (16 bytes each) and the SEQ of each input group's block. -/
  groups : List (Nat × List Byte)
  gseq : List (Nat × Nat)
  /-- Identity records last read per slot, and slots that passed and wait for the bus idle (R449). -/
  recs : List (Nat × List Byte)
  passed : List Nat
  /-- Cages whose V3P3 feed is cut (R490). -/
  noFeed : List Nat
  lastTrip : Vector (Option TripCmd) 8
  /-- Edge history of the digital lines, newest first, at most 64 per line: DMASK bit of R393, stamp, level (R394). -/
  edges : List (Nat × Nat × Bool)
  /-- Lines changed since the last write to each binary-input destination, and its SEQ (R456). -/
  biChg : Vector Nat 4
  biSeq : Vector Nat 4
  /-- Stamp of the newest debounced change. -/
  biTime : Nat
  /-- Cross-trigger lines held by an acquisition pulse (R457). -/
  xtPulse : Nat
  deriving DecidableEq, Repr

/-- The I/O blocks after reset. -/
def io0 : IoState :=
  { can := Vector.replicate 2 ⟨[], [], []⟩, groups := [], gseq := [], recs := [], passed := [], noFeed := [],
    lastTrip := Vector.replicate 8 none, edges := [], biChg := Vector.replicate 4 0, biSeq := Vector.replicate 4 0,
    biTime := 0, xtPulse := 0 }

end Sys2Proof.Machine
end

