-- ==== Sys2Proof/Machine/TypesSfe.lean ====
section
/-! DEFINITION. The state of the sample front end (spec file 08), as plain data: its tables, the assembly and chain state
of the live and of the replay context, detectors, phasor channels and what it hands to other blocks. -/
namespace Sys2Proof.Machine

/-- An input entry (R236) with the decoder's memory of its stream (R237, R240). -/
structure SfeInput where
  gen : Nat
  v : Bool
  c0 : Bool
  sim : Bool
  nch : Nat
  rate : Nat
  nasdu : Nat
  member : Nat
  group : Nat
  confRev : Nat
  slot0 : Nat
  used : Nat
  /-- The confRev last received. -/
  lastConf : Option Nat
  deriving DecidableEq, Repr

/-- A group entry (R241). A destination is its cluster, lane and byte offset. -/
structure SfeGroup where
  gen : Nat
  v : Bool
  c0 : Bool
  localOk : Bool
  reqSync : Bool
  zero : Bool
  nmem : Nat
  win : Nat
  hmax : Nat
  nout : Nat
  odiv : Nat
  hdep : Nat
  outF : Bool
  loss : Nat
  dests : List (Nat × Nat × Nat)
  deriving DecidableEq, Repr

/-- A channel entry (R248). A stage is its coefficient set and decimation factor. -/
structure SfeChan where
  gen : Nat
  v : Bool
  c0 : Bool
  gain : Int
  ofs : Int
  pdly : Nat
  stgs : List (Nat × Nat)
  det : Nat
  detThr : Nat
  deriving DecidableEq, Repr

/-- A coefficient set (R250); no taps means unstaged. -/
structure SfeCoef where
  gen : Nat
  minPhase : Bool
  gdMin : Nat
  taps : List Int
  deriving DecidableEq, Repr

/-- A sample of a phasor channel's history: its tag, its conditioned value and its quality code. -/
structure PhSample where
  tag : Nat
  y : Int
  q : Nat
  deriving DecidableEq, Repr

/-- A phasor entry (R253) and its history, newest first. -/
structure SfePhasor where
  gen : Nat
  v : Bool
  mClass : Bool
  hz60 : Bool
  ring : Bool
  conc : Bool
  fs : Nat
  slot : Nat
  srcNo : Nat
  hist : List PhSample
  deriving DecidableEq, Repr

/-- A detector's window of magnitudes, newest first, its value and its trigger line (R252). -/
structure SfeDet where
  win : List Nat
  r : Nat
  line : Bool
  deriving DecidableEq, Repr

/-- The chain state of a channel (R248 to R250): the newest samples, newest first, each stage's inputs, the quality codes
within the settle span and the samples since the state was cleared. -/
structure ChainSt where
  xs : List Int
  stg : List (List Int)
  quals : List Nat
  n : Nat
  deriving DecidableEq, Repr

/-- What a member delivered for a set: per channel slot its value and quality code. -/
structure SetMember where
  member : Nat
  vals : List (Nat × Int × Nat)
  deriving DecidableEq, Repr

/-- An open sample set (R242). It keeps the group entry under which it opened (R258). -/
structure OpenSet where
  tag : Nat
  n : Nat
  rate : Nat
  deadline : Nat
  grp : SfeGroup
  mems : List SetMember
  /-- Ticket VMID and instance generation of its newest frame (R328). -/
  owner : Nat
  igen : Nat
  /-- Count of table changes before it opened (R258). -/
  epoch : Nat
  deriving DecidableEq, Repr

/-- The assembly state of a group: open sets, tag, sample count and rate of the newest closed set, outputs since the entry became valid,
last received value per channel slot, consecutive substituted sets per member, and the newest output's tag. -/
structure GroupSt where
  sets : List OpenSet
  last : Option (Nat × Nat × Nat)
  seq : Nat
  hold : List (Nat × Int)
  miss : List (Nat × Nat)
  out : Option Nat
  deriving DecidableEq, Repr

/-- A processing context: live or replay (R261). `prev` is the previous sample count per input (R240). -/
structure SfeCtx where
  groups : List (Nat × GroupSt)
  chains : List (Nat × ChainSt)
  prev : List (Nat × Nat)
  deriving DecidableEq, Repr

/-- A group output whose writes are not all acknowledged: the token it will send and its destination clusters (R247). -/
structure Completion where
  group : Nat
  clusters : List Nat
  tok : Token
  epoch : Nat
  deriving DecidableEq, Repr

/-- What a live sample tells the recorders (R394, R395): slot, tag, conditioned value, chain output, quality code and a
change of the slot's trigger line. -/
structure SfeOut where
  slot : Nat
  tag : Nat
  cond : Int
  chain : Option Int
  q : Nat
  edge : Option Bool
  deriving DecidableEq, Repr

/-- A phasor record on its way to concentrator ingest (R256): source number, time, flags and the words of its record. -/
structure ConcRec where
  srcNo : Nat
  time : Nat
  flags : Nat
  words : List Nat
  deriving DecidableEq, Repr

/-- The sample front end. -/
structure Sfe where
  inputs : List (Nat × SfeInput)
  groups : List (Nat × SfeGroup)
  chans : List (Nat × SfeChan)
  phasors : List (Nat × SfePhasor)
  coefs : List (Nat × SfeCoef)
  live : SfeCtx
  /-- The replay context with the cluster it serves. -/
  replay : Option (Nat × SfeCtx)
  dets : List (Nat × SfeDet)
  /-- Groups whose loss has been logged (R244). -/
  lost : List Nat
  compl : List Completion
  outbox : List SfeOut
  conc : List ConcRec
  /-- Table changes so far (R258). -/
  epoch : Nat
  /-- Outputs of the live context that a replay can meet (R261): each group's newest when the replay began, and all since. -/
  met : List (Nat × Nat)
  deriving DecidableEq, Repr

/-- A context with nothing received. -/
def sfeCtx0 : SfeCtx := ⟨[], [], []⟩

/-- The sample front end after reset (R257). -/
def sfe0 : Sfe := ⟨[], [], [], [], [], sfeCtx0, none, [], [], [], [], [], 0, []⟩

end Sys2Proof.Machine
end

