-- ==== Sys2Proof/Machine/TypesWams.lean ====
section
/-! DEFINITION. The state of the wide-area concentrator (spec file 09), as plain data. Binary32 values are words. -/
namespace Sys2Proof.Machine

/-- A block descriptor (R266). -/
structure WBlock where
  fmt : Nat
  raw : Bool
  ph : Nat
  an : Nat
  dg : Nat
  sig : Nat
  bstat : Nat
  deriving DecidableEq, Repr

/-- An input entry (R265). -/
structure WInput where
  gen : Nat
  v : Bool
  exp : Bool
  cont : Bool
  feed : Bool
  idcode : Nat
  next : Nat
  fsize : Nat
  fs : Nat
  timebase : Nat
  blks : List WBlock
  deriving DecidableEq, Repr

/-- A local source entry (R270). -/
structure WLocal where
  gen : Nat
  v : Bool
  exp : Bool
  raw : Bool
  fs : Nat
  sig : Nat
  bstat : Nat
  deriving DecidableEq, Repr

/-- A block reference of an output list (R282). -/
structure WRef where
  sig : Nat
  bstat : Nat
  ph : Nat
  an : Nat
  dg : Nat
  fnom : Nat
  deriving DecidableEq, Repr

/-- An output entry with the module's copy of its list (R282). -/
structure WOutput where
  gen : Nat
  v : Bool
  polar : Bool
  fs : Nat
  idcode : Nat
  ports : Nat
  tc : Nat
  tpl : List Byte
  refs : List WRef
  deriving DecidableEq, Repr

/-- What R285 keeps of a detector. -/
structure Persist where
  run : Nat
  active : Bool
  deriving DecidableEq, Repr

/-- A modal group (R286, R287). `hist` holds one column of member values per sample, newest first. -/
structure Modal where
  gen : Nat
  v : Bool
  alm : Bool
  dec : Nat
  nbin : Nat
  nw : Nat
  evdiv : Nat
  persist : Nat
  flo : Nat
  fhi : Nat
  zmin : Nat
  amin : Nat
  /-- Feed slot, UNWRAP and weight of each member. -/
  mems : List (Nat × Bool × Nat)
  hist : List (List Nat)
  last : List Nat
  lastRaw : List Nat
  seen : List Bool
  count : Nat
  per : Persist
  /-- FREQ, ZETA, AMP and the member of largest shape magnitude of the last evaluation. -/
  res : Nat × Nat × Nat × Nat
  seq : Nat
  deriving DecidableEq, Repr

/-- The coherency clusterer (R290, R291). -/
structure Coherency where
  gen : Nat
  v : Bool
  alm : Bool
  cdiv : Nat
  ash : Nat
  minsz : Nat
  persist : Nat
  gap : Nat
  /-- Feed slot of each member with V = 1. -/
  mems : List (Nat × Nat)
  fs : List (Nat × Nat)
  reported : List (Nat × Nat)
  prevcand : List (Nat × Nat)
  cnt : Nat
  seq : Nat
  deriving DecidableEq, Repr

/-- A monitor (R293). -/
structure Monitor where
  gen : Nat
  v : Bool
  alm : Bool
  kind : Nat
  div : Nat
  fa : Nat
  fb : Nat
  persist : Nat
  hi : Nat
  lo : Nat
  per : Persist
  prev : Option Nat
  val : Nat
  seq : Nat
  deriving DecidableEq, Repr

/-- An open bucket (R279) with what the module keeps on die: presence of inputs and local sources, and feed slots with
their value and validity (R284). -/
structure Bucket where
  key : Nat
  nexp : Nat
  narr : Nat
  deadline : Nat
  complete : Bool
  ins : List Nat
  locs : List Nat
  feeds : List (Nat × Nat × Bool)
  epoch : Nat
  deriving DecidableEq, Repr

/-- A slot of the alignment store that is open or closed: its key, whether it is closed and its late fills (R276). -/
structure WSlot where
  key : Nat
  closed : Bool
  nlate : Nat
  deriving DecidableEq, Repr

/-- A closed bucket whose alarm frame is not built yet (R296). -/
structure PendClose where
  tag : Nat
  close : Nat
  seq : Nat
  recs : List (List Byte)
  epoch : Nat
  deriving DecidableEq, Repr

/-- A kernel ticket (R298, R299). `st` is the alk.poll code. -/
structure Ticket where
  id : Nat
  st : Nat
  pc : Nat
  sp : Nat
  arg : Nat
  atCloses : Bool
  alm : Bool
  bdiv : Nat
  count : Nat
  maxt : Nat
  vmid : Nat
  asid : Nat
  st1root : Nat
  st2root : Nat
  /-- Closes counted toward BDIV, and activations ended. -/
  closes : Nat
  done : Nat
  /-- A due activation: slot and SEQ of the closed bucket. -/
  due : Option (Nat × Nat)
  cancel : Bool
  deriving DecidableEq, Repr

/-- The concentrator. -/
structure Wams where
  inputs : List (Nat × WInput)
  locals_ : List (Nat × WLocal)
  outputs : List (Nat × WOutput)
  modals : List (Nat × Modal)
  coh : Coherency
  monitors : List (Nat × Monitor)
  /-- The signal cache (R272): index, the 32 bytes of the entry, newest first. -/
  sigs : List (Nat × List Byte)
  /-- Signal indices whose mismatch has been logged since their entry last changed. -/
  sigmis : List Nat
  open_ : List Bucket
  slots : List (Nat × WSlot)
  lastClosed : Option Nat
  seq : Nat
  almSeq : Nat
  pend : List PendClose
  /-- Edges of detector resets, and kernel records with their VMID, for the next frame. -/
  resets : List (List Byte)
  krecs : List (Nat × List Byte)
  tickets : List Ticket
  nextTicket : Nat
  /-- Ticket numbers with a due activation, first come first. -/
  kq : List Nat
  /-- Frames and records discarded at die F while PD_WAMS is off (R302). -/
  offDrop : Nat
  epoch : Nat
  deriving DecidableEq, Repr

/-- The clusterer after reset. -/
def coherency0 : Coherency := ⟨0, false, false, 1, 0, 1, 1, 0, [], [], [], [], 0, 0⟩

/-- The concentrator after reset. -/
def wams0 : Wams :=
  { inputs := [], locals_ := [], outputs := [], modals := [], coh := coherency0, monitors := [], sigs := [], sigmis := [],
    open_ := [], slots := [], lastClosed := none, seq := 0, almSeq := 0, pend := [], resets := [], krecs := [],
    tickets := [], nextTicket := 0, kq := [], offDrop := 0, epoch := 0 }

end Sys2Proof.Machine
end

