-- ==== Sys2Proof/Machine/TypesSys.lean ====
section
/-! DEFINITION. The state of the power controller, of the Locket and of keys, fuses and boot (spec files 13, 15, 16 and
18) beside their registers, as plain data. -/
namespace Sys2Proof.Machine

/-- A power-up waiting at the inrush governor (R361): its class, its item (domain, or 16 + unit) and the steps of its
stages not yet granted, in mA. -/
structure GovReq where
  cls : Nat
  item : Nat
  steps : List Nat
  deriving DecidableEq, Repr

/-- What a retention bank of the module holds (R368): registers, the contexts of M0 to M3, VLAN and route entries, and
output entries are kept as their own data. -/
structure RetImage where
  regs : List (Nat × Nat)
  ctxs : List (Bank × KRegs × SRegs)
  /-- Which of M0 to M3 were still in reset. -/
  held : List Bool
  vlans : List (Nat × (Nat × Nat))
  routes : List (Nat × Nat)
  wouts : List (Nat × WOutput)
  deriving DecidableEq, Repr

/-- How far standby is (R373). -/
inductive Standby where
  /-- No standby. -/
  | no
  /-- Accepted; the management lanes are waited for. -/
  | wait
  /-- PD_FAB is going to, or in, RET. -/
  | asleep
  /-- A wake has begun and PD_FAB is not ON yet. -/
  | waking
  deriving DecidableEq, Repr

/-- The power controller (R356 to R379). -/
structure Power where
  gov : List GovReq
  /-- Stages granted in the last 20 µs: stamp, step in mA and item (R360). -/
  grants : List (Nat × Nat × Nat)
  /-- The domain of the PWR_DCMD in progress. -/
  cmd : Option Nat
  /-- Target states of the domains that are changing. -/
  target : List (Nat × Nat)
  /-- A_c in nJ (R363). -/
  acct : Vector Int 5
  /-- Power readings since PMEAS was last written, in mW, and the ticks read (R382). -/
  sums : Vector Nat 5
  ticks : Nat
  /-- Highest junction temperature in °C as last read. -/
  th : Int
  /-- A junction rose above 125 °C and th has not yet fallen to TSOFT (R367). -/
  hot : Bool
  standby : Standby
  /-- What the module's retention banks 0 to 6 hold. -/
  images : Vector RetImage 7
  /-- The final event of a hold-up has been logged (R374). -/
  finalLogged : Bool
  /-- Half the watchdog period has passed without a kick (R474). -/
  wdHalf : Bool
  /-- A lane was retired and POWER has not been taken since (R339). -/
  retireNote : Bool
  deriving DecidableEq, Repr

/-- The legal registers of a metering point (R409) and what the Locket keeps to fill them: misses of the last 60 seconds,
newest first, whether this second brought a sample and a missing or invalid one, and the last smpCnt of both streams. -/
structure LPoint where
  state : Nat
  time : Nat
  eimp : Nat
  eexp : Nat
  eq1 : Nat
  eq2 : Nat
  eq3 : Nat
  eq4 : Nat
  es : Nat
  dem : Nat
  dmax : Nat
  dmaxt : Nat
  dint : Nat
  misss : Nat
  hist : List Bool
  got : Bool
  miss : Bool
  lastV : Option Nat
  lastI : Option Nat
  deriving DecidableEq, Repr

/-- An entry of the seal log (R413). -/
structure SealEntry where
  time : Nat
  kind : Nat
  num : Nat
  sum : Nat
  deriving DecidableEq, Repr

/-- The Hallmark record (R413); byte strings are numbers, first byte highest. -/
structure Hallmark where
  serial : Nat
  dieid : Nat
  fwver : Nat
  fwlen : Nat
  fwsum : Nat
  parsum : Nat
  opened : Bool
  nseal : Nat
  lastseal : Nat
  npchg : Nat
  nfw : Nat
  certid : Nat
  deriving DecidableEq, Repr

/-- The feed, the mailbox pair and the Locket card (R402 to R418). -/
structure Locket where
  /-- Copies in the feed buffer, oldest first (R406). -/
  feed : List (List Byte)
  /-- Requests the card has received and not answered, and responses on their way, oldest first (R411). -/
  requests : List (List Byte)
  responses : List (List Byte)
  /-- The card has supply. -/
  on : Bool
  clock : Nat
  /-- The seal switch is in SEALED. -/
  sealed_ : Bool
  legalOk : Bool
  hall : Hallmark
  log : List SealEntry
  /-- Parameter block: the header's 64 bytes, then 32 entries of 64. -/
  params : Mem
  /-- Staged entries: 0 to 31, or 0xFF for the header. -/
  staged : List (Nat × List Byte)
  /-- Firmware in use, the image a commit has put in place, and the staged one: contents and length. -/
  fw : Mem × Nat
  fwNext : Mem × Nat
  fwStage : Mem × Nat
  points : List LPoint
  /-- The last periodic and final saves in NOR flash (R410). -/
  periodic : List LPoint
  final : Option (List LPoint)
  deriving DecidableEq, Repr

/-- Fuses, the challenge of R421, and what the boot ROM found (R431, R463). -/
structure Security where
  /-- The masks of the key slots (R423, R428). -/
  masks : Vector Nat 64
  /-- Fused life-cycle state, fuse root, boot-key entries, SVN: they outlive every reset. -/
  life : Nat
  fuseRoot : Option Nat
  bootKeys : Vector Nat 4
  prog : Nat
  rev : Nat
  svn : Nat
  /-- A challenge has been loaded and not consumed. -/
  chal : Bool
  /-- Wrong responses since the last power-on reset. -/
  wrong : Nat
  /-- The state an accepted transition programs. -/
  next : Option Nat
  /-- KEYIDX (0xFF for none) and SVN of the running image, and its ENTRY. -/
  runKey : Nat
  runSvn : Nat
  runEntry : Nat
  /-- Domains whose memories wait to be wiped at their next power-up (R434). -/
  pendWipe : List Nat
  deriving DecidableEq, Repr

/-- An empty retention image. -/
def retImage0 : RetImage := ⟨[], [], [], [], [], []⟩

/-- The power controller after reset; each A_c is set when its domain comes on (R363). -/
def power0 : Power :=
  { gov := [], grants := [], cmd := none, target := [], acct := Vector.replicate 5 0, sums := Vector.replicate 5 0,
    ticks := 0, th := 0, hot := false, standby := .no, images := Vector.replicate 7 retImage0, finalLogged := false,
    wdHalf := false, retireNote := false }

/-- A point that is not used. -/
def lpoint0 : LPoint :=
  ⟨0, 0, 0, 0, 0, 0, 0, 0, 0, 0, 0, 0, 0, 0, [], false, false, none, none⟩

/-- A card with no parameters and an empty image: the values the spec gives no start for (assumption 5). The two sums are
the SHA-256 of no bytes and of 2 112 zero bytes. -/
def locket0 : Locket :=
  { feed := [], requests := [], responses := [], on := true, clock := 0, sealed_ := true, legalOk := true,
    hall := ⟨0, 0, 0, 0, 0xE3B0C44298FC1C149AFBF4C8996FB92427AE41E4649B934CA495991B7852B855,
            0x80B67B115F8E28F3B67FDDCD4CD1DAAC24A054603D1DD0CB13793A299A5DADFC, false, 0, 0, 0, 0, 0⟩,
    log := [], params := [], staged := [], fw := ([], 0), fwNext := ([], 0), fwStage := ([], 0),
    points := List.replicate 32 lpoint0, periodic := List.replicate 32 lpoint0,
    final := some (List.replicate 32 lpoint0) }

/-- Fuses of a part in state RAW (assumption 3). -/
def security0 : Security :=
  { masks := Vector.replicate 64 0, life := 0, fuseRoot := none, bootKeys := Vector.replicate 4 0, prog := 0, rev := 0, svn := 0, chal := false,
    wrong := 0, next := none, runKey := 0xFF, runSvn := 0, runEntry := 0, pendWipe := [] }

end Sys2Proof.Machine
end

