-- ==== Sys2Proof/Machine/State.lean ====
section
/-! DEFINITION. The machine's state as plain data: the register store, the memories, the lanes and dispatchers, every
engine's own state, the last bus completion, the model's free-value counter and the queue of waiting commands. -/
namespace Sys2Proof.Machine

/-- The variants of the module (R1). -/
inductive Variant where
  | f | p | e
  deriving DecidableEq, Repr

/-- What the Bezel and the power controller hold beside the BEZEL registers (R140 to R145). -/
structure Bezel where
  /-- The beat rate in MHz that the Bezel has reached; the target of a glide is BEZEL_BEAT.RATE. -/
  rate : Nat
  /-- The point a ramp goes to. -/
  ramp : Option Nat
  deriving DecidableEq, Repr

/-- The state of the module. -/
structure State where
  variant : Variant
  /-- Register fields that differ from their reset value or have been written, by bit address (Machine/RegMap.lean). -/
  regs : List (Nat × Nat)
  /-- Every memory of the physical address map, by canonical physical address. -/
  mem : Mem
  /-- Publisher memory on die N (R322). -/
  pubMem : Mem
  /-- Retention memory (R25). -/
  retMem : Mem
  /-- Managed flash (R463). -/
  flash : Mem
  /-- Addresses, divided by 8, of the words with an uncorrectable error (R497). -/
  ecc : List Nat
  /-- Addresses, divided by 8, of the words whose next reads are corrected (check 10 of R339). -/
  cecc : List Nat
  tb : TimeBase
  /-- TB cycles since the start of the last reset of a kind other than lane reset (R462). -/
  since : Nat
  lanes : Vector Lane 52
  dlogs : Vector DirtyLog 5
  bezel : Bezel
  tasks : List (Nat × Task)
  /-- Completion tokens at each physical group's event controller, oldest first (R247). -/
  tokens : Vector (List Token) 5
  arbs : List (Nat × Arbiter)
  /-- Units of each VC0 source that wait for the next reservation frame (R161). -/
  resv : Vector Nat 8
  vpis : Vector Vpi 64
  pubs : List (Nat × Pub)
  subs : List (Nat × Sub)
  fo : Failover
  log : EventLog
  recs : Vector Recorder 32
  net : Net
  /-- The 256-bit values of the key slots (R423). -/
  keys : Vector Nat 64
  clasp : Clasp
  io : IoState
  sfe : Sfe
  wams : Wams
  power : Power
  locket : Locket
  sec : Security
  /-- The completion of the last fabric access: its response and the word a read returned (R471). -/
  resp : Rsp
  rdata : Nat
  /-- MODEL: how many free values have been drawn (assumption 1). -/
  draws : Nat
  /-- MODEL: the commands that wait, first in, first out. -/
  pending : List Instr
  deriving DecidableEq, Repr

/-- Why the model stops. No meaning of this model raises it: the spec gives every command an effect. Safe. -/
inductive Fault where
  /-- Raised by no meaning. Safe. -/
  | unused
  deriving DecidableEq, Repr

/-- Why the model refuses a command. -/
inductive Refusal where
  /-- Raised by the dispatcher for a command whose meaning is not written yet; `mnemonic` names it. Safe. -/
  | notModelled (mnemonic : String)
  deriving DecidableEq, Repr

/-- What a meaning answers. -/
abbrev Result := Host.Outcome State Fault Refusal

/-- A bank after reset: STATUS in mode S with translation off (R74), every register the spec gives no value for 0
(assumption 3). -/
def bank0 : Bank :=
  { pc := 0, g := Vector.replicate 32 0, v := Vector.replicate 16 0, ac := Vector.replicate 2 ⟨0, 0⟩, lastResp := 0,
    fcsr := 0, imgI := 0, imgQ := 0, imgM := 0,
    status := { xoff := true, timed := false, mode := .s, exl := false, bet := false, ie := false },
    vmid := 0xFF, snap := 0, sbuf := [] }

/-- K's registers after reset (R72). -/
def kregs0 : KRegs := ⟨0, 0, 0, 0, 0, 0, 0, 0, 0, 0⟩

/-- S's registers after reset (R72). -/
def sregs0 : SRegs := ⟨0, 0, 0, 0, 0, 0, 0⟩

/-- A deficit arbiter after reset (R165). -/
def deficit0 : Deficit := ⟨List.replicate 65 0, 0⟩

/-- A lane after lane reset, in state `st`. -/
def lane0 (st : LaneSt) : Lane :=
  { st := st, halted := false, retired := false, gated := false, inG := false, f := bank0, g := bank0, k := kregs0,
    sr := sregs0, ipi := none, beatcnt := 0, g0cause := 0, g0epc := 0, g0eval := 0, winBeats := 0, out := none,
    posted := [], tlb := [], pins := Vector.replicate 16 none, edges := [], cur := none, ctxs := [], arb2 := deficit0,
    arb3 := deficit0, srcs := Vector.replicate 4 ⟨false, 0, 0⟩, entries := [], waits := Vector.replicate 4 none,
    cgroups := [],
    run := none, ticket := none }

/-- The lane state after reset: cluster lanes and analytic lanes are off with their domains, M0 runs at the boot ROM
entry, M1 to M3 stay in reset (R461). -/
def laneReset (i : Nat) : Lane :=
  if i = 40 then lane0 .running else if 41 ≤ i ∧ i < 44 then lane0 .reset else lane0 .off

/-- An empty VPI entry (V = 0). -/
def vpiEntry0 : VpiEntry := ⟨0, false, 1, 0, 0, 0, 0, 0, 0, 0, 0, 0, 0, 0, 0, 0⟩

/-- A VPI after reset (R320). -/
def vpi0 : Vpi := { ent := vpiEntry0, st := .off, igen := 0, oldW := none, freezing := false, spoofAt := none }

/-- A recorder after reset. -/
def rec0 : Recorder :=
  { ent := ⟨0, false, false, false, 0, 0, 0, 0, 0, 0, 0, 0, 0, 0, [], [], []⟩, st := .off, seg := 0, segs := [], order := [],
    next := 0, pend := [], lost := [], rows := 0, ring := 0, qors := [], kTrig := 0, postLeft := 0, ttrig := 0, tfrac := 0,
    term := 0, tsrc := 0, rtrigs := [], nrtrig := 0, firstIdx := 0, t0 := 0, qor := 0, loss := false, snapVals := [],
    recSeq := 0 }

/-- The event log after power-on reset (R392). -/
def eventLog0 : EventLog :=
  { queue := [], slots := [], parts := Vector.replicate 65 ⟨0, 0, 0, false, 1, 1⟩,
    views := Vector.replicate 65 ⟨none, 0, []⟩ }

/-- The time base at power-on reset (R32). -/
def timeBase0 : TimeBase :=
  { count := 0, incr := 0x40000000, incrPend := none, sharedSnap := 0, tsq := [],
    tdc := Vector.replicate 8 ⟨[], none⟩, launch := Vector.replicate 13 [] }

/-- The failover engine at reset. -/
def failover0 : Failover :=
  { ovrAt := Vector.replicate 5 [], ceccAt := Vector.replicate 5 [], tDecide := 0, tPower := 0, tRestore := 0,
    tReplay := 0, failed := 0, liveLeft := [], revokePend := false }

/-- Register fields whose reset value the variant decides, and the supply inputs, both in range (assumption 37). -/
def variantRegs (v : Variant) : List (Nat × Nat) :=
  [(Reg.PWR_STAT_INA.key, 1), (Reg.PWR_STAT_INB.key, 1),
   (Reg.PWR_PBUDGET_P.key, match v with
     | .f => 5400
     | .p => 4300
     | .e => 2900)]

/-- The machine right after power-on reset. -/
def State.reset : State :=
  { variant := .f, regs := variantRegs .f, mem := [], pubMem := [], retMem := [], flash := [], ecc := [], cecc := [], tb := timeBase0, since := 0,
    lanes := Vector.ofFn (fun i => laneReset i.val), dlogs := Vector.replicate 5 ⟨0, false, false, 0, 0, 0⟩,
    bezel := { rate := 200, ramp := none }, tasks := [], tokens := Vector.replicate 5 [], arbs := [], resv := Vector.replicate 8 0,
    vpis := Vector.replicate 64 vpi0, pubs := [], subs := [], fo := failover0, log := eventLog0,
    recs := Vector.replicate 32 rec0, net := net0, keys := Vector.replicate 64 0, clasp := clasp0, io := io0, sfe := sfe0, wams := wams0,
    power := power0, locket := locket0, sec := security0, resp := .ok, rdata := 0, draws := 0, pending := [] }

end Sys2Proof.Machine
end

