-- ==== Sys2Proof/Machine/Ops.lean ====
section
/-! DEFINITION. The shared operations: register fields, memory, time, the physical address map with its error responses
(R469 to R473), the event log's input queue (R386) and access to lanes and tasks. -/
namespace Sys2Proof.Machine

open Reg

/-! ### Register fields -/

/-- The value of a register field. -/
def State.fget (s : State) (f : Fld) : Nat := (alookup f.key s.regs).getD f.reset

/-- A one-bit field as a truth value. -/
def State.fbit (s : State) (f : Fld) : Bool := s.fget f != 0

/-- Sets a register field, cut to its width. -/
def State.fset (f : Fld) (v : Nat) (s : State) : State :=
  { s with regs := ainsert f.key (v % 2 ^ f.width) s.regs }

/-- Sets a one-bit field. -/
def State.fsetB (f : Fld) (b : Bool) (s : State) : State := s.fset f (b2n b)

/-- Increments a saturating counter field. -/
def State.bump (f : Fld) (s : State) : State := s.fset f (satInc f.width (s.fget f))

/-- Adds to a saturating counter field. -/
def State.bumpBy (f : Fld) (n : Nat) (s : State) : State := s.fset f (min (s.fget f + n) (2 ^ f.width - 1))

/-- Applies an update for each element of a list, in order. -/
def State.each {α : Type} (l : List α) (f : α → State → State) (s : State) : State :=
  l.foldl (fun s a => f a s) s

/-- Applies an update when a condition holds. -/
def State.when (c : Bool) (f : State → State) (s : State) : State := if c then f s else s

/-! ### Free values -/

/-- Draws a fresh free value of `w` bits at a place of the model (assumption 1). -/
def State.draw (site w : Nat) (s : State) : Nat × State :=
  (Config.fresh site s.draws % 2 ^ w, { s with draws := s.draws + 1 })

/-! ### Time -/

/-- Units of 2⁻¹⁶ ns in a second. -/
def secUnits : Nat := 1000000000 * 65536

/-- The readable time: SEC, NS and FR as one count of 2⁻¹⁶ ns (R29). -/
def State.now (s : State) : Nat := s.tb.count / 4096

/-- `us` microseconds as a count of 2⁻¹⁶ ns. -/
def usUnits (us : Nat) : Nat := us * 1000 * 65536

/-- The NS word of a time (R30). -/
def nsWord (t : Nat) : Nat := t / 65536 % 1000000000

/-- The SECLO word of a time. -/
def secLoWord (t : Nat) : Nat := t / secUnits % 2 ^ 32

/-- The SECHI word of a time: FR above SEC bits 47:32. -/
def secHiWord (t : Nat) : Nat := t % 65536 * 65536 + t / secUnits / 2 ^ 32 % 65536

/-- The time triple of a time (R30). -/
def tripleOf (t : Nat) : List Nat := [nsWord t, secLoWord t, secHiWord t]

/-- The 12 bytes of a time triple. -/
def tripleBytes (t : Nat) : List Byte := (tripleOf t).flatMap (leBytes 4)

/-- The time a triple of words names. -/
def timeOfTriple (ns lo hi : Nat) : Nat :=
  ((hi % 65536) * 2 ^ 32 + lo) * secUnits + ns * 65536 + hi / 65536

/-- Time-base values wrap with the 48-bit second counter. -/
def wrapTime (t : Nat) : Nat := t % (2 ^ 48 * secUnits)

/-! ### Memory -/

/-- One byte of memory; an unlisted byte reads 0 (assumption 4). -/
def memGet (m : Mem) (a : Nat) : Byte :=
  match m with
  | [] => 0
  | (k, v) :: l => if k = a then v else memGet l a

/-- Reads `n` bytes from address `a` on. -/
def memRead (m : Mem) (a : Nat) : Nat → List Byte
  | 0 => []
  | n + 1 => memGet m a :: memRead m (a + 1) n

/-- The cells of bytes that stand from address `a` on: a zero byte needs none. -/
def memCells (a : Nat) : List Byte → Mem
  | [] => []
  | b :: bs => if b = 0 then memCells (a + 1) bs else (a, b) :: memCells (a + 1) bs

/-- Writes bytes from address `a` on, keeping the canonical form. -/
def memWrite (m : Mem) (a : Nat) (bs : List Byte) : Mem :=
  m.filter (fun c => decide (c.1 < a)) ++ memCells a bs ++ m.filter (fun c => decide (a + bs.length ≤ c.1))

/-- Clears a range of memory: what a wipe writes (R433). -/
def memClear (m : Mem) (a n : Nat) : Mem := m.filter (fun c => decide (c.1 < a) || decide (a + n ≤ c.1))

/-- The canonical form of a memory: addresses rise strictly and no cell holds 0. -/
def Mem.wf : Mem → Bool
  | [] => true
  | [(_, v)] => v != 0
  | (a, v) :: (b, w) :: l => v != 0 && decide (a < b) && Mem.wf ((b, w) :: l)

/-! ### Units and domains -/

/-- Cluster groups that are fitted (R1). -/
def State.clusterFitted (s : State) (g : Nat) : Bool :=
  g < 5 && (decide (s.variant ≠ .e) || (g != 2 && g != 3))

/-- Die W is fitted (R1). -/
def State.dieW (s : State) : Bool := s.variant == .f

/-- A port is fitted (R1). -/
def State.portFitted (s : State) (p : Nat) : Bool :=
  p < 13 && (decide (s.variant ≠ .e) || (p != 2 && p != 3))

/-- SFE slices fitted (R1). -/
def State.slices (s : State) : Nat := if s.variant = .e then 8 else 16

/-- SYS_VARIANT (R3). -/
def State.variantWord (s : State) : Nat :=
  match s.variant with
  | .f => 1
  | .p => 2
  | .e => 3

/-- SYS_UNITS (R4). -/
def State.unitsWord (s : State) : Nat :=
  (match s.variant with
   | .f => 0x7D
   | .p => 0x7C
   | .e => 0) + (if s.variant ≠ .p ∧ s.fbit SYS_UNITS_LOCKET then 2 else 0)

/-- The DSTATE field of a domain (R356, R382): 0 OFF, 1 ON, 2 RET, 3 TRANS. -/
def domField (d : Nat) : Fld := ⟨0xF000010010, 2 * d, 2, .ro, if d = 5 ∨ d = 6 ∨ d = 7 ∨ d = 9 then 1 else 0, .any⟩

/-- The state of a power domain. -/
def State.dom (s : State) (d : Nat) : Nat := s.fget (domField d)

/-- A domain is ON. -/
def State.domOn (s : State) (d : Nat) : Bool := s.dom d == 1

/-- The role field of FAILOVER_ROLE (R355). -/
def roleField (c : Nat) : Fld := ⟨0xF000060014, 3 * c, 3, .ro, c, .any⟩

/-- The physical group that holds role `c`; role 4 is the spare role. -/
def State.groupOf (s : State) (c : Nat) : Nat := s.fget (roleField c)

/-- The role a physical group holds: 0 to 3, or `none` while it is in the spare role. -/
def State.roleOf (s : State) (g : Nat) : Option Nat := (List.range 4).find? (fun c => s.groupOf c == g)

/-! ### Physical address map -/

/-- The regions of the physical address space (R469). -/
inductive Region where
  | dram (off : Nat)
  | sram (window off : Nat)
  | laneMem (group lane off : Nat)
  | checkpoint (off : Nat)
  | align (off : Nat)
  | block (index off : Nat)
  | rom (off : Nat)
  | hole
  deriving DecidableEq, Repr

/-- The region a physical address lies in. -/
def regionOf (a : Nat) : Region :=
  if a < 0x400000000 then .dram a
  else if 0x4000000000 ≤ a ∧ a < 0x4005000000 then
    let w := (a - 0x4000000000) / 0x1000000
    let o := (a - 0x4000000000) % 0x1000000
    if o < 0x400000 then .sram w o else .hole
  else if 0x4100000000 ≤ a ∧ a < 0x4101000000 then
    let g := (a - 0x4100000000) / 0x100000
    let l := (a - 0x4100000000) % 0x100000 / 0x20000
    let o := (a - 0x4100000000) % 0x20000
    let lanes := if g < 5 then 8 else if g = 8 then 4 else if g = 9 then 8 else 0
    if l < lanes ∧ (o < 0x8000 ∨ 0x10000 ≤ o) then .laneMem g l o else .hole
  else if 0x4800000000 ≤ a ∧ a < 0x4801800000 then .checkpoint (a - 0x4800000000)
  else if 0x5000000000 ≤ a ∧ a < 0x5080000000 then .align (a - 0x5000000000)
  else if 0xF000000000 ≤ a ∧ a < 0xF000180000 then
    .block ((a - 0xF000000000) / 0x10000) (a % 0x10000)
  else if 0xFE00000000 ≤ a ∧ a < 0xFE00010000 then .rom (a - 0xFE00000000)
  else .hole

/-- The canonical address of cluster SRAM byte `off` of physical group `g`. -/
def sramAddr (g off : Nat) : Nat := 0x4000000000 + 0x1000000 * g + off

/-- The canonical address of a lane-local byte of physical group `g`. -/
def laneMemAddr (g l off : Nat) : Nat := 0x4100000000 + 0x100000 * g + 0x20000 * l + off

/-- The canonical address of a lane's data memory. -/
def dataAddr (g l off : Nat) : Nat := laneMemAddr g l (0x10000 + off)

/-- The physical address with role windows resolved to physical groups (R469). -/
def State.canon (s : State) (a : Nat) : Nat :=
  match regionOf a with
  | .sram w o => sramAddr (s.groupOf w) o
  | .laneMem g l o => if g < 5 then laneMemAddr (s.groupOf g) l o else a
  | _ => a

/-- The domain that powers a register block (R470); 15 for always-on. -/
def blockDom (i : Nat) : Nat :=
  if i = 0 ∨ i = 1 ∨ i = 9 then 15
  else if i = 10 ∨ i = 11 ∨ i = 14 then 7
  else if i = 12 then 6
  else if i = 13 then 8
  else 5

/-- The cluster whose group a BEZEL or SCHED register belongs to (R166), or none for a global register. -/
def pacedGroup (i off : Nat) : Option Nat :=
  if i = 3 then (if 0x20 ≤ off ∧ off < 0x34 then some ((off - 0x20) / 4) else none)
  else if 0x100 ≤ off ∧ off < 0x240 then some ((off - 0x100) / 0x40) else none

/-- Cluster domains 0 to 4 of which at least one is ON (R166). -/
def State.anyClusterOn (s : State) : Bool := (List.range 5).any s.domOn

/-- The port whose register group an address of the PORT, TB or CLASP block belongs to. -/
def portGroup (i off : Nat) : Option Nat :=
  if i = 11 then some (off / 0x1000)
  else if i = 9 ∧ 0x100 ≤ off ∧ off < 0x2A0 then some ((off - 0x100) / 0x20)
  else if i = 14 ∧ 0x100 ≤ off ∧ off < 0x180 then some ((off - 0x100) / 0x20)
  else none

/-- A response with the domain of R473 (0xF none, 0xE a clock). -/
structure Gate where
  rsp : Rsp
  dom : Nat
  deriving DecidableEq, Repr

/-- Whether the target belongs to an absent unit (R7, R27), step 1 of R472. -/
def State.isAbsent (s : State) (a : Nat) : Bool :=
  match regionOf a with
  | .sram w _ => !s.clusterFitted (s.groupOf w)
  | .laneMem g _ _ => if g < 5 then !s.clusterFitted (s.groupOf g) else g == 9 && !s.dieW
  | .align _ => !s.dieW
  | .block i off =>
    (i == 13 && !s.dieW) || (i == 1 && decide (0x10C ≤ off) && decide (off < 0x12C) && !s.dieW) ||
    (i == 22 && (s.variant == .p || !s.fbit SYS_UNITS_LOCKET)) ||
    (match portGroup i off with
     | some p => p < 13 && !s.portFitted p
     | none => false) ||
    ((i == 3 || i == 4) && (match pacedGroup i off with
     | some c => !s.clusterFitted c
     | none => false)) ||
    (i == 6 && (off == 0x48 || off == 0x4C) && s.variant == .e) ||
    (i == 12 && decide (0x220 ≤ off) && decide (off < 0x240) && s.variant == .e)
  | _ => false

/-- The ticket rule of R470: what a request with VMID 0 to 63 may reach in the register region. -/
def ticketDenied (vmid i off : Nat) (write : Bool) : Bool :=
  vmid < 64 && !((i == 9 && !write) || (i == 15 && decide (0xC000 ≤ off) && decide (off < 0xC080)) ||
    (i == 21 && decide (0xC000 ≤ off) && decide (off < 0xD000)))

/-- Step 2 of R472: the address is unallocated, the access breaks R13, or the ticket rule refuses it. -/
def addrDenied (vmid a size : Nat) (write : Bool) : Bool :=
  match regionOf a with
  | .hole => true
  | .rom _ => write
  | .block i off => size != 4 || a % 4 != 0 || ticketDenied vmid i off write
  | _ => false

/-- A PLL is locked: 0 TB, 1 beat, 2 memory, 3 CAN, 4 MGT, 5 network reference (R383). -/
def State.pllOn (s : State) (n : Nat) : Bool := s.fbit (if n = 0 then CLK_PLL0_LOCK else CLK_PLL_LOCK (n - 1))

/-- The PLL that clocks a target (R20): the TB block, the PORT block, the IOBUS block and DRAM. The MGT domain runs from FIC
until it is moved. -/
def pllOf (a : Nat) : Option Nat :=
  match regionOf a with
  | .dram _ => some 2
  | .block i _ => if i = 9 then some 0 else if i = 11 then some 5 else if i = 18 then some 3 else none
  | _ => none

/-- The target's clock domain has not been started (R375). -/
def State.clockStopped (s : State) (a : Nat) : Bool :=
  match pllOf a with
  | some n => !s.pllOn n
  | none => false

/-- The domain of a target: 15 for always-on. -/
def State.targetDom (s : State) (a : Nat) : Nat :=
  match regionOf a with
  | .dram _ => 9
  | .sram w _ => s.groupOf w
  | .laneMem g _ _ => if g < 5 then s.groupOf g else if g = 9 then 8 else 5
  | .checkpoint _ => 5
  | .align _ => 8
  | .rom _ => 5
  | .block i off =>
    if i = 2 ∧ off = 0x10 then 15
    else if i = 3 ∨ i = 4 then (match pacedGroup i off with
      | some c => c
      | none => if s.anyClusterOn then 15 else 0)
    else blockDom i
  | .hole => 15

/-- Steps 1 to 3 of R472 for an access of `size` bytes. -/
def State.gate (s : State) (vmid a size : Nat) (write : Bool) : Gate :=
  if s.isAbsent a then ⟨.absent, 0xF⟩
  else if addrDenied vmid a size write then ⟨.denied, 0xF⟩
  else if s.targetDom a < 15 ∧ ¬ s.domOn (s.targetDom a) then ⟨.unpowered, s.targetDom a⟩
  else if s.clockStopped a then ⟨.unpowered, 0xE⟩
  else ⟨.ok, 0xF⟩

/-! ### Responses and the fault syndrome -/

/-- The RESP code of a response (R76). -/
def rspCode : Rsp → Nat
  | .ok => 0
  | .absent => 1
  | .unpowered => 2
  | .denied => 3
  | .timeout => 4
  | .ecc => 5

/-- The KIND code of an access (R473). -/
def accCode : AccKind → Nat
  | .read => 0
  | .write => 1
  | .fetch => 2
  | .atomic => 3
  | .engineRead => 4
  | .engineWrite => 5
  | .walk => 6

/-- The virtual channel of a request: VC3 for supervisor tickets, VC2 otherwise, VC0 from bank G (R17). -/
def reqVc (rq : Req) : Nat := if rq.bankG then 0 else if rq.vmid = 0xFF then 3 else 2

/-- The count that an error response increments (R473). -/
def rspCounter : Rsp → Fld
  | .absent => SYS_FCNT_ABS
  | .unpowered => SYS_FCNT_UNP
  | .denied => SYS_FCNT_DEN
  | .timeout => SYS_FCNT_TMO
  | _ => SYS_FECC_N

/-- Records an error response: its count, and the syndrome words when SYS_FSYND0.VALID is clear (R473). -/
def State.recordFault (rq : Req) (a : Nat) (kind : AccKind) (r : Rsp) (dom chan : Nat) (s : State) : State :=
  if r = .ok then s else
  let s := s.bump (rspCounter r)
  if s.fbit SYS_FSYND0_VALID then s else
  let s := s.fset SYS_FSYND0_VALID 1
  let s := s.fset SYS_FSYND0_RESP (rspCode r)
  let s := s.fset SYS_FSYND0_KIND (accCode kind)
  let s := s.fset SYS_FSYND0_VC (reqVc rq)
  let s := s.fset SYS_FSYND0_VMID rq.vmid
  let s := s.fset SYS_FSYND0_REQ rq.id
  let s := s.fset SYS_FSYND1_ADDRLO a
  let s := s.fset SYS_FSYND2_DOM dom
  let s := s.fset SYS_FSYND2_CHAN chan
  let s := s.fset SYS_FSYND2_ADDRHI (a / 2 ^ 32)
  s.fset SYS_FSYND3_NS (nsWord s.now)

/-- Completes the last access towards its requester (R471). -/
def State.complete (r : Rsp) (data : Nat) (s : State) : State :=
  { s with resp := r, rdata := if r = .ok then data % 2 ^ 32 else 0xFFFFFFFF }

/-- A register access: the steps of R472 before the block, then the block's own answer, then the completion with the
fault record of R473. The block answers a response, the word read and the new state. -/
def State.regAccess (rq : Req) (a size : Nat) (kind : AccKind) (write : Bool)
    (body : State → Rsp × Nat × State) (s : State) : State :=
  let g := s.gate rq.vmid a size write
  if g.rsp ≠ .ok then (s.recordFault rq a kind g.rsp g.dom 0).complete g.rsp 0
  else
    let (r, d, s') := body s
    (s'.recordFault rq a kind r 0xF 0).complete r d

/-- A write access to a register of the map. -/
def State.regWriteAccess (rq : Req) (a : Nat) (body : State → Rsp × State) (s : State) : State :=
  s.regAccess rq a 4 .write true (fun s => let (r, s') := body s; (r, 0, s'))

/-- A read access to a register of the map. -/
def State.regReadAccess (rq : Req) (a : Nat) (body : State → Nat × State) (s : State) : State :=
  s.regAccess rq a 4 .read false (fun s => let (d, s') := body s; (.ok, d, s'))

/-! ### Uncorrectable errors and raw memory -/

/-- Whether a word covering any of `n` bytes at canonical address `a` has an uncorrectable error (R497). -/
def State.eccHit (s : State) (a n : Nat) : Bool :=
  s.ecc.any (fun w => decide (w * 8 < a + n) && decide (a < w * 8 + 8))

/-- Whether a write of `n` bytes at `a` covers part of a bad word only (R497). -/
def State.eccPartial (s : State) (a n : Nat) : Bool :=
  s.ecc.any (fun w => decide (w * 8 < a + n) && decide (a < w * 8 + 8) &&
    !(decide (a ≤ w * 8) && decide (w * 8 + 8 ≤ a + n)))

/-- Engine and lane reads of memory bytes by canonical address. -/
def State.rd (s : State) (a n : Nat) : List Byte := memRead s.mem a n

/-- A little-endian number from memory. -/
def State.rdN (s : State) (a n : Nat) : Nat := leVal (s.rd a n)

/-- Writes memory by canonical address; whole bad words become good (R497). -/
def State.wr (a : Nat) (bs : List Byte) (s : State) : State :=
  { s with mem := memWrite s.mem a bs,
           ecc := s.ecc.filter (fun w => !(decide (a ≤ w * 8) && decide (w * 8 + 8 ≤ a + bs.length))),
           cecc := s.cecc.filter (fun w => !(decide (a ≤ w * 8) && decide (w * 8 + 8 ≤ a + bs.length))) }

/-- Writes a little-endian number. -/
def State.wrN (a n v : Nat) (s : State) : State := s.wr a (leBytes n v)

/-- Wipes a range of memory (R433). -/
def State.wipe (a n : Nat) (s : State) : State :=
  { s with mem := memClear s.mem a n,
           ecc := s.ecc.filter (fun w => !(decide (a ≤ w * 8) && decide (w * 8 < a + n))),
           cecc := s.cecc.filter (fun w => !(decide (a ≤ w * 8) && decide (w * 8 < a + n))) }

/-! ### Events -/

/-- CODE of a module event that concerns a register (R384). -/
def evCode (f : Fld) : Nat := f.addr / 0x10000 % 0x100 * 1024 + f.addr % 0x10000 / 4 % 1024

/-- Five argument words. -/
def argWords (args : List Nat) : List Nat := (args.map (· % 2 ^ 32) ++ List.replicate 5 0).take 5

/-- The partition of an event (R385). -/
def State.evPart (s : State) (vmid : Nat) : Nat :=
  if h : vmid < 64 then (if s.vpis[vmid].ent.v then vmid else 64) else 64

/-- The newest class-O entry of the queue removed, if there is one. -/
def dropNewestO : List Ev → Option (List Ev)
  | [] => none
  | e :: l =>
    match dropNewestO l with
    | some l' => some (e :: l')
    | none => if e.clsP then none else some l

/-- An event arrives at the input queue of 256 (R386). -/
def State.pushEv (e : Ev) (s : State) : State :=
  let put := fun (q : List Ev) (s : State) => { s with log := { s.log with queue := q } }
  let drop := fun (s : State) => (s.bump EVREC_CNT_DROPQ).fset EVREC_STAT_DROPQ 1
  if s.log.queue.length < 256 then put (s.log.queue ++ [e]) s
  else if e.clsP then
    match dropNewestO s.log.queue with
    | some q => drop (put (q ++ [e]) s)
    | none => drop s
  else drop s

/-- Logs a module event about register `f` (R384, R385) with time stamp `ts`. -/
def State.logAt (ts : Nat) (tsinv : Bool) (f : Fld) (p : Bool) (sev vmid : Nat) (args : List Nat) (s : State) : State :=
  s.pushEv { clsP := p, sev := sev, code := evCode f, vmid := vmid, part := s.evPart vmid, sw := false, orig := 0xFF,
             tsinv := tsinv, ts := ts, args := argWords args }

/-- Logs a module event now. -/
def State.log' (f : Fld) (p : Bool) (sev vmid : Nat) (args : List Nat) (s : State) : State :=
  s.logAt s.now (!s.fbit TB_STAT_VALID) f p sev vmid args

/-- The four syndrome words, the arguments of an event that logs a fault (R473). -/
def State.syndrome (s : State) : List Nat :=
  [s.fget SYS_FSYND0_VALID * 2 ^ 31 + s.fget SYS_FSYND0_RESP * 2 ^ 28 + s.fget SYS_FSYND0_KIND * 2 ^ 24 +
     s.fget SYS_FSYND0_VC * 2 ^ 22 + s.fget SYS_FSYND0_VMID * 256 + s.fget SYS_FSYND0_REQ,
   s.fget SYS_FSYND1_ADDRLO,
   s.fget SYS_FSYND2_DOM * 4096 + s.fget SYS_FSYND2_CHAN * 256 + s.fget SYS_FSYND2_ADDRHI,
   s.fget SYS_FSYND3_NS]

/-! ### Lanes and tasks -/

/-- Lane `i` of the flat numbering: 0 to 39 cluster lanes by physical group, 40 to 43 M0 to M3, 44 to 51 A0 to A7. -/
def State.lane (s : State) (i : Fin 52) : Lane := s.lanes[i]

/-- Changes a lane. -/
def State.modLane (i : Fin 52) (f : Lane → Lane) (s : State) : State :=
  { s with lanes := s.lanes.set i (f s.lanes[i]) }

/-- LANEID bits 7:0 (R77). -/
def laneIdOf (i : Nat) : Nat :=
  if i < 40 then i / 8 * 16 + i % 8 else if i < 44 then 0x80 + (i - 40) else 0x90 + (i - 44)

/-- The flat number of a LANEID, if a variant has that lane. -/
def laneOfId (id : Nat) : Option (Fin 52) :=
  (List.finRange 52).find? (fun i => laneIdOf i == id)

/-- The flat number of lane `l` of physical group `g`. -/
def clusterLane (g l : Nat) : Fin 52 := ⟨(g % 5) * 8 + l % 8, by omega⟩

/-- The physical group a cluster lane belongs to. -/
def laneGroup (i : Fin 52) : Nat := i / 8

/-- The bank a lane runs. -/
def Lane.bank (x : Lane) : Bank := if x.inG then x.g else x.f

/-- Changes the bank a lane runs. -/
def Lane.modBank (f : Bank → Bank) (x : Lane) : Lane :=
  if x.inG then { x with g := f x.g } else { x with f := f x.f }

/-- A general register; g0 reads 0 (R67). -/
def Bank.reg (b : Bank) (r : Fin 32) : Word := if r = 0 then 0 else b.g[r]

/-- Writes a general register; a write of g0 is discarded (R67). -/
def Bank.setReg (r : Fin 32) (v : Word) (b : Bank) : Bank := if r = 0 then b else { b with g := b.g.set r v }

/-- The pair that starts at an even register, low word first (R68). -/
def Bank.pair (b : Bank) (r : Fin 32) : Nat := (b.reg r).toNat + 2 ^ 32 * (b.reg (r + 1)).toNat

/-- Writes a pair. -/
def Bank.setPair (r : Fin 32) (v : Nat) (b : Bank) : Bank :=
  (b.setReg r (BitVec.ofNat 32 v)).setReg (r + 1) (BitVec.ofNat 32 (v / 2 ^ 32))

/-- A task the dispatchers hold. -/
def State.task (s : State) (t : Nat) : Option Task := alookup t s.tasks

/-- Writes a task. -/
def State.setTask (t : Nat) (x : Task) (s : State) : State := { s with tasks := ainsert t x s.tasks }

/-- Changes a task that is held. -/
def State.modTask (t : Nat) (f : Task → Task) (s : State) : State :=
  match s.task t with
  | some x => s.setTask t (f x)
  | none => s

/-- A VPI by number. -/
def State.vpi (s : State) (v : Nat) : Vpi := if h : v < 64 then s.vpis[v] else vpi0

/-- Changes a VPI. -/
def State.modVpi (v : Nat) (f : Vpi → Vpi) (s : State) : State :=
  if h : v < 64 then { s with vpis := s.vpis.set v (f s.vpis[v]) } else s

/-- A bus access by an engine: nothing is recorded against a requester but its block number (R473). -/
def engineReq (block vmid : Nat) : Req := ⟨0xC0 + block, vmid, false⟩

/-- Supervisor software at the environment's side: REQ names management lane M0. -/
def supReq : Req := ⟨0x80, 0xFF, false⟩

end Sys2Proof.Machine
end

