-- ==== Sys2Proof/Machine/Flags.lean ====
section
/-! DEFINITION. FCSR (R79): the rounding mode and the sticky flags. -/
namespace Sys2Proof.Machine

/-- FCSR.ACSAT. -/
def flACSAT : Nat := 256

/-- FCSR.IDV. -/
def flIDV : Nat := 4

/-- FCSR.RM. -/
def Bank.rm (b : Bank) : Nat := b.fcsr.toNat % 4

/-- Sets sticky flags; none is cleared. -/
def Bank.raise (m : Nat) (b : Bank) : Bank := { b with fcsr := b.fcsr ||| BitVec.ofNat 9 m }

/-- The union of the flags of several operations. -/
def orFlags (l : List Nat) : Nat := l.foldl (· ||| ·) 0

end Sys2Proof.Machine
end

