-- ==== Sys2Proof/Machine/RegOps.lean ====
section
/-! DEFINITION. Register reads and writes as the access codes of R10 and the locks of R496 define them. -/
namespace Sys2Proof.Machine

open Reg

/-- What a field contributes to a read of its register; a WO field reads 0 (R10). -/
def fldRead (s : State) (f : Fld) : Nat := if f.acc = .wo then 0 else s.fget f * 2 ^ f.lo

/-- The word a register reads; reserved bits read 0 (R11). -/
def regValue (s : State) (fs : List Fld) : Nat := (fs.map (fldRead s)).sum

/-- Clears the RC fields of a register after a read (R10). -/
def clearRc (fs : List Fld) (s : State) : State :=
  s.each fs (fun f s => if f.acc = .rc then s.fset f 0 else s)

/-- The bits of a written word that a field takes. -/
def fldBits (f : Fld) (v : Nat) : Nat := bitsOf v f.lo f.width

/-- The lock bit of a field as it stands. -/
def fldLocked (s : State) (f : Fld) : Bool :=
  match f.acc with
  | .rwl a lo r => (alookup (a * 32 + lo) s.regs).getD r != 0
  | .rwn a lo r => (alookup (a * 32 + lo) s.regs).getD r != 0
  | _ => false

/-- A field that software writes. -/
def fldWritable (f : Fld) : Bool :=
  match f.acc with
  | .rw | .wo | .rwl _ _ _ => true
  | _ => false

/-- A written value outside what the map accepts refuses the whole write (R471). -/
def writeIllegal (fs : List Fld) (v : Nat) : Bool :=
  fs.any (fun f => fldWritable f && !f.legal.ok (fldBits f v))

/-- A locked RWL field was written with another value than it holds (R496). -/
def writeLocked (s : State) (fs : List Fld) (v : Nat) : Bool :=
  fs.any (fun f => match f.acc with
    | .rwl _ _ _ => fldLocked s f && fldBits f v != s.fget f
    | _ => false)

/-- The effect of a write on one field, judged against the state `s0` before the access (R496). -/
def writeFld (s0 : State) (v : Nat) (f : Fld) (s : State) : State :=
  match f.acc with
  | .ro | .rc => s
  | .rw | .wo => s.fset f (fldBits f v)
  | .w1c => s.fset f (s0.fget f - (s0.fget f &&& fldBits f v))
  | .rws => if fldBits f v = 0 then s else s.fset f (fldBits f v)
  | .rwl _ _ _ => if fldLocked s0 f then s else s.fset f (fldBits f v)
  | .rwn _ _ _ => if fldLocked s0 f then s else s.fset f (fldBits f v)

/-- A write to the fields of a register, field by field (R10, R11, R496). -/
def regWrite (fs : List Fld) (v : Nat) (s : State) : Rsp × State :=
  if writeIllegal fs v then (.denied, s)
  else (if writeLocked s fs v then .denied else .ok, s.each fs (writeFld s v))

/-- A read of a register of a map: its word, then its RC fields cleared. -/
def regRead (fs : List Fld) (s : State) : Nat × State := (regValue s fs, clearRc fs s)

/-- A register of a block table, or a reserved offset that reads 0 and ignores writes. -/
def tableRead (t : List RegSpec) (a : Nat) (s : State) : Nat × State :=
  match findReg t a with
  | some fs => regRead fs s
  | none => (0, s)

/-- A write through a block table. -/
def tableWrite (t : List RegSpec) (a v : Nat) (s : State) : Rsp × State :=
  match findReg t a with
  | some fs => regWrite fs v s
  | none => (.ok, s)

/-- The block and the offset of a register address of the store; self windows belong to VPI, views to EVREC. -/
def regBlock (a : Nat) : Nat × Nat :=
  if 0xF102000000 ≤ a then (15, 0xC000 + a % 0x1000)
  else if 0xF101000000 ≤ a then (21, 0xC000 + a % 0x1000)
  else ((a - 0xF000000000) / 0x10000, a % 0x10000)

/-- Gives the registers that a test of block and offset selects their reset values. -/
def clearRegs (f : Nat → Nat → Bool) (s : State) : State :=
  { s with regs := s.regs.filter (fun p => !f (regBlock (p.1 / 32)).1 (regBlock (p.1 / 32)).2) }

end Sys2Proof.Machine
end

