-- ==== Sys2Proof/Machine/Engine.lean ====
section
/-! DEFINITION. How the module's engines reach memory: through the same gate as every requester (R472), with their faults
recorded (R473) and instance fencing (R328). -/
namespace Sys2Proof.Machine

open Reg

/-- An engine of block `blk` reads `n` bytes; a refused read yields all ones (R7, R472). -/
def State.engRead (blk vmid a n : Nat) (s : State) : List Byte × State :=
  let rq := engineReq blk vmid
  let g := s.gate vmid a 8 false
  if g.rsp ≠ .ok then (List.replicate n 0xFF, s.recordFault rq a .engineRead g.rsp g.dom 0)
  else if s.eccHit (s.canon a) n then (List.replicate n 0xFF, s.recordFault rq a .engineRead .ecc 0xF 0)
  else (s.rd (s.canon a) n, s)

/-- An engine of block `blk` writes bytes; a refused write has no effect. -/
def State.engWrite (blk vmid a : Nat) (bs : List Byte) (s : State) : State :=
  let rq := engineReq blk vmid
  let g := s.gate vmid a 8 true
  if g.rsp ≠ .ok then s.recordFault rq a .engineWrite g.rsp g.dom 0
  else if s.eccPartial (s.canon a) bs.length then s.recordFault rq a .engineWrite .ecc 0xF 0
  else s.wr (s.canon a) bs

/-- The instance generation of a VPI, 0 for supervisor software (R328). -/
def State.igen (s : State) (vmid : Nat) : Nat := if vmid < 64 then (s.vpi vmid).igen else 0

/-- An engine write for a VPI under generation `ig`: discarded and counted when the generation has moved (R328). -/
def State.fencedWrite (blk vmid ig a : Nat) (bs : List Byte) (s : State) : State :=
  if vmid < 64 ∧ s.igen vmid ≠ ig then s.bump (SELF_FENCED_N vmid) else s.engWrite blk vmid a bs

/-- The owner code of a resource (R378). -/
def State.owner (s : State) (r : Nat) : Nat := s.fget (PWR_OWN_OWNER r)

/-- The lowest error code whose condition holds, 0 when none does (R498). -/
def firstErr (l : List (Nat × Bool)) : Nat :=
  l.foldl (fun m p => if p.2 && (m == 0 || decide (p.1 < m)) then p.1 else m) 0

/-- A module-wide admission stands (SCHED_STAT.ADM). -/
def State.adm (s : State) : Bool := s.fbit SCHED_STAT_ADM

end Sys2Proof.Machine
end

