-- ==== Sys2Proof/Machine/Frames.lean ====
section
/-! DEFINITION. Reading Ethernet frames: tags, EtherTypes, IPv4 and UDP, the BER elements of IEC 61850 messages, PTP
messages and the redundancy trailers and tags of IEC 62439-3. Formats that the spec takes from the standards it names
are PRESUMED from those standards (assumption 20). -/
namespace Sys2Proof.Machine

/-- Destination address as a number, first byte highest. -/
def frDa (b : List Byte) : Nat := beAt b 0 6

/-- Source address. -/
def frSa (b : List Byte) : Nat := beAt b 6 6

/-- A C-tag with TPID 0x8100 follows the addresses (R207). -/
def frTagged (b : List Byte) : Bool := beAt b 12 2 == 0x8100 && decide (16 ≤ b.length)

/-- PCP of a tagged frame. -/
def frPcp (b : List Byte) : Nat := beAt b 14 2 / 8192

/-- VID of a tagged frame. -/
def frVid (b : List Byte) : Nat := beAt b 14 2 % 4096

/-- Offset of the EtherType after any C-tag. -/
def frEtOff (b : List Byte) : Nat := if frTagged b then 16 else 12

/-- EtherType after any C-tag. -/
def frEt (b : List Byte) : Nat := beAt b (frEtOff b) 2

/-- What follows the EtherType. -/
def frPay (b : List Byte) : List Byte := b.drop (frEtOff b + 2)

/-- The frame without its C-tag. -/
def frUntag (b : List Byte) : List Byte := if frTagged b then b.take 12 ++ b.drop 16 else b

/-- The frame with a C-tag of this PCP and VID. -/
def frRetag (b : List Byte) (pcp vid : Nat) : List Byte :=
  b.take 12 ++ [0x81, 0x00] ++ beBytes 2 (pcp % 8 * 8192 + vid % 4096) ++ (frUntag b).drop 12

/-- Bytes of a frame on the wire, FCS included. -/
def wireLen (b : List Byte) : Nat := b.length + 4

/-! ### IPv4 and UDP -/

/-- The frame carries IPv4 and UDP: header length in bytes, or none. -/
def udpAt (b : List Byte) : Option Nat :=
  let p := frPay b
  if frEt b = 0x0800 ∧ 20 ≤ p.length ∧ leAt p 0 1 / 16 = 4 ∧ leAt p 9 1 = 17 ∧ 5 ≤ leAt p 0 1 % 16 then
    some (leAt p 0 1 % 16 * 4)
  else none

/-- UDP destination port. -/
def udpDst (b : List Byte) (ihl : Nat) : Nat := beAt (frPay b) (ihl + 2) 2

/-- IPv4 source address. -/
def ipSrc (b : List Byte) : Nat := beAt (frPay b) 12 4

/-- IPv4 destination address. -/
def ipDst (b : List Byte) : Nat := beAt (frPay b) 16 4

/-- UDP payload. -/
def udpPay (b : List Byte) (ihl : Nat) : List Byte := ((frPay b).take (beAt (frPay b) 2 2)).drop (ihl + 8)

/-! ### BER -/

/-- The first BER element: its identifier octet, its contents and what follows; none if it does not parse. -/
def berTake (b : List Byte) : Option (Nat × List Byte × List Byte) :=
  match b with
  | t :: l :: r =>
    if l.toNat < 128 then
      if l.toNat ≤ r.length then some (t.toNat, r.take l.toNat, r.drop l.toNat) else none
    else
      let k := l.toNat - 128
      if k = 0 ∨ 4 < k ∨ r.length < k then none
      else
        let n := beVal (r.take k)
        let r := r.drop k
        if n ≤ r.length then some (t.toNat, r.take n, r.drop n) else none
  | _ => none

/-- The elements of a constructed value, at most `fuel` of them; none where one does not parse. -/
def berList : Nat → List Byte → Option (List (Nat × List Byte))
  | _, [] => some []
  | 0, _ => none
  | n + 1, b =>
    match berTake b with
    | some (t, v, r) =>
      match berList n r with
      | some l => some ((t, v) :: l)
      | none => none
    | none => none

/-- The first element with this identifier. -/
def berFind (t : Nat) (l : List (Nat × List Byte)) : Option (List Byte) :=
  match l.find? (fun p => p.1 == t) with
  | some p => some p.2
  | none => none

/-- A short or long BER length. -/
def berLen (n : Nat) : List Byte :=
  if n < 128 then [BitVec.ofNat 8 n] else if n < 256 then [0x81, BitVec.ofNat 8 n] else 0x82 :: beBytes 2 n

/-- A BER element. -/
def berElem (t : Nat) (v : List Byte) : List Byte := BitVec.ofNat 8 t :: berLen v.length ++ v

/-- APPID of an SV or GOOSE frame. -/
def apduAppid (b : List Byte) : Nat := beAt (frPay b) 0 2

/-- The APDU of an SV or GOOSE frame: what its length field covers after the 8-byte header. -/
def apduOf (b : List Byte) : Option (List Byte) :=
  let p := frPay b
  let n := beAt p 2 2
  if 8 ≤ p.length ∧ 8 ≤ n ∧ n ≤ p.length then some ((p.take n).drop 8) else none

/-- The elements of the APDU inside tag `t`. -/
def apduElems (t : Nat) (b : List Byte) : Option (List (Nat × List Byte)) :=
  match apduOf b with
  | some a =>
    match berTake a with
    | some (t', v, _) => if t' = t then berList 64 v else none
    | none => none
  | none => none

/-- gocbRef of a GOOSE frame. -/
def gocbRefOf (b : List Byte) : Option (List Byte) :=
  match apduElems 0x61 b with
  | some l => berFind 0x80 l
  | none => none

/-- The ASDUs of a sampled-value frame, each as its elements. -/
def asdusOf (b : List Byte) : Option (List (List (Nat × List Byte))) :=
  match apduElems 0x60 b with
  | some l =>
    match berFind 0xA2 l with
    | some seq =>
      match berList 64 seq with
      | some as => as.mapM (fun p => if p.1 = 0x30 then berList 32 p.2 else none)
      | none => none
    | none => none
  | none => none

/-- svID of the first ASDU. -/
def svIdOf (b : List Byte) : Option (List Byte) :=
  match asdusOf b with
  | some (a :: _) => berFind 0x80 a
  | _ => none

/-! ### PTP -/

/-- A PTP message over Ethernet: message type and version. -/
def ptpOf (b : List Byte) : Option (Nat × Nat) :=
  if frEt b = 0x88F7 then some (leAt (frPay b) 0 1 % 16, leAt (frPay b) 1 1 % 16) else none

/-- PTP over UDP. -/
def ptpUdp (b : List Byte) : Bool :=
  match udpAt b with
  | some h => udpDst b h == 319 || udpDst b h == 320
  | none => false

/-- sequenceId of a PTP message. -/
def ptpSeq (b : List Byte) : Nat := beAt (frPay b) 30 2

/-- The frame with `d` (units of 2⁻¹⁶ ns) added to its correctionField (R45). -/
def ptpCorrect (b : List Byte) (d : Int) : List Byte :=
  let o := frEtOff b + 2 + 8
  putAt b o (beBytes 8 (wrapTo 64 (signedOf 64 (beAt b o 8) + d)))

/-- The frame with its originTimestamp: seconds and nanoseconds of `t`. -/
def ptpOrigin (b : List Byte) (sec ns : Nat) : List Byte :=
  putAt b (frEtOff b + 2 + 34) (beBytes 6 sec ++ beBytes 4 ns)

/-! ### Redundancy -/

/-- A PRP trailer: sequence number and LAN identifier. -/
def prpTrailer (b : List Byte) : Option (Nat × Nat) :=
  let n := b.length
  if 20 ≤ n ∧ beAt b (n - 2) 2 = 0x88FB ∧ (beAt b (n - 4) 2 / 4096 = 0xA ∨ beAt b (n - 4) 2 / 4096 = 0xB) then
    some (beAt b (n - 6) 2, beAt b (n - 4) 2 / 4096)
  else none

/-- Appends a PRP trailer. -/
def prpAppend (b : List Byte) (seq lan : Nat) : List Byte :=
  b ++ beBytes 2 seq ++ beBytes 2 (lan * 4096 + ((frPay b).length + 6) % 4096) ++ [0x88, 0xFB]

/-- An HSR tag: its sequence number. -/
def hsrTag (b : List Byte) : Option Nat :=
  if frEt b = 0x892F then some (beAt (frPay b) 2 2) else none

/-- The frame without its HSR tag. -/
def hsrStrip (b : List Byte) : List Byte := b.take (frEtOff b) ++ b.drop (frEtOff b + 6)

/-- The frame with an HSR tag. -/
def hsrInsert (b : List Byte) (seq path : Nat) : List Byte :=
  b.take (frEtOff b) ++ [0x89, 0x2F] ++ beBytes 2 (path * 4096 + ((frPay b).length + 6) % 4096) ++ beBytes 2 seq ++
    b.drop (frEtOff b)

end Sys2Proof.Machine
end

