-- ==== Sys2Proof/Machine/TimeBase.lean ====
section
/-! DEFINITION. The time base (spec file 02): rate, steps and sets, reference loss, snapshots, the transmit time-stamp
queue and the TDC channels. -/
namespace Sys2Proof.Machine

open Reg

/-- Changes the time base. -/
def State.modTb (f : TimeBase → TimeBase) (s : State) : State := { s with tb := f s.tb }

/-- One TB cycle: the counter adds the increment in force, and an accepted TB_INCR value comes nearer (R31, R33). -/
def tbCycle (s : State) : State :=
  { s with since := s.since + 1 }.modTb (fun t =>
    match t.incrPend with
    | some (v, 0) =>
      { t with incr := v, incrPend := none, count := (t.count + v) % (2 ^ 48 * secUnits * 4096) }
    | some (v, n + 1) =>
      { t with incrPend := some (v, n), count := (t.count + t.incr) % (2 ^ 48 * secUnits * 4096) }
    | none => { t with count := (t.count + t.incr) % (2 ^ 48 * secUnits * 4096) })

/-- A write of TB_INCR (R33): from the third TB cycle on, the first that starts 12 ns later (assumption 12). -/
def tbIncrOp (v : Nat) (s : State) : Rsp × State :=
  if 0x3FEF9DB2 ≤ v ∧ v ≤ 0x4010624E then
    (.ok, (s.fset TB_INCR_INCR v).modTb (fun t => { t with incrPend := some (v, 3) }))
  else (.denied, s)

/-- The counter after a phase change of `d` units of 2⁻²⁸ ns. -/
def phaseShift (count : Nat) (d : Int) : Nat := ((count + d) % (2 ^ 48 * secUnits * 4096 : Nat)).toNat

/-- The largest step accepted, in units of 2⁻²⁸ ns (R34). -/
def stepLimit (s : State) : Nat := s.fget TB_STEPMAX_MAX * 65536 * 4096

/-- Applies a step or set between two TB cycles and logs it with the values before and after (R37). -/
def applyPhase (f : Fld) (isSet : Bool) (count : Nat) (s : State) : State :=
  let before := s.now
  let inv := !s.fbit TB_STAT_VALID
  let s := s.modTb (fun t => { t with count := count })
  s.logAt before inv f false 3 0xFF (tripleOf s.now ++ [b2n isSet])

/-- Refuses a step or set: STEPREF, its count and its event (R34). -/
def refusePhase (f : Fld) (args : List Nat) (s : State) : State :=
  ((s.fset TB_STAT_STEPREF 1).bump TB_CNT_STEPREF).log' f false 4 0xFF args

/-- A write of TB_STEP_HI (R34). -/
def tbStepOp (v : Nat) (s : State) : Rsp × State :=
  if ¬ s.fbit TB_STAT_VALID then (.denied, s)
  else
    let lo := s.fget TB_STEP_LO_STEP
    let d := signedOf 64 (v * 2 ^ 32 + lo) * 4096
    if d.natAbs ≤ stepLimit s then
      (.ok, applyPhase TB_STEP_HI_STEP false (phaseShift s.tb.count d) s)
    else (.ok, refusePhase TB_STEP_HI_STEP [lo, v] s)

/-- The time TB_SET_NS, TB_SET_SECLO and TB_SET_SECHI hold. -/
def setValue (s : State) : Nat :=
  timeOfTriple (s.fget TB_SET_NS_V) (s.fget TB_SET_SECLO_V) (s.fget TB_SET_SECHI_V)

/-- The load of TB_CTL.SET (R35). -/
def tbSetOp (s : State) : Rsp × State :=
  if s.fget TB_SET_NS_V > 999999999 then (.denied, s)
  else if ¬ s.fbit TB_STAT_VALID then
    (.ok, (applyPhase TB_CTL_SET true (setValue s * 4096) s).fset TB_STAT_VALID 1)
  else
    let d : Int := (setValue s * 4096 : Nat) - (s.tb.count : Int)
    if d.natAbs ≤ stepLimit s then (.ok, applyPhase TB_CTL_SET true (setValue s * 4096) s)
    else (.ok, refusePhase TB_CTL_SET (tripleOf (setValue s) ++ [1]) s)

/-- A write of TB_CTL: the enables, INVAL under R36, then SET under R35. A refused INVAL or SET refuses the write. -/
def tbCtlOp (v : Nat) (s : State) : Rsp × State :=
  let inval := bitOf v 1
  let set := bitOf v 0
  if inval && s.fbit TB_LOCK_LOCK then (.denied, s)
  else if set && decide (s.fget TB_SET_NS_V > 999999999) then (.denied, s)
  else
    let s := ((s.fset TB_CTL_REFIE (bitsOf v 4 1)).fset TB_CTL_TSQIE (bitsOf v 3 1)).fset TB_CTL_STEPIE (bitsOf v 2 1)
    let s := s.when inval (fun s => s.fset TB_STAT_VALID 0)
    if set then tbSetOp s else (.ok, s)

/-- The requester's snapshot: its bank's, or the shared one (R58). -/
def snapOf (rq : Req) (s : State) : Nat :=
  match laneOfId rq.id with
  | some l => if rq.bankG then (s.lane l).g.snap else (s.lane l).f.snap
  | none => s.tb.sharedSnap

/-- Latches the current value into the requester's snapshot (R58). -/
def latchNow (rq : Req) (s : State) : State :=
  match laneOfId rq.id with
  | some l =>
    if rq.bankG then s.modLane l (fun x => { x with g := { x.g with snap := s.now } })
    else s.modLane l (fun x => { x with f := { x.f with snap := s.now } })
  | none => s.modTb (fun t => { t with sharedSnap := s.now })

/-- A read of TB_NOW_NS (R58). -/
def tbNowRead (rq : Req) (s : State) : Nat × State := (nsWord s.now, latchNow rq s)

/-- TB_TSQ3 of an entry (R47). -/
def tsq3Word (e : TsqEntry) : Nat := 2 ^ 31 + e.port * 2 ^ 20 + e.msgType * 2 ^ 16 + e.seq

/-- A word of the oldest queue entry, 0 when the queue is empty (R47). -/
def tsqWord (s : State) (k : Nat) : Nat :=
  match s.tb.tsq with
  | [] => 0
  | e :: _ => if k < 3 then nth (tripleOf e.stamp) k else tsq3Word e

/-- A read of TB_TSQ3: the oldest entry, then removed (R48). -/
def tsqPop (s : State) : Nat × State := (tsqWord s 3, s.modTb (fun t => { t with tsq := t.tsq.drop 1 }))

/-- A transmit time stamp enters the queue, or is dropped when 16 are held (R47, R49). -/
def tsqPush (e : TsqEntry) (s : State) : State :=
  if s.tb.tsq.length < 16 then s.modTb (fun t => { t with tsq := t.tsq ++ [e] })
  else (s.bump TB_TSQ_STAT_DROPS).fset TB_STAT_TSQOVF 1

/-- TDC channel `k`. -/
def State.tdc (s : State) (k : Fin 8) : Tdc := s.tb.tdc[k]

/-- Changes a TDC channel. -/
def State.modTdc (k : Fin 8) (f : Tdc → Tdc) (s : State) : State :=
  s.modTb (fun t => { t with tdc := t.tdc.set k (f t.tdc[k]) })

/-- The results software may read: none of a channel the acquisition engine owns (R61, R397). -/
def tdcVisible (s : State) (k : Fin 8) : List (Nat × Bool) :=
  if s.fget (TB_TDCCTL_OWNER k) = 3 then [] else (s.tdc k).results

/-- A word of the oldest result: NS, SECLO, SECHI (R61). -/
def tdcWord (s : State) (k : Fin 8) (j : Nat) : Nat :=
  match tdcVisible s k with
  | [] => 0
  | (t, _) :: _ => nth (tripleOf t) j

/-- A read of TDC offset +0x14: the SECHI word, then the result removed (R61). -/
def tdcPop (k : Fin 8) (s : State) : Nat × State :=
  (tdcWord s k 2,
   if tdcVisible s k = [] then s else s.modTdc k (fun c => { c with results := c.results.drop 1 }))

/-- The source of a TDC channel selects this edge (R61). -/
def edgeSelected (sel : Nat) (rise : Bool) : Bool := bitOf sel (if rise then 0 else 1)

/-- An edge at the channel's input at raw time `raw` (R52). -/
def tdcCapture (k : Fin 8) (rise : Bool) (raw : Nat) (s : State) : State :=
  if s.fget (TB_TDCCTL_SRC k) = 0x1F ∨ ¬ edgeSelected (s.fget (TB_TDCCTL_EDGE k)) rise then s
  else
    let c := s.tdc k
    let close := match c.last with
      | some t => decide (raw < t + 20 * 65536)
      | none => false
    if close || decide (4 ≤ c.results.length) then s.bump (TB_TDCSTAT_DROPS k)
    else
      let t := phaseShift (raw * 4096) (-((s.fget (TB_TDCDLY_DLY k) * 256 * 4096 : Nat) : Int)) / 4096
      s.modTdc k (fun c => { c with results := c.results ++ [(t, rise)], last := some raw })

/-- A write of TB_TDCCTLk (R53, R61). -/
def tdcCtlOp (k : Fin 8) (v : Nat) (s : State) : Rsp × State :=
  if s.fget (TB_TDCCTL_OWNER k) = 0 then (.denied, s)
  else regWrite [TB_TDCCTL_EDGE k, TB_TDCCTL_SRC k] v s

/-- Reads of the TB block that the register store does not hold by itself. -/
def tbRead (rq : Req) (off : Nat) (s : State) : Nat × State :=
  if off = 0x24 then tbNowRead rq s
  else if off = 0x28 then (secLoWord (snapOf rq s), s)
  else if off = 0x2C then (secHiWord (snapOf rq s), s)
  else if off = 0x40 then
    (s.fget TB_TSQ_STAT_DROPS * 256 + s.tb.tsq.length, s.fset TB_TSQ_STAT_DROPS 0)
  else if off = 0x44 ∨ off = 0x48 ∨ off = 0x4C then (tsqWord s ((off - 0x44) / 4), s)
  else if off = 0x50 then tsqPop s
  else if h : 0x400 ≤ off ∧ off < 0x500 then
    let k : Fin 8 := ⟨(off - 0x400) / 0x20, by omega⟩
    let o := (off - 0x400) % 0x20
    if o = 8 then
      ((match tdcVisible s k with
        | (_, true) :: _ => 2 ^ 16
        | _ => 0) + s.fget (TB_TDCSTAT_DROPS k) * 256 + (s.tdc k).results.length,
       s.fset (TB_TDCSTAT_DROPS k) 0)
    else if o = 0xC then (tdcWord s k 0, s)
    else if o = 0x10 then (tdcWord s k 1, s)
    else if o = 0x14 then tdcPop k s
    else tableRead regsTB (0xF000090000 + off) s
  else tableRead regsTB (0xF000090000 + off) s

/-- Writes of the TB block. -/
def tbWrite (off v : Nat) (s : State) : Rsp × State :=
  if off = 0 then tbCtlOp v s
  else if off = 8 then tbIncrOp v s
  else if off = 0x14 then tbStepOp v s
  else if h : 0x400 ≤ off ∧ off < 0x500 then
    if (off - 0x400) % 0x20 = 0 then tdcCtlOp ⟨(off - 0x400) / 0x20, by omega⟩ v s
    else tableWrite regsTB (0xF000090000 + off) v s
  else tableWrite regsTB (0xF000090000 + off) v s

/-- A TB phase-locked loop without its reference (R39, R376). -/
def tbRefLost (s : State) : State :=
  ((s.fset TB_STAT_REFLOST 1).fset TB_STAT_REFLOSTL 1).log' TB_STAT_REFLOST false 5 0xFF []

/-! ### Meanings -/

/-- TB_INCR_WRITE. -/
def execTbIncrWrite (rq : Req) (v : Word) (s : State) : Result :=
  .next (s.regWriteAccess rq 0xF000090008 (tbIncrOp v.toNat))

/-- TB_STEP_REQUEST. -/
def execTbStepRequest (rq : Req) (v : Word) (s : State) : Result :=
  .next (s.regWriteAccess rq 0xF000090014 (tbStepOp v.toNat))

/-- TB_SET: a write of TB_CTL with SET = 1. -/
def execTbSet (rq : Req) (v : Word) (s : State) : Result :=
  .next (s.regWriteAccess rq 0xF000090000 (tbCtlOp (v ||| 1).toNat))

/-- TB_INVAL: a write of TB_CTL with INVAL = 1. -/
def execTbInval (rq : Req) (v : Word) (s : State) : Result :=
  .next (s.regWriteAccess rq 0xF000090000 (tbCtlOp (v ||| 2).toNat))

/-- OCXO_WARM (R38). -/
def execOcxoWarm (s : State) : Result := .next (s.fset TB_STAT_OCXOWARM 1)

/-- TB_REFERENCE_LOST (R39). -/
def execTbReferenceLost (s : State) : Result := .next (tbRefLost s)

/-- TB_REFERENCE_RELOCK (R39). -/
def execTbReferenceRelock (s : State) : Result := .next (s.fset TB_STAT_REFLOST 0)

/-- TB_NOW_LATCH. -/
def execTbNowLatch (rq : Req) (s : State) : Result := .next (s.regReadAccess rq 0xF000090024 (tbNowRead rq))

/-- TSQ_ENTRY_READ. -/
def execTsqEntryRead (rq : Req) (s : State) : Result := .next (s.regReadAccess rq 0xF000090050 tsqPop)

/-- TDC_RESULT_READ. -/
def execTdcResultRead (rq : Req) (k : Fin 8) (s : State) : Result :=
  .next (s.regReadAccess rq (0xF000090414 + 0x20 * k) (tdcPop k))

/-- TB_TDCCTL_WRITE. -/
def execTbTdcctlWrite (rq : Req) (k : Fin 8) (v : Word) (s : State) : Result :=
  .next (s.regWriteAccess rq (0xF000090400 + 0x20 * k) (tdcCtlOp k v.toNat))

end Sys2Proof.Machine
end

