-- ==== Sys2Proof/Machine/Net.lean ====
section
/-! DEFINITION. The switch core (spec file 07): classification, admission, replication, the I0 rings, the replay reserve,
redundant pairs, mirroring and authentication tags. -/
namespace Sys2Proof.Machine

open Reg

/-- Changes the switch core. -/
def State.modNet (f : Net → Net) (s : State) : State := { s with net := f s.net }

/-! ### Buffer accounting (R216) -/

/-- Cells of a frame of `n` bytes, FCS included. -/
def cellsOf (n : Nat) : Nat := ceilDiv n 128

/-- Cells in use that a predicate selects. -/
def Net.cellsOfWhere (n : Net) (p : NetFrame → Bool) : Nat :=
  ((n.bufs.filter (fun x => p x.2)).map (fun x => x.2.cells)).sum

/-- Class-0 pool cells in use. -/
def Net.c0Use (n : Net) : Nat := n.cellsOfWhere (·.c0)

/-- Cells of the shared pool outside the class-0 pool in use. -/
def Net.sharedUse (n : Net) : Nat := n.cellsOfWhere (fun f => !f.c0)

/-- The occupancy of an owner. -/
def Net.occupancy (n : Net) (v : Nat) : Nat := n.cellsOfWhere (fun f => !f.c0 && f.owner == v)

/-- NETSW_CELLS.FREE (R231). -/
def State.freeCells (s : State) : Nat := 196608 - s.fget NETSW_C0POOL_CELLS - s.net.sharedUse

/-- The share limit of an owner in cells (R216). -/
def State.shareLimit (s : State) (v : Nat) : Nat :=
  if v < 64 then (if (s.vpi v).ent.v then (s.vpi v).ent.cells else 0) else s.fget NETSW_SUPLIM_CELLS

/-- The lowest free handle. -/
def freeHandle : Nat → List (Nat × NetFrame) → Nat
  | h, [] => h
  | h, (k, _) :: l => if h = k then freeHandle (h + 1) l else h

/-- The frame of a handle. -/
def State.buf (s : State) (h : Nat) : Option NetFrame := alookup h s.net.bufs

/-- Raises the class-0 pool's high-water mark. -/
def noteC0Use (s : State) : State :=
  if s.fget NETSW_C0USE_HWM < s.net.c0Use then s.fset NETSW_C0USE_HWM s.net.c0Use else s

/-- Drops `n` references of a handle and frees it when none is left (R218). -/
def unref (h n : Nat) (s : State) : State :=
  match s.buf h with
  | some f =>
    if f.refs ≤ n then s.modNet (fun x => { x with bufs := aerase h x.bufs })
    else s.modNet (fun x => { x with bufs := ainsert h { f with refs := f.refs - n } x.bufs })
  | none => s

/-- Counts a copy that a destination discards (R217). -/
def countDiscard (f : NetFrame) (d : Nat) (s : State) : State :=
  if d < 13 then s.bump (if f.c0 then PORT_C0DROP_N d else PORT_AGEDROP_N d)
  else s.bump (if d = 13 then NETSW_IDROP_I0 else NETSW_IDROP_I1)

/-! ### VLANs and queues -/

/-- Member and untagged-egress masks of a VID (R207, R231). -/
def State.vlan (s : State) (v : Nat) : Nat × Nat :=
  (alookup v s.net.vlans).getD (if v = 1 then 0x7FFF else 0, 0)

/-- A queue. -/
def State.queue (s : State) (d q : Nat) : List Nat := if h : d * 8 + q < 120 then s.net.queues[d * 8 + q] else []

/-- Writes a queue. -/
def setQueue (d q : Nat) (l : List Nat) (s : State) : State :=
  if h : d * 8 + q < 120 then s.modNet (fun n => { n with queues := n.queues.set (d * 8 + q) l }) else s

/-- A destination has a free entry for queue `q` (R217). -/
def queueFree (s : State) (d q : Nat) : Bool :=
  if q = 7 then decide ((s.queue d 7).length < if d < 13 then 256 else 1024)
  else decide (((List.range 7).map (fun k => (s.queue d k).length)).sum < if d < 13 then 4096 else 8192)

/-! ### I0 receive rings (R223, R224) -/

/-- The frame record header and the frame as a consumer sees it, FCS excluded. -/
def frameHeader (f : NetFrame) (len olen fl : Nat) : List Byte :=
  tripleBytes f.ts ++ leBytes 2 f.sidx ++ leBytes 2 f.gen ++ leBytes 2 len ++ leBytes 1 f.port ++ leBytes 1 fl ++
    leBytes 2 (f.pcp * 4096 + f.vid) ++ leBytes 2 olen ++ zeroBytes 8

/-- FL of a frame record header. -/
def flagsOf (f : NetFrame) (mirror egress trunc : Bool) : Nat :=
  b2n f.replay + 2 * b2n mirror + 4 * b2n trunc + 8 * b2n egress + 16 * b2n f.auth + 32 * b2n f.ptp

/-- Slot bytes of a receive ring. -/
def rxSlot (s : State) (r : Nat) : Nat := if s.fbit (RXRING_CFG_SLOT r) then 16384 else 2048

/-- Whether a receive ring can take a frame: in use and not full. One slot stays free, since HEAD = TAIL means empty. -/
def rxRingOpen (s : State) (r : Nat) : Bool :=
  s.fbit (RXRING_CFG_EN r) &&
    (s.fget (RXRING_HEAD_IDX r) + 1) % (16 * 2 ^ s.fget (RXRING_CFG_SIZE r)) != s.fget (RXRING_TAIL_IDX r)

/-- Writes a frame cut to `limit` bytes to receive ring `r`, or counts it in ERR. -/
def ringWrite (r : Nat) (f : NetFrame) (limit : Nat) (mirror egress : Bool) (s : State) : State :=
  if ¬ rxRingOpen s r then s.bump (RXRING_ERR_N r)
  else
    let n := 16 * 2 ^ s.fget (RXRING_CFG_SIZE r)
    let room := min limit (rxSlot s r - 32)
    let body := f.bytes.take room
    let trunc := decide (room < f.bytes.length)
    let head := s.fget (RXRING_HEAD_IDX r)
    let s := s.engWrite 10 (if r < 64 then r else 0xFF) (s.fget (RXRING_BASE_ADDR r) * 4096 + rxSlot s r * head)
      (frameHeader f body.length f.bytes.length (flagsOf f mirror egress trunc) ++ body)
    s.fset (RXRING_HEAD_IDX r) ((head + 1) % n)

/-- The receive ring of an owner. -/
def ownerRing (v : Nat) : Nat := if v < 64 then v else 64

/-- Delivers a frame to I0: its owner's ring, fenced by the instance generation (R224, R328). -/
def toI0 (f : NetFrame) (s : State) : State :=
  if f.owner < 64 ∧ s.igen f.owner ≠ f.igen then s.bump (SELF_FENCED_N f.owner)
  else ringWrite (ownerRing f.owner) f f.bytes.length false false s

/-! ### Mirroring (R226) -/

/-- A session selects a frame of stream `sidx` at port `p` in direction bit `dir` (1 ingress, 2 egress). -/
def mirSelects (s : State) (m p dir : Nat) (sidx : Nat) : Bool :=
  s.fbit (NETSW_MIRCTL_EN m) && s.fget (NETSW_MIRCTL_DIR m) &&& dir != 0 && bitOf (s.fget (NETSW_MIRCTL_SRC m)) p &&
    (!s.fbit (NETSW_MIRSID_EN m) || s.fget (NETSW_MIRSID_INDEX m) == sidx)

/-- One session's copy of a frame, or its drop count. -/
def mirrorOne (m p dir : Nat) (f : NetFrame) (s : State) : State :=
  if ¬ mirSelects s m p dir f.sidx then s
  else if h : m < 4 then
    let k := s.net.mirSel[m]
    let s := s.modNet (fun n => { n with mirSel := n.mirSel.set m (k + 1) })
    if k % s.fget (NETSW_MIRSID_N m) ≠ 0 then s
    else
      let lim := 64 * (s.fget (NETSW_MIRCTL_TRUNC m) + 1)
      let cells := cellsOf (min lim f.bytes.length + 4)
      if s.freeCells < cells ∨ s.shareLimit 0xFF < s.net.occupancy 0xFF + cells ∨ ¬ rxRingOpen s 65 then
        s.bump (NETSW_MIRDROP_N m)
      else (ringWrite 65 f lim true (dir == 2) s).bump (NETSW_MIRCNT_N m)
  else s

/-- Every session sees a frame. -/
def mirror (p dir : Nat) (f : NetFrame) (s : State) : State :=
  s.each (List.range 4) (fun m => mirrorOne m p dir f)

/-! ### Redundant pairs (R220) -/

/-- The rate class of a port: 0 for 10 Gbit/s, else by PORT_CTL.SGSPD. -/
def rateClass (s : State) (p : Nat) : Nat :=
  if p < 4 then 0 else if p < 6 then 1 else if s.fget (PORT_CTL_SGSPD p) ≤ 1 then 1 else s.fget (PORT_CTL_SGSPD p)

/-- The partner of a port in an active pair. -/
def pairOf (s : State) (p : Nat) : Option Nat :=
  let q := s.fget (PORT_CTL_PARTNER p)
  if p < 12 ∧ q < 12 ∧ p ≠ q ∧ s.fget (PORT_CTL_PARTNER q) = p ∧ s.fget (PORT_CTL_RED p) ≠ 0 ∧
      s.fget (PORT_CTL_RED p) = s.fget (PORT_CTL_RED q) ∧ rateClass s p = rateClass s q then some q else none

/-- The number of a pair: its lower port. -/
def pairId (p q : Nat) : Nat := min p q

/-- The live entries of a pair's duplicate table: forgotten after 400 ms. -/
def dupLive (s : State) (e : DupEnt) : Bool := decide (s.now < e.t + usUnits 400000)

/-- Whether a pair's table holds a frame, and whether the module sent it. -/
def dupFind (s : State) (pr sa seq : Nat) : Option DupEnt :=
  s.net.dups.find? (fun e => e.pair == pr && e.sa == sa && e.seq == seq && dupLive s e)

/-- The list without the oldest entry of a pair. -/
def dropPair (pr : Nat) : List DupEnt → List DupEnt
  | [] => []
  | e :: l => if e.pair = pr then l else e :: dropPair pr l

/-- Enters a frame into a pair's table of 4 096. -/
def dupAdd (e : DupEnt) (s : State) : State :=
  let l := s.net.dups.filter (dupLive s)
  let l := if 4096 ≤ (l.filter (fun x => x.pair == e.pair)).length then dropPair e.pair l else l
  s.modNet (fun n => { n with dups := l ++ [e] })

/-- What a pair makes of a received frame: dropped with a counter, or kept without its trailer or tag. -/
inductive PairRes where
  | drop (counter : Option Fld)
  | keep (bytes : List Byte) (wrong : Bool) (seq : Option Nat)

/-- Duplicate discard at port `p` (R220). -/
def pairReceive (s : State) (p : Nat) (b : List Byte) : PairRes :=
  match pairOf s p with
  | none => .keep b false none
  | some q =>
    let pr := pairId p q
    if s.fget (PORT_CTL_RED p) = 1 then
      match prpTrailer b with
      | none => .keep b false none
      | some (seq, lan) =>
        match dupFind s pr (frSa b) seq with
        | some _ => .drop (some (PORT_DUPDISC_N p))
        | none => .keep (b.take (b.length - 6)) (lan != (if p < q then 0xA else 0xB)) (some seq)
    else
      match hsrTag b with
      | none => .drop (some (PORT_WRONGLAN_N p))
      | some seq =>
        match dupFind s pr (frSa b) seq with
        | some e => .drop (if e.own then none else some (PORT_DUPDISC_N p))
        | none => .keep (hsrStrip b) false (some seq)

/-- Sequence numbers for the pairs a frame leaves on, with the counters advanced. -/
def pairSeqs (mask : Nat) (s : State) : List (Nat × Nat) × State :=
  (maskList 12 mask).foldl (fun acc p =>
    let (l, s) := acc
    match pairOf s p with
    | none => (l, s)
    | some q =>
      let pr := pairId p q
      if (alookup pr l).isSome then (l, s)
      else
        let n := (alookup pr s.net.pairSeq).getD 0
        (l ++ [(pr, n)], s.modNet (fun x => { x with pairSeq := ainsert pr ((n + 1) % 65536) x.pairSeq })))
    ([], s)

/-- A destination mask with the partners of its pair ports. -/
def pairMask (s : State) (mask : Nat) : Nat :=
  (maskList 12 mask).foldl (fun m p => match pairOf s p with
    | some q => m ||| 2 ^ q
    | none => m) mask

/-! ### Stream table (R209 to R213) -/

def seGen (r : List Byte) : Nat := leAt r 0 2
def seV (r : List Byte) : Bool := bitOf (leAt r 2 1) 7
def seLock (r : List Byte) : Bool := bitOf (leAt r 2 1) 6
def seC0 (r : List Byte) : Bool := bitOf (leAt r 2 1) 5
def seVmid (r : List Byte) : Nat := leAt r 3 1
def seKind (r : List Byte) : Nat := leAt r 4 1
def seKey (r : List Byte) : List Byte := sliceOf r 4 20
def seInports (r : List Byte) : Nat := leAt r 0x18 2
def seDest (r : List Byte) : Nat := leAt r 0x1A 2
def seTc (r : List Byte) : Nat := leAt r 0x1C 1
def seKs (r : List Byte) : Nat := leAt r 0x1D 1
def seRlim (r : List Byte) : Nat := leAt r 0x1E 2
def seRburst (r : List Byte) : Nat := leAt r 0x20 1
def seRepcl (r : List Byte) : Nat := leAt r 0x21 1
def seTarget (r : List Byte) : Nat := leAt r 0x24 4

/-- Address of a stream-table entry. -/
def stAddr (s : State) (i : Nat) : Nat := s.fget NETSW_STBASE_ADDR * 4096 + 64 * i

/-- The two buckets of a key (R211). -/
def bucketA (key : List Byte) : Nat := crc32c key % 4096
def bucketB (key : List Byte) : Nat :=
  let b := crc32c key / 4096 % 4096
  if b = bucketA key then (bucketA key + 1) % 4096 else b

/-- The 16 table indices where a key may lie. -/
def keySlots (key : List Byte) : List Nat :=
  (List.range 8).map (bucketA key * 8 + ·) ++ (List.range 8).map (bucketB key * 8 + ·)

/-- Reads table entries for the classifier (VC2, ticket VMID 0xFF). -/
def readEntries (is : List Nat) (s : State) : List (Nat × List Byte) × State :=
  is.foldl (fun acc i =>
    let (l, s) := acc
    let (b, s) := s.engRead 10 0xFF (stAddr s i) 64
    (l ++ [(i, b)], s)) ([], s)

/-- Ports of a mask that the variant lacks. -/
def absentPorts (s : State) (mask : Nat) : Bool := (maskList 13 mask).any (fun p => !s.portFitted p)

/-- ERR 1 of R231: a reserved field set or a value out of range. -/
def seRangeBad (r : List Byte) : Bool :=
  leAt r 2 1 % 32 != 0 || !allZero (sliceOf r 5 1) || leAt r 7 1 / 16 != 0 || leAt r 0x18 2 / 2 ^ 13 != 0 ||
  bitOf (seDest r) 15 || seTc r / 16 != 0 || seRepcl r / 16 != 0 || !allZero (sliceOf r 0x22 2) ||
  !allZero (sliceOf r 0x28 24) ||
  !(decide (seVmid r < 64) || seVmid r == 0xFF) || !(decide (1 ≤ seKind r) && decide (seKind r ≤ 6)) ||
  (bitOf (seDest r) 14 && decide (3 < seKind r)) ||
  (!seC0 r && seTc r % 8 == 7) || !(decide (seKs r < 64) || seKs r == 0xFF) ||
  (!seC0 r && (seRlim r != 0 || seRburst r != 0 || seRepcl r != 0)) ||
  (decide (4 ≤ seKind r) && seTarget r != 0) || (seKind r == 2 && decide (8192 ≤ seTarget r))

/-- ERR 6 of R231: what a class-0 entry must be. -/
def seC0Bad (s : State) (r : List Byte) : Bool :=
  seC0 r && (seKind r != 1 || seDest r != 0x4000 || bitOf (seInports r) 12 || seRlim r == 0 || seRburst r == 0 ||
    (maskList 4 (seRepcl r)).any (fun c => !s.clusterFitted c))

/-- The checks every reader of an entry applies: ERR 1, 3, 4, 6 and 8. `others` are the other entries of the buckets. -/
def seChecks (s : State) (i : Nat) (r : List Byte) (others : List (Nat × List Byte)) : List (Nat × Bool) :=
  [(1, seRangeBad r), (3, !(keySlots (seKey r)).contains i),
   (4, others.any (fun o => o.1 != i && seV o.2 && seKey o.2 == seKey r)),
   (6, seC0Bad s r), (8, absentPorts s (seInports r) || absentPorts s (seDest r % 2 ^ 13))]

/-- Locked cache entries other than `i`. -/
def lockedOthers (s : State) (i : Nat) : Nat := (s.net.cache.filter (fun e => e.locked && e.idx != i)).length

/-- Locked cache entries: NETSW_STSTAT.LOCKED. -/
def lockedCount (s : State) : Nat := (s.net.cache.filter (·.locked)).length

/-- Ticks of one token: the token level counts RLIM per unit of 2⁻¹⁶ ns. -/
def tokenUnit : Nat := 10000000 * 65536

/-- The cache without its least recently used unlocked entry. -/
def evictLru (c : List StreamEnt) : List StreamEnt :=
  match c.reverse.find? (fun e => !e.locked) with
  | some v => c.filter (fun e => e.idx != v.idx)
  | none => c

/-- Writes an entry into the cache, its token bucket full (R212, R216). -/
def cacheWrite (i : Nat) (r : List Byte) (lock : Bool) (s : State) : State :=
  let c := s.net.cache.filter (fun e => e.idx != i)
  let c := if 4096 ≤ c.length then evictLru c else c
  if 4096 ≤ c.length then s.modNet (fun n => { n with cache := c })
  else s.modNet (fun n => { n with cache := ⟨i, r, lock, seRburst r * tokenUnit, s.now⟩ :: c })

/-! ### Classification (R210 to R212) -/

/-- A key's bytes, entry offsets 0x04 to 0x17. -/
def mkKey (kind vid dmac etype k2 k3 : Nat) : List Byte :=
  leBytes 1 kind ++ [0] ++ leBytes 2 vid ++ beBytes 6 dmac ++ beBytes 2 etype ++ leBytes 4 k2 ++ leBytes 4 k3

/-- The keys a frame is looked up under, in order. -/
def frameKeys (s : State) (f : NetFrame) : List (List Byte) :=
  let b := f.bytes
  let et := frEt b
  (if et = 0x88BA then match svIdOf b with
    | some id => [mkKey 1 f.vid (frDa b) et (apduAppid b) (crc32c id)]
    | none => [] else []) ++
  (if et = 0x88B8 then match gocbRefOf b with
    | some id => [mkKey 2 f.vid (frDa b) et (apduAppid b) (crc32c id)]
    | none => [] else []) ++
  (match udpAt b with
   | some h =>
     let d := udpDst b h
     if d ≠ 0 ∧ (d = s.fget NETSW_C37PORT_P0 ∨ d = s.fget NETSW_C37PORT_P1) then
       [mkKey 3 f.vid 0 0x0800 (ipSrc b) (beAt (udpPay b h) 4 2 * 65536 + d)]
     else []
   | none => []) ++
  (if et = s.fget CLASP_ETYPE_ET then
    [mkKey 4 f.vid 0 et (leAt (frPay b) 2 2 % 512 + leAt (frPay b) 1 1 * 65536) 0] else []) ++
  (match udpAt b with
   | some h => [mkKey 6 f.vid 0 0x0800 (ipDst b) (udpDst b h)]
   | none => []) ++
  [mkKey 5 f.vid (frDa b) et 0 0]

/-- An entry of the cache under a key. -/
def cacheFind (s : State) (key : List Byte) : Option StreamEnt :=
  s.net.cache.find? (fun e => seV e.raw && seKey e.raw == key)

/-- An entry is accepted at the frame's port; class-0 entries never match what a Clasp port delivers (R304). -/
def entryFits (f : NetFrame) (clasp : Bool) (r : List Byte) : Bool :=
  bitOf (seInports r) f.port && !(clasp && seC0 r)

/-- What a lookup answers. -/
inductive Look where
  | hit (e : StreamEnt)
  | miss
  /-- A key is not in the cache and the table must be read. -/
  | wait

/-- Lookup in the cache alone. -/
def lookCache (s : State) (f : NetFrame) (clasp : Bool) : List (List Byte) → Look
  | [] => .miss
  | k :: ks =>
    match cacheFind s k with
    | some e => if entryFits f clasp e.raw then .hit e else lookCache s f clasp ks
    | none => .wait

/-- Reads a key's buckets, logs every bad valid entry and answers the good entry with the key (R212). -/
def tableFind (key : List Byte) (s : State) : Option (Nat × List Byte) × State :=
  let (es, s) := readEntries (keySlots key) s
  let bad := fun (e : Nat × List Byte) => seV e.2 && firstErr (seChecks s e.1 e.2 es) != 0
  let s' := s.each (es.filter bad) (fun e => State.log' NETSW_STCMD_OP false 4 0xFF [e.1])
  ((es.find? (fun e => seV e.2 && !bad e && seKey e.2 == key)), s')

/-- Lookup that reads the table where the cache does not help. -/
def lookTable (f : NetFrame) (clasp : Bool) : List (List Byte) → State → Look × State
  | [], s => (.miss, s)
  | k :: ks, s =>
    match cacheFind s k with
    | some e => if entryFits f clasp e.raw then (.hit e, s) else lookTable f clasp ks s
    | none =>
      match tableFind k s with
      | (some (i, r), s) =>
        let s := cacheWrite i r false s
        if entryFits f clasp r then (.hit ⟨i, r, false, seRburst r * tokenUnit, s.now⟩, s) else lookTable f clasp ks s
      | (none, s) => lookTable f clasp ks s

/-- The queue of a received frame (R208). -/
def rxQueue (s : State) (f : NetFrame) (r : List Byte) : Nat :=
  if seC0 r then 7
  else if bitOf (seTc r) 3 then seTc r % 8
  else bitsOf (s.fget (PORT_PCPMAP_MAP f.port)) (3 * f.pcp) 3

/-- The frame with the result of its classification (R214). -/
def withEntry (s : State) (f : NetFrame) (e : StreamEnt) : NetFrame :=
  { f with sidx := e.idx, gen := seGen e.raw, kind := seKind e.raw, target := seTarget e.raw, ks := seKs e.raw,
           repcl := seRepcl e.raw, c0 := seC0 e.raw, owner := seVmid e.raw, igen := s.igen (seVmid e.raw),
           q := rxQueue s f e.raw, dest := seDest e.raw % 2 ^ 15, epoch := s.net.epoch }

/-! ### Authentication tags (R429, R430) -/

/-- The bytes of a frame as numbers, operands of the free functions. -/
def nums (b : List Byte) : List Nat := b.map (·.toNat)

/-- A frame's extension passes against key slot `ks`. -/
def tagOk (s : State) (ks : Nat) (b : List Byte) : Bool :=
  let kid := Config.openFn Site.tagKid (nums b) % 2 ^ 32
  let alg := Config.openFn Site.tagAlg (nums b) % 8
  let good := fun (k : Nat) => s.fget (KEY_KID_KID k) == kid && s.fbit (KEY_ATTR_V k) && s.fbit (KEY_ATTR_URX k) &&
    s.fget (KEY_ATTR_ALG k) == alg && alg != 0 &&
    Config.openFn Site.tagMac ((if h : k < 64 then s.keys[k] else 0) :: alg :: nums b) % 2 == 1
  if s.fget (KEY_KID_KID ks) = kid then good ks
  else s.fbit (KEY_ATTR_NEXTV ks) && good (s.fget (KEY_ATTR_NEXT ks))

/-- The slot a transmitted tag uses. -/
def txSlot (s : State) (ks : Nat) : Nat :=
  if s.fbit (KEY_ATTR_TXNEXT ks) ∧ s.fbit (KEY_ATTR_NEXTV ks) then s.fget (KEY_ATTR_NEXT ks) else ks

/-- The slot may tag (R430). -/
def txSlotOk (s : State) (ks : Nat) : Bool :=
  let k := txSlot s ks
  s.fbit (KEY_ATTR_V k) && s.fbit (KEY_ATTR_UTX k)

/-- The frame with its extension appended and its length fields corrected (R429). -/
def tagFrame (s : State) (ks : Nat) (b : List Byte) : List Byte :=
  let k := txSlot s ks
  let ops := (if h : k < 64 then s.keys[k] else 0) :: s.fget (KEY_KID_KID k) :: s.fget (KEY_ATTR_ALG k) :: nums b
  let n := Config.openFn Site.tagLen [s.fget (KEY_ATTR_ALG k)] % 64
  b.take (frEtOff b + 2) ++
    (List.range ((frPay b).length + n)).map (fun i => BitVec.ofNat 8 (Config.openFn Site.tagBytes (i :: ops)))

/-! ### Admission and replication (R216 to R218, R221) -/

/-- The bucket of an entry brought up to now: gains RLIM tokens per 10 ms, at most RBURST. -/
def refilled (s : State) (e : StreamEnt) : Nat :=
  min (seRburst e.raw * tokenUnit) (e.level + seRlim e.raw * (s.now - e.at_))

/-- Takes a token of stream `i`, if there is one. -/
def takeToken (i : Nat) (s : State) : Bool × State :=
  match s.net.cache.find? (fun e => e.idx == i) with
  | none => (true, s)
  | some e =>
    let lv := refilled s e
    let ok := decide (tokenUnit ≤ lv)
    let e' := { e with level := if ok then lv - tokenUnit else lv, at_ := s.now }
    (ok, s.modNet (fun n => { n with cache := n.cache.map (fun x => if x.idx = i then e' else x) }))

/-- Keeps a copy of a class-0 frame in the reserve of 65 536 cells, overwriting the oldest (R221). -/
def reserveTrim (win now room : Nat) : List NetFrame → List NetFrame × Bool
  | [] => ([], false)
  | f :: l =>
    if ((f :: l).map (·.cells)).sum ≤ room then (f :: l, false)
    else
      let (l', young) := reserveTrim win now room l
      (l', young || decide (now < f.ts + win))

/-- Adds a class-0 frame to the replay reserve. -/
def reserveAdd (f : NetFrame) (s : State) : State :=
  let (l, short) := reserveTrim (s.fget NETSW_RPWIN_W * usUnits 100) s.now (65536 - f.cells) s.net.reserve
  let s := s.modNet (fun n => { n with reserve := l ++ [f] })
  if short then (s.fset NETSW_RPSTAT_SHORT 1).log' NETSW_RPSTAT_SHORT false 2 0xFF [f.sidx] else s

/-- Stores a frame under a new handle. -/
def store (f : NetFrame) (s : State) : Nat × State :=
  let h := freeHandle 0 s.net.bufs
  (h, noteC0Use (s.modNet (fun n => { n with bufs := ainsert h f n.bufs })))

/-- The copy of handle `h` for destination `d` (R217, R218, R224). A launch-time frame goes to its port's own list. -/
def replicateOne (h : Nat) (f : NetFrame) (d : Nat) (s : State) : State :=
  let addRef := fun (s : State) => s.modNet (fun n => { n with bufs := match alookup h n.bufs with
    | some x => ainsert h { x with refs := x.refs + 1 } n.bufs
    | none => n.bufs })
  if d = 13 then toI0 f s
  else if d < 13 ∧ ¬ s.fbit (PORT_CTL_EN d) then countDiscard f d s
  else if f.launch.isSome then
    (addRef s).modNet (fun n => { n with arriving := n.arriving ++ [(d, h)] })
  else if queueFree s d f.q then addRef (setQueue d f.q (s.queue d f.q ++ [h]) s)
  else if f.c0 then s.bump (PORT_C0DROP_N (if d < 13 then d else f.port))
  else (addRef s).modNet (fun n => { n with resid := n.resid ++ [⟨h, d, s.now⟩] })

/-- Replicates an admitted frame to its destinations in ascending order and frees it when no copy is left. -/
def replicate (h : Nat) (s : State) : State :=
  match s.buf h with
  | none => s
  | some f => unref h 0 (s.each (maskList 15 f.dest) (replicateOne h f))

/-- The step of R216 at which a frame's admission fails: the pool counter, whether the owner's share was exceeded. -/
inductive Adm where
  | ok
  | police
  | c0drop
  | nobuf (share : Bool)
  deriving DecidableEq

/-- Steps 2 and 3 of R216. -/
def poolCheck (s : State) (f : NetFrame) : Adm :=
  if f.c0 then
    (if s.fget NETSW_C0POOL_CELLS < s.net.c0Use + f.cells ∨ 131072 ≤ s.net.bufs.length then .c0drop else .ok)
  else if s.shareLimit f.owner < s.net.occupancy f.owner + f.cells then .nobuf true
  else if s.freeCells < f.cells ∨ 131072 ≤ s.net.bufs.length then .nobuf false
  else .ok

/-- Counts an arrival of a VPI dropped over its share (R327). -/
def countShare (f : NetFrame) (share : Bool) (s : State) : State :=
  if share && decide (f.owner < 64) then s.bump (SELF_SHDROP_N f.owner) else s

/-- An accepted frame, classified: tag check, admission, mirror, reserve, replication (R216, R218, R221, R226, R429). -/
def acceptFrame (f : NetFrame) (s : State) : State :=
  if f.ks < 64 ∧ ¬ tagOk s f.ks f.bytes then s.bump (PORT_AUTHFAIL_N f.port)
  else
    let f := { f with auth := decide (f.ks < 64), cells := cellsOf (wireLen f.bytes), at_ := s.now }
    let (tok, s) := if f.c0 then takeToken f.sidx s else (true, s)
    if ¬ tok then s.bump (PORT_POLICE_N f.port)
    else
      match poolCheck s f with
      | .police => s
      | .c0drop => s.bump (PORT_C0DROP_N f.port)
      | .nobuf share => countShare f share (s.bump (PORT_NOBUF_N f.port))
      | .ok =>
        let dest := f.dest
        let (seqs, s) := pairSeqs dest s
        let f := { f with dest := pairMask s dest, rseq := seqs }
        let (h, s) := store f s
        let s := s.when f.c0 (reserveAdd f)
        replicate h (mirror f.port 1 f s)

/-- A classification miss (R231, PORT_CTL.MISS). -/
def missFrame (f : NetFrame) (s : State) : State :=
  let q := bitsOf (s.fget (PORT_PCPMAP_MAP f.port)) (3 * f.pcp) 3
  let f := { f with sidx := 0xFFFF, gen := 0, owner := 0xFF, q := q }
  match s.fget (PORT_CTL_MISS f.port) with
  | 1 => acceptFrame { f with dest := 2 ^ 13 } s
  | 2 =>
    let m := (s.vlan f.vid).1 % 2 ^ 14
    let ds := (maskList 14 m).filter (fun d => d != f.port && (d == 13 || s.portFitted d))
    acceptFrame { f with dest := (ds.map (2 ^ ·)).sum } s
  | _ => s.bump (PORT_MISSDROP_N f.port)

/-- Moves a cache entry to the front: it is the most recently used. -/
def cacheTouch (i : Nat) (s : State) : State :=
  s.modNet (fun n => { n with cache := n.cache.filter (·.idx == i) ++ n.cache.filter (·.idx != i) })

/-- What follows a completed lookup. -/
def afterLook (f : NetFrame) (r : Look) (s : State) : State :=
  match r with
  | .hit e => acceptFrame (withEntry s f e) (cacheTouch e.idx s)
  | _ => missFrame f s

/-- Classifies a frame: a hit or a known miss goes on, else the frame waits in the miss queue of 64 (R212). -/
def classify (clasp : Bool) (f : NetFrame) (s : State) : State :=
  if ¬ s.fbit NETSW_STAT_READY then missFrame f s
  else
    match lookCache s f clasp (frameKeys s f) with
    | .wait =>
      let s := s.bump NETSW_STMISS_N
      if 64 ≤ s.net.missq.length then s.bump (PORT_MISSDROP_N f.port)
      else s.modNet (fun n => { n with missq := n.missq ++ [{ f with epoch := n.epoch, at_ := s.now, asIs := clasp }] })
    | r => afterLook f r s

/-! ### Receive (R201, R207, R43 to R46) -/

/-- The MAC counter under which a frame is dropped, in the order of R201. -/
def macDrop (s : State) (p : Nat) (fr : RxFrame) : Option Fld :=
  if fr.symErr then some (PORT_SYMERR_N p)
  else if wireLen fr.bytes < 64 then some (PORT_RUNT_N p)
  else if s.fget (PORT_MAXLEN_LEN p) < wireLen fr.bytes then some (PORT_LONG_N p)
  else if ¬ fr.fcsOk then some (PORT_FCSERR_N p)
  else if frEt fr.bytes = 0x8808 then some (PORT_MACCTL_N p)
  else none

/-- VID and PCP of a received frame (R207). -/
def rxVid (s : State) (p : Nat) (b : List Byte) : Nat × Nat :=
  if frTagged b then (if frVid b = 0 then (s.fget (PORT_VLAN_PVID p), frPcp b) else (frVid b, frPcp b))
  else (s.fget (PORT_VLAN_PVID p), s.fget (PORT_VLAN_PCP p))

/-- VLAN acceptance (R207). -/
def vlanOk (s : State) (p : Nat) (b : List Byte) : Bool :=
  let real := frTagged b && frVid b != 0
  (match s.fget (PORT_VLAN_ACCEPT p) with
   | 1 => real
   | 2 => !real
   | _ => true) && bitOf (s.vlan (rxVid s p b).1).1 p

/-- The receive stamp of R42: raw capture less the receive latency, and less the asymmetry for a Sync. -/
def rxStamp (s : State) (p : Nat) (fr : RxFrame) : Nat :=
  let sync := match ptpOf fr.bytes with
    | some (0, 2) => true
    | _ => false
  let c : Int := (fr.stamp : Int) - (s.fget (TB_RXLAT_LAT p) * 4096 : Nat) -
    (if sync then signedOf 16 (s.fget (TB_ASYM_ASYM p)) * 4096 else 0)
  (c % (2 ^ 48 * secUnits : Nat)).toNat

/-- A frame as received at port `p`, before classification. -/
def rxNetFrame (s : State) (p : Nat) (b : List Byte) (ts : Nat) : NetFrame :=
  { bytes := b, ts := ts, sidx := 0xFFFF, gen := 0, port := p, vid := (rxVid s p b).1, pcp := (rxVid s p b).2,
    auth := false, replay := false, ptp := false, asIs := false, corr := false, kind := 0, target := 0, ks := 0xFF,
    repcl := 0, c0 := false, owner := 0xFF, igen := 0, q := 0, dest := 0, cells := cellsOf (wireLen b), at_ := s.now,
    epoch := s.net.epoch, refs := 0, rseq := [], stamp := false, tag := 0, launch := none, ring := 0 }

/-- The ports enabled for PTP as a list. -/
def ptpPorts (s : State) : List Nat := maskList 13 (s.fget TB_PTPPORTS_EN)

/-- A PTP event message: Sync, Pdelay_Req or Pdelay_Resp (R44). -/
def ptpEvent (t : Nat) : Bool := t == 0 || t == 2 || t == 3

/-- A PTP frame that is outside R44 and handled as an ordinary frame (R46). -/
def ptpOrdinary (s : State) (b : List Byte) : Bool :=
  match ptpOf b with
  | some (t, v) => v != 2 || ((t == 1 || t == 9) && decide (3 ≤ s.fget TB_PTPCTL_ROLE))
  | none => ptpUdp b

/-- A PTP frame on an enabled port, by role (R43, R45). -/
def ptpHandle (f : NetFrame) (t : Nat) (s : State) : State :=
  let role := s.fget TB_PTPCTL_ROLE
  let q := bitsOf (s.fget (PORT_PCPMAP_MAP f.port)) (3 * f.pcp) 3
  let fwd := (((ptpPorts s).filter (· != f.port)).map (2 ^ ·)).sum
  let f := { f with ptp := ptpEvent t, q := q, corr := decide (t = 0 ∨ t = 3) && decide (3 ≤ role) }
  let f := if t = 0 ∧ 3 ≤ role then
    { f with bytes := ptpCorrect f.bytes ((s.fget (TB_PDELAY_PD f.port) * 4096 : Nat) : Int) } else f
  let dest := if role ≤ 2 then 2 ^ 13 else if role = 3 then fwd else fwd + 2 ^ 13
  acceptFrame { f with dest := dest } s

/-- A frame that passed VLAN acceptance and duplicate discard. -/
def handleFrame (clasp : Bool) (f : NetFrame) (s : State) : State :=
  let on := bitOf (s.fget TB_PTPPORTS_EN) f.port && s.fget TB_PTPCTL_ROLE != 0
  if on && ptpOrdinary s f.bytes then classify clasp f (s.bump TB_CNT_PTPUNS)
  else
    match ptpOf f.bytes with
    | some (t, _) => if on then ptpHandle f t s else classify clasp f s
    | none =>
      if frEt f.bytes = 0x88FB then acceptFrame { f with dest := 2 ^ 13 } s else classify clasp f s

/-- HSR forwards a ring frame not addressed only to itself to the partner port (R220). -/
def hsrForward (p : Nat) (fr : RxFrame) (f : NetFrame) (s : State) : State :=
  match pairOf s p with
  | some q =>
    if s.fget (PORT_CTL_RED p) = 2 ∧ frDa fr.bytes ≠ Config.portMac p ∧ frDa fr.bytes ≠ Config.portMac q then
      let g := { f with bytes := fr.bytes, asIs := true, dest := 2 ^ q, cells := cellsOf (wireLen fr.bytes),
                        q := bitsOf (s.fget (PORT_PCPMAP_MAP p)) (3 * f.pcp) 3 }
      match poolCheck s g with
      | .ok => let (h, s) := store g s; replicate h s
      | .nobuf share => countShare g share (s.bump (PORT_NOBUF_N p))
      | _ => s.bump (PORT_C0DROP_N p)
    else s
  | none => s

/-- Counts an accepted frame (R230). -/
def countRx (p : Nat) (n : Nat) (s : State) : State :=
  let s := s.bump (PORT_RXFRM_N p)
  if h : p < 13 then
    s.modNet (fun x => { x with oct := x.oct.set p (min ((x.oct[p]).1 + n) (2 ^ 64 - 1), (x.oct[p]).2) })
  else s

/-- A frame at an external port that is not a Clasp port, from the MAC checks on (R201). -/
def receiveFrame (p : Nat) (fr : RxFrame) (s : State) : State :=
  match macDrop s p fr with
  | some c => s.bump c
  | none =>
    if ¬ vlanOk s p fr.bytes then s.bump (PORT_VLANDROP_N p)
    else
      let s := countRx p (wireLen fr.bytes) s
      match pairReceive s p fr.bytes with
      | .drop c => match c with
        | some f => s.bump f
        | none => s
      | .keep b wrong seq =>
        let s := s.when wrong (·.bump (PORT_WRONGLAN_N p))
        let s := match seq, pairOf s p with
          | some n, some q => dupAdd ⟨pairId p q, frSa b, n, s.now, false⟩ s
          | _, _ => s
        let f := rxNetFrame s p b (rxStamp s p fr)
        handleFrame false f (s.when seq.isSome (hsrForward p fr f))

/-- The port takes frames: fitted, enabled, and the switch forwards (R231, R232). -/
def portTakes (s : State) (p : Nat) : Bool :=
  s.portFitted p && s.fbit (PORT_CTL_EN p) && s.fbit NETSW_CTL_EN && s.domOn 7 && s.pllOn 5

/-! ### Frames from I0 (R216, R225) -/

/-- Admits and replicates a frame from I0 by steps 2 and 3 of R216; a refusal counts at every destination port. -/
def sendFromI0 (f : NetFrame) (s : State) : State :=
  let f := { f with cells := cellsOf (wireLen f.bytes), at_ := s.now }
  match poolCheck s f with
  | .c0drop => s.each (maskList 13 f.dest) (fun p => State.bump (PORT_C0DROP_N p))
  | .nobuf share => countShare f share (s.each (maskList 13 f.dest) (fun p => State.bump (PORT_NOBUF_N p)))
  | _ =>
    let (seqs, s) := pairSeqs f.dest s
    let f := { f with dest := pairMask s f.dest, rseq := seqs }
    let (h, s) := store f s
    replicate h s

end Sys2Proof.Machine
end

