-- ==== Sys2Proof/Machine/Clasp.lean ====
section
/-! DEFINITION. The Clasp logic (spec file 10): receive, age, forwarding, echo and time frames, local delivery,
origination and its registers. -/
namespace Sys2Proof.Machine

open Reg

/-- Changes the Clasp logic. -/
def State.modClasp (f : Clasp → Clasp) (s : State) : State := { s with clasp := f s.clasp }

/-- The port has the Clasp role (R304). -/
def claspRole (s : State) (p : Nat) : Bool := decide (p < 4) && s.portFitted p && s.fget (CLASP_PCTL_ROLE p) != 0

/-- The Clasp ports. -/
def claspPorts (s : State) : List Nat := (List.range 4).filter (claspRole s)

/-- A field of a Clasp header: offset and bytes (R305). -/
def chd (b : List Byte) (o n : Nat) : Nat := leAt b (14 + o) n

def clType (b : List Byte) : Nat := chd b 1 1
def clSrc (b : List Byte) : Nat := chd b 2 2 % 512
def clDst (b : List Byte) : Nat := chd b 4 2
def clSeq (b : List Byte) : Nat := chd b 6 2 + 65536 * chd b 0x1C 2
def clAge (b : List Byte) : Nat := chd b 8 4
def clHops (b : List Byte) : Nat := chd b 0xC 1
def clLen (b : List Byte) : Nat := chd b 0xE 2

/-- The payload of a Clasp frame. -/
def clPay (b : List Byte) : List Byte := sliceOf b 46 (clLen b)

/-- A device field names every device (0xFFFF) or this one. -/
def clForMe (s : State) (b : List Byte) : Bool := clDst b == 0xFFFF || clDst b % 512 == s.fget CLASP_DEV_NUM

/-- Writes a header field. -/
def clPut (b : List Byte) (o n v : Nat) : List Byte := putAt b (14 + o) (leBytes n v)

/-- A received frame that a Clasp port accepts: untagged, version 1, a known type and a payload that fits (R304, R305). -/
def clAccept (s : State) (b : List Byte) : Bool :=
  beAt b 12 2 == s.fget CLASP_ETYPE_ET && decide (46 ≤ b.length) && decide (wireLen b ≤ 768) &&
    chd b 0 1 / 16 == 1 && decide (1 ≤ clType b) && decide (clType b ≤ 5) && decide (clLen b ≤ 714) &&
    decide (46 + clLen b ≤ b.length)

/-- CLASP_MAXAGE in units of 1/16 ns. -/
def maxAge (s : State) : Nat := s.fget CLASP_MAXAGE_US * 16000

/-- AGE after the ingress addition (R313); it stays in 0 to 2³² − 1. -/
def ageIn (s : State) (p : Nat) (b : List Byte) : Nat :=
  (clampInt 0 (2 ^ 32 - 1) ((clAge b + s.fget (CLASP_LDLY_D p) : Nat) + signedOf 16 (s.fget (CLASP_ASYM_A p)))).toNat

/-- The live entries of the duplicate table (R311). -/
def claspDupLive (s : State) (e : Nat × Nat × Nat) : Bool := decide (s.now < e.2.2 + usUnits (s.fget CLASP_MAXAGE_US + 10))

/-- Whether a ring copy is a duplicate; a new pair is entered (R311). -/
def claspDup (b : List Byte) (s : State) : Bool × State :=
  let l := s.clasp.dups.filter (claspDupLive s)
  if l.any (fun e => e.1 == clSrc b && e.2.1 == clSeq b) then
    (true, (s.modClasp (fun c => { c with dups := l })).bump CLASP_DUPDISC_N)
  else
    let full := decide (4096 ≤ l.length)
    let l := if full then l.drop 1 else l
    (false, (s.modClasp (fun c => { c with dups := l ++ [(clSrc b, clSeq b, s.now)] })).when full
      (State.bump CLASP_DUPRISK_N))

/-- A new SEQ of the module's frame counter. -/
def nextClaspSeq (s : State) : Nat × State :=
  (s.clasp.seq, s.modClasp (fun c => { c with seq := (c.seq + 1) % 2 ^ 32 }))

/-- A Clasp frame of this module: addresses and AGE are written when it is sent. -/
def claspFrame (s : State) (ty dst seq : Nat) (pay : List Byte) : List Byte :=
  beBytes 6 0x0180C200000E ++ beBytes 6 0 ++ beBytes 2 (s.fget CLASP_ETYPE_ET) ++
    leBytes 1 0x10 ++ leBytes 1 ty ++ leBytes 2 (s.fget CLASP_DEV_NUM) ++ leBytes 2 dst ++ leBytes 2 seq ++
    leBytes 4 0 ++ leBytes 1 (s.fget CLASP_CTL_MAXHOP) ++ [0] ++ leBytes 2 pay.length ++ zeroBytes 12 ++
    leBytes 2 (seq / 65536) ++ zeroBytes 2 ++ pay

/-- A frame waits at a Clasp port to be originated. -/
def claspQueue (p : Nat) (f : ClaspOwn) (s : State) : State :=
  if h : p < 4 then s.modClasp (fun c => { c with own := c.own.set p (c.own[p] ++ [f]) }) else s

/-- The route mask of a device (R307). -/
def routeOf (s : State) (d : Nat) : Nat := (alookup d s.clasp.routes).getD 0

/-- The ports an originated frame leaves on (R309). -/
def originPorts (s : State) (dst : Nat) : List Nat :=
  if dst = 0xFFFF then claspPorts s
  else (claspPorts s).filter (fun p => bitOf (routeOf s (dst % 512)) p)

/-- Originates a frame on the ports of its destination. -/
def originate (dst : Nat) (f : ClaspOwn) (s : State) : State :=
  let ps := originPorts s dst
  if ps = [] then s.bump CLASP_NOROUTE_N else s.each ps (fun p => claspQueue p f)

/-- An ECHOREQ is answered (R314). -/
def echoAnswer (p : Nat) (b : List Byte) (ts : Nat) (s : State) : State :=
  let (seq, s) := nextClaspSeq s
  claspQueue p ⟨claspFrame s 4 (clSrc b) seq
    (tripleBytes ts ++ zeroBytes 12 ++ leBytes 2 (s.fget CLASP_DEV_NUM) ++ leBytes 2 (clSeq b)), none⟩ s

/-- The time a payload's triple names. -/
def payTime (b : List Byte) (o : Nat) : Nat := timeOfTriple (leAt b o 4) (leAt b (o + 4) 4) (leAt b (o + 8) 4)

/-- An ECHORSP for the outstanding request: link delay, neighbour, duplicate number (R306, R314). -/
def echoResult (p : Nat) (b : List Byte) (t4 : Nat) (s : State) : State :=
  if h : p < 4 then
    match s.clasp.echo[p] with
    | some (seq, some t1) =>
      let y := clPay b
      if leAt y 0x1A 2 ≠ seq then s
      else
        let d : Int := ((t4 : Int) - t1 - ((payTime y 12 : Int) - payTime y 0)) / 2
        let s := s.modClasp (fun c => { c with echo := c.echo.set p none, miss := c.miss.set p 0 })
        let s := (s.fset (CLASP_NBR_V p) 1).fset (CLASP_NBR_DEV p) (leAt y 0x18 2)
        let s := if d < 0 ∨ (usUnits 1000 : Int) < d then s.fset CLASP_STAT_LDLYERR 1
          else s.fset (CLASP_LDLY_D p) (d / 4096).toNat
        if leAt y 0x18 2 = s.fget CLASP_DEV_NUM then
          (s.fset CLASP_STAT_DUPDEV 1).log' CLASP_STAT_DUPDEV false 2 0xFF [p]
        else s
    | _ => s
  else s

/-- A TIME frame from TMASTER latches a pair while TTNEW = 0 (R315). -/
def timeLatch (b : List Byte) (age ts : Nat) (s : State) : State :=
  let m := s.fget CLASP_TM_TMASTER
  if clSrc b ≠ m ∨ s.fget CLASP_DEV_NUM = m ∨ s.fbit CLASP_STAT_TTNEW then s
  else
    let t := wrapTime (payTime b 30 + age * 4096)
    let put := fun (f : Nat → Fld) (t : Nat) (s : State) =>
      ((s.fset (f 0) (nsWord t)).fset (f 1) (secLoWord t)).fset (f 2) (secHiWord t)
    (put CLASP_TTRX_V ts (put CLASP_TTM_V t s)).fset CLASP_STAT_TTNEW 1

/-- Local delivery (R316). -/
def claspDeliver (p : Nat) (b : List Byte) (age ts : Nat) (s : State) : State :=
  match clType b with
  | 1 => classify true (rxNetFrame s p (clPay b) ts) s
  | 2 => timeLatch b age ts s
  | _ => classify true (rxNetFrame s p b ts) s

/-- Forwarding (R307 step 5): copies with HOPS less one and AGE as it stands wait in the egress ports' buffers. -/
def claspForward (p : Nat) (b : List Byte) (age ts : Nat) (s : State) : State :=
  if clHops b = 0 then s.bump CLASP_HOPDROP_N
  else
    let outs := (originPorts s (clDst b)).filter (· != p)
    if outs = [] then (if clDst b = 0xFFFF then s else s.bump CLASP_NOROUTE_N)
    else
      let b := clPut (clPut b 0xC 1 (clHops b - 1)) 8 4 age
      s.each outs (fun o s => if h : o < 4 then
        s.modClasp (fun c => { c with fwd := c.fwd.set o (c.fwd[o] ++ [⟨b, ts, s.now⟩]) }) else s)

/-- A Clasp frame that its port accepted (R307). Echo frames pass step 1, since the neighbour of R306 may carry this module's
number. -/
def claspProcess (p : Nat) (b : List Byte) (ts : Nat) (s : State) : State :=
  let echo := clType b == 3 || clType b == 4
  let age := ageIn s p b
  if clSrc b = s.fget CLASP_DEV_NUM ∧ ¬ echo then s.bump CLASP_OWN_N
  else if maxAge s < age then s.bump CLASP_AGEDROP_N
  else if clType b = 3 then echoAnswer p b ts s
  else if clType b = 4 then echoResult p b ts s
  else
    let (dup, s) := if s.fget (CLASP_PCTL_ROLE p) = 2 then claspDup b s else (false, s)
    let s := s.when (clForMe s b && !dup) (claspDeliver p b age ts)
    if clDst b ≠ 0xFFFF ∧ clForMe s b then s else claspForward p b age ts s

/-- A frame received on a Clasp port: MAC checks, then the Clasp checks (R304, R305). -/
def claspReceive (p : Nat) (fr : RxFrame) (s : State) : State :=
  match macDrop s p fr with
  | some c => s.bump c
  | none =>
    if ¬ s.fbit CLASP_CTL_EN then s
    else if ¬ clAccept s fr.bytes then s.bump CLASP_NONCLASP_N
    else claspProcess p fr.bytes (rxStamp s p fr) (countRx p (wireLen fr.bytes) s)

/-- A transmit stamp now: raw capture plus the transmit latency (R42). -/
def txStamp (s : State) (p : Nat) : Nat := wrapTime (s.now + s.fget (TB_TXLAT_LAT p) * 4096)

/-- What a Clasp port puts on the wire: its own addresses, and what is written at the first bit (R305, R314, R315). -/
def claspWire (s : State) (p : Nat) (b : List Byte) : List Byte :=
  let b := putAt b 0 (beBytes 6 0x0180C200000E ++ beBytes 6 (Config.portMac p))
  let t := txStamp s p
  if clType b = 2 ∧ clSrc b = s.fget CLASP_DEV_NUM then putAt b 30 (tripleBytes t)
  else if clType b = 4 ∧ clSrc b = s.fget CLASP_DEV_NUM then putAt b 58 (tripleBytes t)
  else b

/-- Starts a frame on port `p`. -/
def startTx (p : Nat) (t : TxNow) (s : State) : State :=
  if h : p < 13 then s.modNet (fun n => { n with tx := n.tx.set p (some t) }) else s

/-- The oldest forwarded frame that can still start, aged for its residence; late and old ones are discarded (R308,
R313). -/
def pickFwd (s : State) (p : Nat) : List ClaspFwd → State → Option (List Byte) × State
  | [], st => (none, st.modClasp (fun c => if h : p < 4 then { c with fwd := c.fwd.set p [] } else c))
  | f :: l, st =>
    if f.at_ + usUnits 1200 / 1000 < s.now then pickFwd s p l (st.bump CLASP_HOPLATE_N)
    else
      let age := clAge f.bytes + (txStamp s p - f.ts) / 4096
      if maxAge s < age then pickFwd s p l (st.bump CLASP_AGEDROP_N)
      else (some (clPut f.bytes 8 4 age), st.modClasp (fun c => if h : p < 4 then { c with fwd := c.fwd.set p l } else c))

/-- A Clasp port that is idle starts a forwarded frame or, unless DUPDEV stops it, one the module originates (R306,
R308). The truth value says whether something started. -/
def claspStart (p : Nat) (s : State) : Bool × State :=
  if ¬ s.fbit CLASP_CTL_EN then (false, s)
  else if h : p < 4 then
    match pickFwd s p s.clasp.fwd[p] s with
    | (some b, s) => (true, startTx p ⟨claspWire s p b, none, s.now, none⟩ s)
    | (none, s) =>
      if s.fbit CLASP_STAT_DUPDEV then (false, s)
      else
        match s.clasp.own[p] with
        | [] => (false, s)
        | f :: l =>
          let s := s.modClasp (fun c => { c with own := c.own.set p l })
          let s := if clType f.bytes = 3 then
            s.modClasp (fun c => { c with echo := c.echo.set p (some (clSeq f.bytes % 65536, some (txStamp s p))) }) else s
          (true, startTx p ⟨claspWire s p f.bytes, none, s.now,
            f.stamp.map (fun e => { e with stamp := txStamp s p })⟩ s)
  else (false, s)

/-- Wraps or completes a frame that the switch queued to a Clasp port and hands it to the ports of its destination
(R309); `inner` is the frame as the tag rule leaves it, `ring` says that it came from an I0 transmit ring. -/
def claspOriginate (ring : Bool) (inner : List Byte) (stamp : Option TsqEntry) (s : State) : State :=
  if ring ∧ frEt inner = s.fget CLASP_ETYPE_ET ∧ ¬ frTagged inner ∧ 46 ≤ inner.length then
    let (seq, s) := nextClaspSeq s
    let b := clPut (clPut (clPut (clPut (clPut inner 2 2 (s.fget CLASP_DEV_NUM)) 6 2 seq) 0x1C 2 (seq / 65536)) 8 4 0)
      0xC 1 (s.fget CLASP_CTL_MAXHOP)
    originate (clDst b) ⟨b, stamp⟩ s
  else if 714 < inner.length then s.bump CLASP_TOOBIG_N
  else
    let (seq, s) := nextClaspSeq s
    originate (s.fget CLASP_DEV_SINK) ⟨claspFrame s 1 (s.fget CLASP_DEV_SINK) seq inner, stamp⟩ s

/-! ### Registers (R317) -/

/-- Reads of the CLASP block. -/
def claspRead (off : Nat) (s : State) : Nat × State :=
  if off = 0x20 then (routeOf s (s.fget CLASP_RTIDX_DEV), s)
  else if 0x100 ≤ off ∧ off < 0x180 ∧ ¬ s.portFitted ((off - 0x100) / 0x20) then (0xFFFFFFFF, s)
  else tableRead regsCLASP (0xF0000E0000 + off) s

/-- Ring ports the module would have with `r` as the role of port `p`. -/
def ringPorts (s : State) (p r : Nat) : Nat :=
  ((List.range 4).filter (fun q => s.portFitted q && (if q = p then r else s.fget (CLASP_PCTL_ROLE q)) == 2)).length

/-- Writes of the CLASP block. -/
def claspWrite (off v : Nat) (s : State) : Rsp × State :=
  if off = 0x20 then
    if (maskList 4 v).any (fun p => !claspRole s p) then (.denied, s)
    else
      let d := s.fget CLASP_RTIDX_DEV
      let r := s.clasp.routes
      (.ok, s.modClasp (fun c => { c with routes := if v % 16 = 0 then aerase d r else ainsert d (v % 16) r }))
  else if 0x100 ≤ off ∧ off < 0x180 then
    let p := (off - 0x100) / 0x20
    if ¬ s.portFitted p then (.absent, s)
    else if off % 0x20 = 0 ∧ (s.fbit CLASP_CTL_EN ∨ ringPorts s p (v % 4) % 2 = 1) then
      (.denied, s)
    else tableWrite regsCLASP (0xF0000E0000 + off) v s
  else tableWrite regsCLASP (0xF0000E0000 + off) v s

/-! ### Meanings -/

/-- CLASP_FRAME_RECEIVE. -/
def execClaspFrameReceive (port : Fin 4) (fr : RxFrame) (s : State) : Result :=
  .next (if portTakes s port && claspRole s port then claspReceive port fr s else s)

/-- ECHO_REQUEST_SEND: a period of CLASP_ECHO.PER has passed at a Clasp port. -/
def execEchoRequestSend (port : Fin 4) (s : State) : Result :=
  .next (
    if ¬ (s.fbit CLASP_CTL_EN && claspRole s port && !s.fbit CLASP_STAT_DUPDEV) then s
    else
      let missed := (s.clasp.echo[port]).isSome
      let k := if missed then s.clasp.miss[port] + 1 else 0
      let s := s.when (decide (3 ≤ k)) (State.fset CLASP_STAT_LDLYERR 1)
      let (seq, s) := nextClaspSeq s
      let s := s.modClasp (fun c => { c with echo := c.echo.set port (some (seq % 65536, none)),
                                             miss := c.miss.set port k })
      claspQueue port ⟨claspFrame s 3 0xFFFF seq (leBytes 2 seq), none⟩ s)

/-- TIME_FRAME_SEND: a period of CLASP_TM.PER has passed at the time master. -/
def execTimeFrameSend (s : State) : Result :=
  .next (
    if s.fbit CLASP_CTL_EN && s.fbit CLASP_CTL_TTEN && !s.fbit CLASP_STAT_DUPDEV &&
        s.fget CLASP_DEV_NUM == s.fget CLASP_TM_TMASTER then
      let (seq, s) := nextClaspSeq s
      s.each (claspPorts s) (fun p => claspQueue p ⟨claspFrame s 2 0xFFFF seq [], none⟩)
    else s)

end Sys2Proof.Machine
end

