-- ==== Sys2Proof/Machine/NetPort.lean ====
section
/-! DEFINITION. The ports and the commands of the switch (spec files 02 and 07): transmit, launch-time frames, 10BASE-T1S,
the stream-table commands, replay, auditor, transmit rings and the NETSW and PORT registers. -/
namespace Sys2Proof.Machine

open Reg

/-! ### Transmit (R202, R203, R207, R220, R44, R45) -/

/-- Ten bit times of a port in units of 2⁻¹⁶ ns. -/
def bitTicks (s : State) (p : Nat) : Nat :=
  if p < 4 then 65536 else if p < 6 then 655360
  else if p < 12 then (match s.fget (PORT_CTL_SGSPD p) with
    | 2 => 6553600
    | 3 => 65536000
    | _ => 655360)
  else 65536000

/-- Time from the first bit of the preamble to the last bit of a frame of `n` bytes, FCS included. -/
def txTime (s : State) (p n : Nat) : Nat := (n + 8) * 8 * bitTicks s p / 10

/-- Launch slot of a port (R50). -/
def launchSlot (p : Nat) : Nat := (if p < 4 then 256 else 2048) * 65536

/-- The frame with the tag that leaves port `p` (R207); an untagged frame of I0 has no VID and leaves as it is. -/
def tagRule (s : State) (p : Nat) (f : NetFrame) : List Byte :=
  if f.asIs ∨ (f.port = 13 ∧ ¬ frTagged f.bytes) then f.bytes
  else if bitOf (s.vlan f.vid).2 p then frUntag f.bytes
  else frRetag f.bytes f.pcp f.vid

/-- The PTP corrections at the egress of port `p`: residence time in a transparent clock, origin time in one-step
transmission. -/
def ptpEgress (s : State) (p : Nat) (f : NetFrame) (b : List Byte) : List Byte :=
  let t := txStamp s p
  if f.corr then ptpCorrect b ((t : Int) - f.ts)
  else
    match ptpOf b with
    | some (0, 2) => if f.port = 13 ∧ s.fbit TB_PTPCTL_ONESTEP ∧ bitOf (s.fget TB_PTPPORTS_EN) p then
        ptpOrigin b (t / secUnits) (nsWord t) else b
    | _ => b

/-- The trailer or tag of a pair (R220). -/
def pairEgress (s : State) (p : Nat) (f : NetFrame) (b : List Byte) : List Byte :=
  if f.asIs then b
  else
    match pairOf s p with
    | none => b
    | some q =>
      let n := (alookup (pairId p q) f.rseq).getD 0
      if s.fget (PORT_CTL_RED p) = 1 then prpAppend b n (if p < q then 0xA else 0xB)
      else hsrInsert b n (if p < q then 0 else 1)

/-- What port `p` puts on the wire for a frame, FCS excluded. -/
def wireBytes (s : State) (p : Nat) (f : NetFrame) : List Byte := pairEgress s p f (ptpEgress s p f (tagRule s p f))

/-- The transmit time-stamp entry a frame asks for (R41, R47). -/
def stampEntry (s : State) (p : Nat) (f : NetFrame) : Option TsqEntry :=
  if ¬ f.stamp then none
  else
    match ptpOf f.bytes with
    | some (t, _) => some ⟨txStamp s p, p, t, ptpSeq f.bytes⟩
    | none => some ⟨txStamp s p, p, 0xF, f.tag⟩

/-- Enters a sent HSR frame, so that the ring returns it to nobody (R220). -/
def noteSent (p : Nat) (f : NetFrame) (s : State) : State :=
  match pairOf s p with
  | some q =>
    if s.fget (PORT_CTL_RED p) = 2 ∧ ¬ f.asIs then
      dupAdd ⟨pairId p q, frSa f.bytes, (alookup (pairId p q) f.rseq).getD 0, s.now, true⟩ s
    else s
  | none => s

/-- Sends the frame of a handle from port `p`; a Clasp port hands it to the Clasp logic (R309). -/
def sendHandle (p h : Nat) (f : NetFrame) (s : State) : State :=
  let s' := mirror p 2 f s
  if claspRole s p then (claspStart p (claspOriginate (f.port == 13) (tagRule s p f) (stampEntry s p f) (unref h 1 s'))).2
  else noteSent p f (startTx p ⟨wireBytes s p f, some h, s.now, stampEntry s p f⟩ s')

/-- A frame waited longer than NETSW_MAXRES (R217). -/
def aged (s : State) (f : NetFrame) : Bool := decide (f.at_ + s.fget NETSW_MAXRES_MS * usUnits 1000 < s.now)

/-- The waiting launch-time frame whose slot opens first. -/
def launchHead (s : State) (p : Nat) : Option LaunchFrame := if h : p < 13 then s.tb.launch[p].head? else none

/-- Sets the launch-time list of a port. -/
def setLaunch (p : Nat) (l : List LaunchFrame) (s : State) : State :=
  if h : p < 13 then s.modTb (fun t => { t with launch := t.launch.set p l }) else s

/-- Inserts a launch-time frame by its time, behind frames of the same time. -/
def launchInsert (x : LaunchFrame) : List LaunchFrame → List LaunchFrame
  | [] => [x]
  | y :: l => if x.t < y.t then x :: y :: l else y :: launchInsert x l

/-- A PTP event message of any source (R380). -/
def isPtpEvent (f : NetFrame) : Bool :=
  match ptpOf f.bytes with
  | some (t, v) => ptpEvent t && v == 2
  | none => false

/-- The frame may start before the waiting launch-time frame (R50, R380). -/
def mayStart (s : State) (p : Nat) (f : NetFrame) : Bool :=
  match launchHead s p with
  | none => true
  | some l => f.c0 || isPtpEvent f || decide (s.now + txTime s p (wireLen (wireBytes s p f)) ≤ l.t)

/-- A PTP event message whose end and gap pass the launch time moves the launch-time frame by a slot (R380). -/
def ptpDisplace (p : Nat) (f : NetFrame) (s : State) : State :=
  match launchHead s p with
  | some l =>
    if isPtpEvent f ∧ l.t < s.now + txTime s p (wireLen (wireBytes s p f) + 12) then
      (setLaunch p (launchInsert ⟨l.handle, l.t + launchSlot p⟩
        ((if h : p < 13 then s.tb.launch[p] else []).drop 1)) s).bump (TB_LCNT_SLIP p)
    else s
  | none => s

/-- The first handle of a queue that is neither aged out nor too long; those before it are discarded and counted. -/
def cleanQueue (p q : Nat) : List Nat → State → State
  | [], s => setQueue p q [] s
  | h :: l, s =>
    match s.buf h with
    | none => cleanQueue p q l s
    | some f =>
      if aged s f then cleanQueue p q l (unref h 1 (countDiscard f p s))
      else if s.fget (PORT_MAXLEN_LEN p) < wireLen (wireBytes s p f) then
        cleanQueue p q l (unref h 1 (s.bump (PORT_LONG_N p)))
      else setQueue p q (h :: l) s

/-- The highest queue whose head may start. -/
def pickQueue (s : State) (p : Nat) : List Nat → Option (Nat × Nat × NetFrame)
  | [] => none
  | q :: qs =>
    match s.queue p q with
    | h :: _ =>
      match s.buf h with
      | some f => if mayStart s p f then some (q, h, f) else pickQueue s p qs
      | none => pickQueue s p qs
    | [] => pickQueue s p qs

/-- An idle port starts its next frame. -/
def portStart (p : Nat) (s : State) : State :=
  let (started, s) := if claspRole s p then claspStart p s else (false, s)
  if started then s
  else if claspRole s p ∧ (¬ s.fbit CLASP_CTL_EN ∨ s.fbit CLASP_STAT_DUPDEV) then s
  else
    let qs := [7, 6, 5, 4, 3, 2, 1, 0]
    let s := s.each qs (fun q s => cleanQueue p q (s.queue p q) s)
    match pickQueue s p qs with
    | none => s
    | some (q, h, f) => sendHandle p h f (ptpDisplace p f (setQueue p q ((s.queue p q).drop 1) s))

/-- The frame a port is sending. -/
def State.txOf (s : State) (p : Nat) : Option TxNow := if h : p < 13 then s.net.tx[p] else none

/-- The port is idle and may send. -/
def portIdle (s : State) (p : Nat) : Bool :=
  s.portFitted p && s.fbit (PORT_CTL_EN p) && s.domOn 7 && s.pllOn 5 && (s.txOf p).isNone

/-- Ends the transmission of a port. -/
def endTx (p : Nat) (s : State) : State :=
  if h : p < 13 then s.modNet (fun n => { n with tx := n.tx.set p none }) else s

/-- PORT_FRAME_START. -/
def execPortFrameStart (port : Fin 13) (s : State) : Result :=
  .next (if portIdle s port then portStart port s else s)

/-- FRAME_TRANSMIT_COMPLETE (R218, R230, R47). -/
def execFrameTransmitComplete (port : Fin 13) (s : State) : Result :=
  .next (
    match s.txOf port with
    | none => s
    | some t =>
      if port = 12 ∧ s.net.t1s.until_.isSome then s
      else
        let s := (endTx port s).bump (PORT_TXFRM_N port)
        let s := s.modNet (fun n =>
          let o := n.oct[port]
          { n with oct := n.oct.set port (o.1, min (o.2 + wireLen t.bytes) (2 ^ 64 - 1)),
                   t1s := if port = 12 then ⟨0, none⟩ else n.t1s })
        let s := match t.stamp with
          | some e => tsqPush e s
          | none => s
        match t.handle with
        | some h => unref h 1 s
        | none => s)

/-! ### 10BASE-T1S (R205) -/

/-- The frame in hand at P12 is given up. -/
def t1sDiscard (s : State) : State :=
  let s' := (endTx 12 s).modNet (fun n => { n with t1s := ⟨0, none⟩ })
  match s.txOf 12 with
  | some t => match t.handle with
    | some h => unref h 1 s'
    | none => s'
  | none => s'

/-- T1S_COLLISION. -/
def execT1sCollision (late : Bool) (s : State) : Result :=
  .next (
    if (s.txOf 12).isNone ∨ s.net.t1s.until_.isSome then s
    else if late then t1sDiscard (s.bump (PORT_LATECOLL_N 12))
    else
      let n := s.net.t1s.n + 1
      let s := s.bump (PORT_COLL_N 12)
      if n = 16 then t1sDiscard (s.bump (PORT_XCOLL_N 12))
      else
        let (r, s) := s.draw Site.backoff (min n 10)
        s.modNet (fun x => { x with t1s := ⟨n, some (wrapTime (s.now + r * 51200 * 65536))⟩ }))

/-- T1S_BACKOFF_EXPIRY: the frame in hand is sent again. -/
def execT1sBackoffExpiry (s : State) : Result :=
  .next (
    match s.net.t1s.until_, s.txOf 12 with
    | some _, some t =>
      startTx 12 { t with start := s.now } (s.modNet (fun x => { x with t1s := ⟨x.t1s.n, none⟩ }))
    | _, _ => s)

/-! ### Launch-time frames (R50, R51, R380) -/

/-- A launch-time frame that misses its time. -/
def launchMiss (p h : Nat) (s : State) : State := unref h 1 (s.bump (TB_LCNT_MISS p))

/-- The owner of the port's launch resource sends from this ring (R380). -/
def launchOwned (s : State) (p ring : Nat) : Bool :=
  s.owner (28 + p) == (if ring < 64 then 0x40 + ring else 0x01)

/-- LAUNCH_FRAME_ARRIVAL. -/
def execLaunchFrameArrival (port : Fin 13) (handle : Nat) (s : State) : Result :=
  .next (
    if ¬ s.net.arriving.contains (port.val, handle) then s
    else
      let s := s.modNet (fun n => { n with arriving := n.arriving.erase (port.val, handle) })
      match s.buf handle with
      | none => s
      | some f =>
        let t := f.launch.getD 0
        if port = 12 ∨ ¬ launchOwned s port f.ring ∨ 16 ≤ s.tb.launch[port].length ∨ t + launchSlot port < s.now ∨
            s.now + secUnits < t then launchMiss port handle s
        else setLaunch port (launchInsert ⟨handle, t⟩ s.tb.launch[port]) s)

/-- LAUNCH_SLOT_OPEN. -/
def execLaunchSlotOpen (port : Fin 13) (s : State) : Result :=
  .next (
    match s.tb.launch[port] with
    | [] => s
    | x :: l =>
      if s.now < x.t then s
      else
        match s.buf x.handle with
        | none => setLaunch port l s
        | some f =>
          if x.t + launchSlot port < s.now then launchMiss port x.handle (setLaunch port l s)
          else if s.queue port 7 ≠ [] ∨ ¬ portIdle s port then
            (setLaunch port (launchInsert ⟨x.handle, x.t + launchSlot port⟩ l) s).bump (TB_LCNT_SLIP port)
          else if s.fget (PORT_MAXLEN_LEN port) < wireLen (wireBytes s port f) then
            unref x.handle 1 ((setLaunch port l s).bump (PORT_LONG_N port))
          else sendHandle port x.handle f (setLaunch port l s))

/-- Discards every waiting launch-time frame of a port as a miss (R379). -/
def launchDiscard (p : Nat) (s : State) : State :=
  if h : p < 13 then (setLaunch p [] s).each s.tb.launch[p] (fun x => launchMiss p x.handle) else s

/-! ### Receive commands -/

/-- FRAME_RECEIVE. -/
def execFrameReceive (port : Fin 13) (fr : RxFrame) (s : State) : Result :=
  .next (if ¬ portTakes s port then s else if claspRole s port then claspReceive port fr s else receiveFrame port fr s)

/-- STREAM_MISS_LOOKUP_DONE: the oldest waiting frame is classified. -/
def execStreamMissLookupDone (s : State) : Result :=
  .next (
    match s.net.missq with
    | [] => s
    | f :: l =>
      let clasp := f.asIs
      let f := { f with asIs := false }
      let s := s.modNet (fun n => { n with missq := l })
      let (r, s) := lookTable f clasp (frameKeys s f) s
      afterLook f r s)

/-- LINK_STATE_CHANGE (R204). -/
def execLinkStateChange (port : Fin 13) (link sigLos pcsLock : Bool) (s : State) : Result :=
  .next (((s.fsetB (PORT_STAT_LINK port) link).fsetB (PORT_STAT_SIGLOS port) sigLos).fsetB (PORT_STAT_PCSLOCK port) pcsLock)

/-! ### Queues: disabling, ageing, residues, auditor (R217 to R219) -/

/-- Discards everything queued at a port and counts it. -/
def dropQueues (p : Nat) (s : State) : State :=
  let s := s.each (List.range 8) (fun q s =>
    (setQueue p q [] s).each (s.queue p q) (fun h s => match s.buf h with
      | some f => unref h 1 (countDiscard f p s)
      | none => s))
  if h : p < 13 then
    (setLaunch p [] s).each s.tb.launch[p] (fun x s => match s.buf x.handle with
      | some f => unref x.handle 1 (countDiscard f p s)
      | none => s)
  else s

/-- FRAME_AGE_OUT: the head of a queue of P0 to P12, I0 (13) or I1 (14). -/
def execFrameAgeOut (port : Nat) (q : Fin 8) (s : State) : Result :=
  .next (
    match s.queue port q with
    | [] => s
    | h :: l =>
      match s.buf h with
      | none => setQueue port q l s
      | some f => if aged s f then setQueue port q l (unref h 1 (countDiscard f port s)) else s)

/-- One residue: aged out, moved into its queue, or kept (R218). -/
def residueOne (r : Residue) (s : State) : State :=
  match s.buf r.handle with
  | none => s
  | some f =>
    if r.t0 + s.fget NETSW_RESAGE_T * usUnits 10 < s.now then
      unref r.handle 1 (if r.dest < 13 then s.bump (PORT_RESDROP_N r.dest) else countDiscard f r.dest s)
    else if queueFree s r.dest f.q then setQueue r.dest f.q (s.queue r.dest f.q ++ [r.handle]) s
    else s.modNet (fun n => { n with resid := n.resid ++ [r] })

/-- RESIDUE_SERVICE. -/
def execResidueService (s : State) : Result :=
  .next ((s.modNet (fun n => { n with resid := [] })).each s.net.resid residueOne)

/-- Anything references a handle (R219). -/
def referenced (s : State) (h : Nat) : Bool :=
  s.net.queues.toList.any (·.contains h) || s.net.resid.any (·.handle == h) ||
    s.net.tx.toList.any (fun t => match t with
      | some x => x.handle == some h
      | none => false) ||
    s.net.arriving.any (·.2 == h) || s.tb.launch.toList.any (fun l => l.any (·.handle == h))

/-- AUDITOR_VISIT: the next frame handle. -/
def execAuditorVisit (s : State) : Result :=
  .next (
    if ¬ s.fbit NETSW_CTL_AUDEN then s
    else
      let h := s.net.audNext
      let s := s.modNet (fun n => { n with audNext := (h + 1) % 131072 })
      let seen := fun (l : List Nat) (s : State) => s.modNet (fun n => { n with audSeen := l })
      match s.buf h with
      | none => seen (s.net.audSeen.erase h) s
      | some f =>
        if f.refs = 0 ∨ referenced s h then seen (s.net.audSeen.erase h) s
        else if s.net.audSeen.contains h then
          let s := seen (s.net.audSeen.erase h) (s.modNet (fun n => { n with bufs := aerase h n.bufs }))
          ((s.bumpBy NETSW_AUDCNT_N f.cells).fset NETSW_STAT_AUDLEAK 1).log' NETSW_STAT_AUDLEAK false 2 0xFF [f.owner]
        else seen (s.net.audSeen ++ [h]) s)

/-! ### Stream-table commands (R213, R231) -/

/-- Ends a stream-table command's check with its code. -/
def stDone (err : Nat) (s : State) : State := (s.fset NETSW_STSTAT_BUSY 1).fset NETSW_STSTAT_ERR err

/-- UPDATE of entry `i`. -/
def stUpdate (i : Nat) (s : State) : State :=
  let (r, s) := s.engRead 10 0xFF (s.fget NETSW_STSRC_ADDR * 64) 64
  let (old, s) := s.engRead 10 0xFF (stAddr s i) 64
  let (others, s) := readEntries (keySlots (seKey r)) s
  let adm := (7, s.adm && (seC0 old && seV old || seC0 r && seV r))
  let gen := (2, seGen r != (seGen old + 1) % 65536)
  let err := if seV r then
      firstErr (gen :: adm :: (5, seLock r && decide (3072 ≤ lockedOthers s i)) :: seChecks s i r others)
    else firstErr [(1, leAt r 2 1 % 32 != 0 || !allZero (sliceOf r 5 1) || !allZero (sliceOf r 0x28 24)), gen, adm]
  if err ≠ 0 then stDone err s
  else
    let s := s.engWrite 10 0xFF (stAddr s i) r
    let s := s.modNet (fun n => { n with epoch := n.epoch + 1, cache := n.cache.filter (fun e => e.idx != i) })
    stDone 0 (if seV r then cacheWrite i r (seLock r) s else s)

/-- Indices of the table's entries that may have V = 1: those whose CTL byte memory lists. -/
def stCandidates (s : State) : List Nat :=
  let base := stAddr s 0
  (s.mem.filter (fun c => decide (base ≤ c.1) && decide (c.1 < base + 2 ^ 21) && (c.1 - base) % 64 == 2 &&
    bitOf c.2.toNat 7 && bitOf c.2.toNat 6)).map (fun c => (c.1 - base) / 64)

/-- One entry of ACTIVATE: loaded and locked, or skipped with an event (R213). -/
def activateOne (i : Nat) (s : State) : State :=
  let (r, s) := s.engRead 10 0xFF (stAddr s i) 64
  let (others, s) := readEntries (keySlots (seKey r)) s
  let err := firstErr ((5, decide (3072 ≤ lockedOthers s i)) :: seChecks s i r others)
  if err = 0 then cacheWrite i r true s
  else
    let s := s.modNet (fun n => { n with actErr := match n.actErr with
      | some 0 => some err
      | some e => some (min e err)
      | none => some err })
    s.log' NETSW_STCMD_OP false 4 0xFF [i, err]

/-- ACTIVATE. -/
def stActivate (s : State) : State :=
  let is := stCandidates s
  let s := (stDone 0 s).modNet (fun n => { n with actErr := some 0, epoch := n.epoch + 1 })
  s.each is activateOne

/-- FLUSH. -/
def stFlush (s : State) : State := stDone 0 (s.modNet (fun n => { n with cache := n.cache.filter (·.locked) }))

/-- A write of NETSW_STCMD. -/
def stCmd (v : Nat) (s : State) : Rsp × State :=
  if s.fbit NETSW_STSTAT_BUSY then (.denied, s)
  else
    match bitsOf v 16 3 with
    | 1 => (.ok, stUpdate (v % 32768) s)
    | 2 => (.ok, stActivate s)
    | 3 => (.ok, stFlush s)
    | _ => (.denied, s)

/-- STREAM_UPDATE. -/
def execStreamUpdate (rq : Req) (index : Nat) (s : State) : Result :=
  .next (s.regWriteAccess rq 0xF0000A0010 (stCmd (0x10000 + index % 32768)))

/-- STREAM_ACTIVATE. -/
def execStreamActivate (rq : Req) (s : State) : Result := .next (s.regWriteAccess rq 0xF0000A0010 (stCmd 0x20000))

/-- STREAM_FLUSH. -/
def execStreamFlush (rq : Req) (s : State) : Result := .next (s.regWriteAccess rq 0xF0000A0010 (stCmd 0x30000))

/-- STREAM_ACTIVATE_DONE. -/
def execStreamActivateDone (s : State) : Result :=
  .next (
    match s.net.actErr with
    | none => s
    | some e => (((s.fset NETSW_STAT_READY 1).fset NETSW_STSTAT_ERR e).fset NETSW_STSTAT_BUSY 0).modNet
        (fun n => { n with actErr := none }))

/-! ### Replay (R222) -/

/-- The SFE's replay context starts with cleared chains for cluster `c` (R261). -/
def sfeReplayStart (c : Nat) (s : State) : State :=
  if ¬ s.domOn 6 then s else
  let met := s.sfe.live.groups.filterMap (fun p => p.2.out.map (fun t => (p.1, t)))
  { (s.fset SFE_STAT_REPLAY 1) with sfe := { s.sfe with replay := some (c, sfeCtx0), met := met } }

/-- The SFE's replay context ends (R261). -/
def sfeReplayEnd (s : State) : State :=
  { (s.fset SFE_STAT_REPLAY 0) with sfe := { s.sfe with replay := none, met := [] } }

/-- A replay context with nothing left to process ends as well (assumption 21). -/
def sfeReplayIdle (s : State) : State :=
  match s.sfe.replay with
  | some (_, c) =>
    if s.net.replayQ = [] ∧ ¬ s.fbit NETSW_RPSTAT_BUSY ∧ c.groups.all (fun p => p.2.sets == []) then sfeReplayEnd s else s
  | none => s

/-- Starts a replay for cluster `c` from time `t` on. -/
def replayStart (c t : Nat) (s : State) : State :=
  let l := (s.net.reserve.filter (fun f => bitOf f.repcl c && decide (t ≤ f.ts))).map (fun f => { f with replay := true })
  sfeReplayStart c ((s.modNet (fun n => { n with replayQ := l })).fset NETSW_RPSTAT_BUSY 1)

/-- A write of NETSW_RPCMD. -/
def rpCmd (v : Nat) (s : State) : Rsp × State :=
  if 3 < v % 8 ∨ (bitOf v 8 ∧ s.fbit NETSW_RPSTAT_BUSY) then (.denied, s)
  else if ¬ bitOf v 8 then (.ok, s)
  else (.ok, replayStart (v % 8)
    (timeOfTriple (s.fget NETSW_RPT_NS_V) (s.fget NETSW_RPT_SECLO_V) (s.fget NETSW_RPT_SECHI_V)) s)

/-! ### Transmit rings and the spoof check (R224, R225, R324) -/

/-- The check of R324 that a frame of VPI `v` fails, 0 when it passes. -/
def spoofFail (s : State) (v : Nat) (b : List Byte) (ports : Nat) (auth : Bool) (ks : Nat) : Nat :=
  let e := (s.vpi v).ent
  let et := frEt b
  if et = 0x88F7 ∨ et = 0x88FB ∨ et = 0x892F ∨ et = 0x8808 ∨ et = s.fget CLASP_ETYPE_ET then 1
  else if ¬ (e.v ∧ e.smac ≤ frSa b ∧ frSa b < e.smac + e.smacn) then 2
  else if et = 0x88B8 ∨ et = 0x88BA then
    match (if et = 0x88B8 then gocbRefOf b else svIdOf b) with
    | none => 3
    | some id =>
      if s.pubs.any (fun p => decide (e.pubBase ≤ p.1) && decide (p.1 < e.pubBase + e.pubN) && p.2.v && p.2.sw &&
          p.2.kind == (if et = 0x88B8 then 1 else 2) && p.2.dmac == frDa b && p.2.appid == apduAppid b &&
          p.2.refh == crc32c id && (ports &&& p.2.ports) == ports && (!p.2.auth || (auth && ks == p.2.ks))) then 0 else 3
  else 0

/-- SPOOF of a VPI as its event names it. -/
def spoofFld : Fld := ⟨0xF00015C040, 0, 32, .rc, 0, .any⟩

/-- Counts a refused frame and logs it at most once in 100 ms per VPI. -/
def spoofCount (v check : Nat) (s : State) : State :=
  let s := s.bump (SELF_SPOOF_N v)
  let quiet := match (s.vpi v).spoofAt with
    | some t => decide (s.now < t + usUnits 100000)
    | none => false
  if quiet then s else (s.modVpi v (fun x => { x with spoofAt := some s.now })).log' spoofFld false 4 v [v, check]

/-- A descriptor field is out of range or a port is absent (R225). -/
def descBad (s : State) (d : List Byte) (slot : Nat) : Bool :=
  let ports := leAt d 0xE 2
  let len := leAt d 0x10 2
  ports / 2 ^ 13 != 0 || absentPorts s (ports % 2 ^ 13) || decide (len < 14) || decide (slot < 32 + len) ||
    (maskList 13 ports).any (fun p => decide (s.fget (PORT_MAXLEN_LEN p) < len + 4)) ||
    decide (6 < leAt d 0x12 1) || leAt d 0x13 1 / 8 != 0 || decide (999999999 < leAt d 0 4) ||
    (bitOf (leAt d 0x13 1) 2 && decide (63 < leAt d 0x14 1)) || !allZero (sliceOf d 0x15 11)

/-- The frame of a slot, with its descriptor (R225). -/
def ringFrame (s : State) (r : Nat) (d b : List Byte) : NetFrame :=
  let fl := leAt d 0x13 1
  let v := if r < 64 then r else 0xFF
  { rxNetFrame s 13 b 0 with
    vid := if frTagged b then frVid b else 0, pcp := if frTagged b then frPcp b else 0,
    owner := v, igen := s.igen v, q := leAt d 0x12 1 % 8, dest := leAt d 0xE 2 % 2 ^ 13, ptp := false,
    stamp := bitOf fl 0, tag := leAt d 0xC 2, ring := r,
    launch := if bitOf fl 1 then some (timeOfTriple (leAt d 0 4) (leAt d 4 4) (leAt d 8 4)) else none }

/-- TX_RING_FRAME: the slot at HEAD of a transmit ring. -/
def execTxRingFrame (ring : Fin 65) (s : State) : Result :=
  let r := ring.val
  .next (
    if ¬ s.fbit (TXRING_CFG_EN r) ∨ s.fget (TXRING_HEAD_IDX r) = s.fget (TXRING_TAIL_IDX r) ∨ ¬ s.domOn 7 then s
    else
      let v := if r < 64 then r else 0xFF
      let slot := if s.fbit (TXRING_CFG_SLOT r) then 16384 else 2048
      let head := s.fget (TXRING_HEAD_IDX r)
      let a := s.fget (TXRING_BASE_ADDR r) * 4096 + slot * head
      let (d, s) := s.engRead 10 v a 32
      let (b, s) := s.engRead 10 v (a + 32) (min (leAt d 0x10 2) (slot - 32))
      let s := s.fset (TXRING_HEAD_IDX r) ((head + 1) % (16 * 2 ^ s.fget (TXRING_CFG_SIZE r)))
      let auth := bitOf (leAt d 0x13 1) 2
      let ks := leAt d 0x14 1
      if descBad s d slot then s.bump (TXRING_ERR_N r)
      else
        let check := if r < 64 then spoofFail s r b (leAt d 0xE 2) auth ks else 0
        if check ≠ 0 then spoofCount r check s
        else if auth && !txSlotOk s ks then s.bump (TXRING_ERR_N r)
        else sendFromI0 (ringFrame s r d (if auth then tagFrame s ks b else b)) s)

/-! ### Registers (R230 to R232) -/

/-- Half-range bits of the global counters. -/
def netHalf (s : State) : Nat :=
  let half := fun (f : Fld) => decide (2 ^ 31 ≤ s.fget f)
  b2n (half NETSW_STMISS_N) + 2 * b2n (half NETSW_AUDCNT_N) +
    ((List.range 4).map (fun m => 2 ^ (m + 2) * b2n (half (NETSW_MIRDROP_N m)))).sum

/-- Octets received and sent of a port. -/
def State.octets (s : State) (p : Nat) : Nat × Nat := if h : p < 13 then s.net.oct[p] else (0, 0)

/-- PORT_CNTHALF of a port: the counters from +0x020 on. -/
def portHalf (s : State) (p : Nat) : Nat :=
  let fs := [PORT_RXFRM_N p, PORT_TXFRM_N p, PORT_FCSERR_N p, PORT_RUNT_N p, PORT_LONG_N p, PORT_SYMERR_N p,
    PORT_MACCTL_N p, PORT_VLANDROP_N p, PORT_AUTHFAIL_N p, PORT_POLICE_N p, PORT_NOBUF_N p, PORT_C0DROP_N p,
    PORT_MISSDROP_N p, PORT_RESDROP_N p, PORT_AGEDROP_N p, PORT_DUPDISC_N p, PORT_WRONGLAN_N p, PORT_COLL_N p,
    PORT_XCOLL_N p, PORT_LATECOLL_N p]
  b2n (decide (2 ^ 63 ≤ (s.octets p).1)) + 4 * b2n (decide (2 ^ 63 ≤ (s.octets p).2)) +
    ((fs.zipIdx 4).map (fun x => 2 ^ x.2 * b2n (decide (2 ^ 31 ≤ s.fget x.1)))).sum

/-- Any half-range bit: NETSW_STAT.CNTHALF. -/
def anyHalf (s : State) : Bool := netHalf s != 0 || (List.range 13).any (fun p => portHalf s p != 0)

/-- The switch's interrupt line toward supervisor software (R230, R231). -/
def netLine (s : State) : Bool :=
  (s.fbit NETSW_CTL_CNTIE && anyHalf s) || (s.fbit NETSW_CTL_AUDIE && s.fbit NETSW_STAT_AUDLEAK) ||
    (s.fbit NETSW_CTL_RPIE && s.fbit NETSW_RPSTAT_SHORT) ||
    (List.range 66).any (fun r => s.fbit (RXRING_CFG_IE r) && s.fget (RXRING_HEAD_IDX r) != s.fget (RXRING_TAIL_IDX r))

/-- A read of NETSW_C0USE: HWM and USE, then HWM reloaded with USE. -/
def c0useRead (s : State) : Nat × State :=
  (s.fget NETSW_C0USE_HWM * 65536 + s.net.c0Use % 32768, s.fset NETSW_C0USE_HWM s.net.c0Use)

/-- Reads of the NETSW block. -/
def netRead (off : Nat) (s : State) : Nat × State :=
  if off = 0x4 then (regValue s [NETSW_STAT_AUDLEAK, NETSW_STAT_READY] + 4 * b2n (anyHalf s), s)
  else if off = 0x14 then (regValue s [NETSW_STSTAT_BUSY, NETSW_STSTAT_ERR] + lockedCount s * 65536, s)
  else if off = 0x18 then (s.freeCells, s)
  else if off = 0x20 then c0useRead s
  else if off = 0x34 then
    (regValue s [NETSW_RPSTAT_SHORT, NETSW_RPSTAT_BUSY] + (s.net.reserve.map (·.cells)).sum, s)
  else if off = 0x5C then
    let v := s.vlan (s.fget NETSW_VLANIDX_VID)
    (v.2 * 65536 + v.1, s)
  else if off = 0x60 then (netHalf s, s)
  else tableRead regsNETSW (0xF0000A0000 + off) s

/-- Writes of the NETSW block. -/
def netWrite (off v : Nat) (s : State) : Rsp × State :=
  if off = 0x10 then stCmd v s
  else if off = 0x38 then rpCmd v s
  else if off = 0x5C then
    let k := s.fget NETSW_VLANIDX_VID
    (.ok, s.modNet (fun n => { n with vlans := ainsert k (bitsOf v 0 15, bitsOf v 16 15) n.vlans }))
  else tableWrite regsNETSW (0xF0000A0000 + off) v s

/-- A read of the low word of an octet counter: the counter is cleared and its high word copied (R230). -/
def octetRead (p : Nat) (tx : Bool) (s : State) : Nat × State :=
  let n := if tx then (s.octets p).2 else (s.octets p).1
  let s := s.fset (if tx then PORT_TXOCT_HI_N p else PORT_RXOCT_HI_N p) (n / 2 ^ 32)
  (n % 2 ^ 32,
   if h : p < 13 then
     s.modNet (fun x => { x with oct := x.oct.set p (if tx then ((x.oct[p]).1, 0) else (0, (x.oct[p]).2)) })
   else s)

/-- Reads of the PORT block. -/
def portRead (off : Nat) (s : State) : Nat × State :=
  let p := off / 0x1000
  let o := off % 0x1000
  if p < 13 ∧ o = 0x20 then octetRead p false s
  else if p < 13 ∧ o = 0x28 then octetRead p true s
  else if p < 13 ∧ o = 0x80 then (portHalf s p, s)
  else tableRead regsPORT (0xF0000B0000 + off) s

/-- A pair's two configurations disagree (R220). -/
def pairDisagree (s : State) (p : Nat) : Bool :=
  decide (p < 12) && s.fget (PORT_CTL_RED p) != 0 && s.fget (PORT_CTL_PARTNER p) != 0xF && (pairOf s p).isNone

/-- A write of PORT_CTL: a cleared EN discards what the port has queued (R217); a pair that disagrees sets REDERR. -/
def portCtl (p v : Nat) (s : State) : Rsp × State :=
  let v := if 6 ≤ p ∧ p < 12 then v else v - bitsOf v 12 2 * 4096
  if p = 12 ∧ bitsOf v 4 2 ≠ 0 then (.denied, s)
  else
    let was := s.fbit (PORT_CTL_EN p)
    let (r, s) := regWrite [PORT_CTL_SGSPD p, PORT_CTL_PARTNER p, PORT_CTL_RED p, PORT_CTL_MISS p, PORT_CTL_EN p] v s
    let s := if r = .ok ∧ was ∧ ¬ s.fbit (PORT_CTL_EN p) then dropQueues p s else s
    if r = .ok ∧ pairDisagree s p then
      (r, (s.fset (PORT_STAT_REDERR p) 1).fset (PORT_STAT_REDERR (s.fget (PORT_CTL_PARTNER p))) 1)
    else (r, s)

/-- Writes of the PORT block. -/
def portWrite (off v : Nat) (s : State) : Rsp × State :=
  let p := off / 0x1000
  let o := off % 0x1000
  if p < 13 ∧ o = 0 then portCtl p v s
  else if off = 0xC014 ∧ bitOf v 0 ∧ bitsOf v 8 8 = 255 then (.denied, s)
  else tableWrite regsPORT (0xF0000B0000 + off) v s

/-- PORT_DISABLE: a write of PORT_CTL with EN = 0. -/
def execPortDisable (rq : Req) (port : Fin 13) (v : Word) (s : State) : Result :=
  .next (s.regWriteAccess rq (0xF0000B0000 + 0x1000 * port) (portCtl port (v &&& 0xFFFFFFFE).toNat))

/-- NETSW_C0USE_READ. -/
def execNetswC0useRead (rq : Req) (s : State) : Result := .next (s.regReadAccess rq 0xF0000A0020 c0useRead)

/-- OCTET_COUNTER_LOW_READ. -/
def execOctetCounterLowRead (rq : Req) (port : Fin 13) (tx : Bool) (s : State) : Result :=
  .next (s.regReadAccess rq (0xF0000B0000 + 0x1000 * port + (if tx then 0x28 else 0x20)) (octetRead port tx))

end Sys2Proof.Machine
end

