-- ==== Sys2Proof/Machine/Publisher.lean ====
section
/-! DEFINITION. The GOOSE publisher on die N (R322 to R324, R430): templates, deliveries and retransmission. -/
namespace Sys2Proof.Machine

open Reg

/-- A publish entry. -/
def State.pub (s : State) (i : Nat) : Option Pub := alookup i s.pubs

/-- Writes a publish entry. -/
def State.setPub (i : Nat) (p : Pub) (s : State) : State := { s with pubs := ainsert i p s.pubs }

/-- The bytes of a number in `fuel` bytes at most, none before the first that is not 0. -/
def natBytes : Nat → Nat → List Byte
  | 0, _ => []
  | k + 1, n => if n = 0 then [] else natBytes k (n / 256) ++ [BitVec.ofNat 8 n]

/-- The minimal BER contents of a non-negative integer. -/
def berUInt (n : Nat) : List Byte :=
  match natBytes 9 n with
  | [] => [0]
  | b :: l => if 128 ≤ b.toNat then 0 :: b :: l else b :: l

/-- UtcTime of a delivery (R323). -/
def utcTime (s : State) (t : Nat) : List Byte :=
  beBytes 4 (wrapTo 32 ((t / secUnits : Nat) - (s.fget VPI_UTCOFS_S : Int))) ++
    beBytes 3 (nsWord t * 2 ^ 24 / 1000000000) ++ [BitVec.ofNat 8 (s.fget VPI_UTCOFS_TQ)]

/-- The template of an entry. -/
def template (s : State) (p : Pub) : List Byte := memRead s.pubMem (p.tpl * 64) p.tlen

/-- The allData contents of a template. -/
def templateData (s : State) (p : Pub) : List Byte := sliceOf (template s p) p.dofs p.dlen

/-- The GOOSE frame of an entry: the template with the held values, the time to live for the next interval (µs) and the
lengths of the enclosing PDU and APDU corrected. -/
def gooseFrame (s : State) (p : Pub) (next : Nat) : List Byte :=
  let b := template s p
  match apduElems 0x61 b with
  | none => b
  | some l =>
    let body := l.flatMap (fun e =>
      if e.1 = 0x81 then berElem 0x81 (berUInt (ceilDiv (2 * next) 1000))
      else if e.1 = 0x84 then berElem 0x84 p.utc
      else if e.1 = 0x85 then berElem 0x85 (berUInt p.stNum)
      else if e.1 = 0x86 then berElem 0x86 (berUInt p.sqNum)
      else if e.1 = 0xAB then berElem 0xAB p.held
      else berElem e.1 e.2)
    let apdu := berElem 0x61 body
    b.take (frEtOff b + 4) ++ beBytes 2 (8 + apdu.length) ++ sliceOf b (frEtOff b + 6) 4 ++ apdu

/-- Sends an entry's frame through I0, tagged when AUTH = 1; a slot that cannot tag is counted and logged (R430). -/
def pubSend (i : Nat) (p : Pub) (next : Nat) (s : State) : State :=
  let b := gooseFrame s p next
  if p.auth && !txSlotOk s p.ks then
    (s.bump KEY_CNT_TXNOKEY).log' KEY_CNT_TXNOKEY true 6 p.vmid [i]
  else
    let b := if p.auth then tagFrame s p.ks b else b
    sendFromI0 { rxNetFrame s 13 b 0 with
      vid := if frTagged b then frVid b else 0, pcp := if frTagged b then frPcp b else 0, owner := p.vmid,
      igen := s.igen p.vmid, c0 := p.c0, q := if p.c0 then 7 else p.tc, dest := p.ports % 2 ^ 13 } s

/-- Steps a GOOSE counter: 0xFFFF_FFFF steps to 1. -/
def stepCount (n : Nat) : Nat := if n = 0xFFFFFFFF then 1 else n + 1

/-- A change of data: new stNum, sqNum 0, sent at once, schedule restarted (R323). -/
def pubChange (i : Nat) (p : Pub) (held : List Byte) (s : State) : State :=
  let p := { p with held := held, stNum := stepCount p.stNum, sqNum := 0, utc := utcTime s s.now,
                    sched := some (p.tmin, s.now + usUnits p.tmin) }
  pubSend i p p.tmin (s.setPub i p)

/-- An output copy's delivery to entry `idx` of VPI `v`, with the check of R324 (R323). -/
def pubDeliver (v idx : Nat) (c0 : Bool) (bytes : List Byte) (s : State) : State :=
  let e := (s.vpi v).ent
  let i := e.pubBase + idx
  match s.pub i with
  | some p =>
    if idx < e.pubN ∧ p.v ∧ p.vmid = v ∧ (¬ c0 ∨ p.c0) then
      if p.kind ≠ 1 then s
      else if bytes.length ≠ p.dlen then (s.bump VPI_PUBLEN_N).log' VPI_PUBLEN_N true 6 v [i]
      else if bytes = p.held then s
      else pubChange i p bytes s
    else spoofCount v 3 s
  | none => spoofCount v 3 s

/-- The interval after `iv` µs (R323). -/
def nextInterval (p : Pub) (iv : Nat) : Nat := min (2 * iv) (p.tmax * 1000)

/-- GOOSE_RETRANSMIT. -/
def execGooseRetransmit (pub : Nat) (s : State) : Result :=
  .next (
    match s.pub pub with
    | some p =>
      match p.sched with
      | some (iv, due) =>
        if p.v ∧ due ≤ s.now then
          let n := nextInterval p iv
          let p := { p with sqNum := stepCount p.sqNum, sched := some (n, due + usUnits n) }
          pubSend pub p n (s.setPub pub p)
        else s
      | none => s
    | none => s)

end Sys2Proof.Machine
end

