-- ==== Sys2Proof/Machine/Io.lean ====
section
/-! DEFINITION. The CAN controllers and I/O groups, the identity bus, and the DTRIP logic (spec file 17). -/
namespace Sys2Proof.Machine

open Reg

/-- Changes the I/O blocks. -/
def State.modIo (f : IoState → IoState) (s : State) : State := { s with io := f s.io }

/-- The domain of the I/O logic is on. -/
def State.fabOn (s : State) : Bool := s.domOn 5

/-! ### Consistency groups (R177) -/

/-- Notes a consistency group at `off` of a lane's data memory with the time of its source message. -/
def noteGroup (l : Fin 52) (off len time : Nat) (s : State) : State :=
  let apart := fun (g : CGroup) => decide (g.off + g.len ≤ off) || decide (off + len ≤ g.off)
  s.modLane l (fun x => { x with cgroups := x.cgroups.filter apart ++ [⟨off, len, time⟩] })

/-- An engine writes a consistency group into data memory of lane `l` of role window `c`, unless the instance generation
has moved (R177, R328). -/
def groupWrite (blk vmid ig c l off : Nat) (bytes : List Byte) (time : Nat) (s : State) : State :=
  let a := 0x4100000000 + 0x100000 * c + 0x20000 * l + 0x10000 + off
  if vmid < 64 ∧ s.igen vmid ≠ ig then s.bump (SELF_FENCED_N vmid)
  else
    let s := s.engWrite blk vmid a bytes
    if c < 5 then noteGroup (clusterLane (s.groupOf c) l) off bytes.length time s else s

/-! ### CAN controllers (R440 to R446) -/

/-- Data bytes of a DLC code. -/
def dlcLen (fd : Bool) (dlc : Nat) : Nat :=
  if dlc ≤ 8 then dlc
  else if ¬ fd then 8
  else match dlc with
    | 9 => 12
    | 10 => 16
    | 11 => 20
    | 12 => 24
    | 13 => 32
    | 14 => 48
    | _ => 64

/-- The DLC code of a data length. -/
def lenDlc (n : Nat) : Nat :=
  if n ≤ 8 then n else if n ≤ 12 then 9 else if n ≤ 16 then 10 else if n ≤ 20 then 11 else if n ≤ 24 then 12
  else if n ≤ 32 then 13 else if n ≤ 48 then 14 else 15

/-- A message object: 96 bytes (R442). -/
def State.obj (s : State) (bus : Fin 2) (i : Nat) : List Byte := (alookup i s.io.can[bus].objs).getD (zeroBytes 96)

/-- Writes a message object. -/
def setObj (bus : Fin 2) (i : Nat) (b : List Byte) (s : State) : State :=
  s.modIo (fun x =>
    let c := x.can[bus]
    let o := if allZero b then aerase i c.objs else ainsert i b c.objs
    { x with can := x.can.set bus { c with objs := o } })

def obCfg (b : List Byte) : Nat := leAt b 0 4
def obV (b : List Byte) : Bool := bitOf (obCfg b) 31
def obTx (b : List Byte) : Bool := bitOf (obCfg b) 30
def obIde (b : List Byte) : Bool := bitOf (obCfg b) 29
def obId (b : List Byte) : Nat := obCfg b % 2 ^ 29
def obStat (b : List Byte) : Nat := leAt b 8 4
def obNew (b : List Byte) : Bool := bitOf (obStat b) 4
def obLost (b : List Byte) : Bool := bitOf (obStat b) 5
def obPend (b : List Byte) : Bool := bitOf (obStat b) 7

/-- The object with another STAT. -/
def obSetStat (b : List Byte) (v : Nat) : List Byte := putAt b 8 (leBytes 4 v)

/-- Data length of a transmit object's format. -/
def obTxLen (b : List Byte) : Nat := dlcLen (bitOf (leAt b 4 4) 7) (leAt b 4 4 % 16)

/-- Data length of the last received frame. -/
def obRxLen (b : List Byte) : Nat := dlcLen true (obStat b % 16)

/-- Valid objects of a controller. -/
def validObjs (s : State) (bus : Fin 2) : List (Nat × List Byte) := s.io.can[bus].objs.filter (fun o => obV o.2)

/-- The arbitration rank of an object, lowest first. -/
def obRank (b : List Byte) : Nat := if obIde b then obId b * 2 + 1 else obId b % 2048 * 2 ^ 19

/-- Sets EPASS from the error counters (ISO 11898-1). -/
def setEpass (bus : Fin 2) (s : State) : State :=
  s.fsetB (IO_STAT_EPASS bus) (decide (127 < s.fget (IO_STAT_TEC bus)) || decide (127 < s.fget (IO_STAT_REC bus)))

/-- The controller takes part on its bus. -/
def canOn (s : State) (bus : Fin 2) : Bool := s.fabOn && s.pllOn 3 && s.fbit (IO_CTL_EN bus) && !s.fbit (IO_STAT_BOFF bus)

/-- The stamp of a frame that ends now: its start-of-frame edge less the receive delay (R445). The length of the frame on
the bus, with its stuff bits, is a free value. -/
def canStamp (bus : Fin 2) (s : State) : Nat × State :=
  let (d, s) := s.draw Site.canSof 40
  (phaseShift s.tb.count (-((d + s.fget (IO_RXDLY_D bus) * 4096 : Nat) : Int) * 4096) / 4096, s)

/-- The receive error counter after a good frame (ISO 11898-1). -/
def recGood (bus : Fin 2) (s : State) : State :=
  let r := s.fget (IO_STAT_REC bus)
  if r = 0 then s
  else if r ≤ 127 then setEpass bus (s.fset (IO_STAT_REC bus) (r - 1))
  else
    let (d, s) := s.draw Site.canRec 8
    setEpass bus (s.fset (IO_STAT_REC bus) (119 + d % 9))

/-! ### I/O groups (R447) -/

def igV (g : List Byte) : Bool := bitOf (leAt g 2 1) 7
def igOut (g : List Byte) : Bool := bitOf (leAt g 2 1) 6
def igBus (g : List Byte) : Fin 2 := if bitOf (leAt g 2 1) 0 then 1 else 0
def igVmid (g : List Byte) : Nat := leAt g 3 1
def igFirst (g : List Byte) : Nat := leAt g 4 2
def igN (g : List Byte) : Nat := leAt g 6 1
def igSlot (g : List Byte) : Nat := leAt g 7 1
def igDest (g : List Byte) : Nat := leAt g 8 4
def igLen (g : List Byte) : Nat := leAt g 0xC 2

/-- An I/O group entry. -/
def State.ioGroup (s : State) (i : Nat) : List Byte := (alookup i s.io.groups).getD (zeroBytes 16)

/-- The object indices of a group. -/
def igObjs (g : List Byte) : List Nat := (List.range (igN g)).map (igFirst g + ·)

/-- Writes an input group's block as one consistency group and clears NEW and LOST of its objects (R447). -/
def inputGroupWrite (i : Nat) (time : Nat) (isol : Bool) (s : State) : State :=
  let g := s.ioGroup i
  let bus := igBus g
  let os := igObjs g
  let seq := (alookup i s.io.gseq).getD 0
  let lost := os.any (fun o => obLost (s.obj bus o))
  let old := os.any (fun o => !s.io.can[bus].fresh.contains o)
  let data := os.flatMap (fun o => sliceOf (s.obj bus o) 0x20 (obRxLen (s.obj bus o)))
  let bytes := tripleBytes time ++ leBytes 4 seq ++ leBytes 2 (b2n lost + 2 * b2n old + 4 * b2n isol) ++ zeroBytes 6 ++
    padTo (igLen g) data
  let d := igDest g
  let s := groupWrite 18 (igVmid g) (s.igen (igVmid g)) (bitsOf d 24 3) (bitsOf d 16 3) (d % 65536) bytes time s
  let s := s.each os (fun o s => setObj bus o (obSetStat (s.obj bus o) (obStat (s.obj bus o) &&& 0xFFFFFFCF)) s)
  s.modIo (fun x =>
    let c := x.can[bus]
    { x with gseq := ainsert i ((seq + 1) % 2 ^ 32) x.gseq,
             can := x.can.set bus { c with fresh := c.fresh.filter (fun o => !os.contains o) } })

/-- The input groups whose last object is object `o` of a controller. -/
def groupsEndingAt (s : State) (bus : Fin 2) (o : Nat) : List Nat :=
  (s.io.groups.filter (fun g => igV g.2 && !igOut g.2 && igBus g.2 == bus &&
    igFirst g.2 + igN g.2 == o + 1)).map (·.1)

/-- CAN_FRAME_RECEIVE (R440, R443, R447). -/
def execCanFrameReceive (bus : Fin 2) (fr : CanFrame) (s : State) : Result :=
  .next (
    if ¬ canOn s bus then s
    else
      let s := recGood bus s
      if fr.rtr then s.bump (IO_RXRTR_N bus)
      else
        match (validObjs s bus).find? (fun o => !obTx o.2 && obIde o.2 == fr.ext && obId o.2 == fr.id) with
        | none => s.bump (IO_NOMATCH_N bus)
        | some (i, b) =>
          let (ts, s) := canStamp bus s
          let (esi, s) := if fr.fd then s.draw Site.canSof 1 else (0, s)
          let had := obNew b
          let st := lenDlc fr.data.length + 16 + 32 * b2n (had || obLost b) + 64 * esi + 128 * b2n (obPend b)
          let b := putAt (putAt (obSetStat b st) 0x10 (tripleBytes ts)) 0x20 (padTo 64 fr.data)
          let s := (setObj bus i b s).when had (State.bump (IO_LOSTCNT_N bus))
          let s := s.modIo (fun x =>
            let c := x.can[bus]
            { x with can := x.can.set bus { c with fresh := c.fresh.filter (· != i) ++ [i] } })
          s.each (groupsEndingAt s bus i) (fun g => inputGroupWrite g ts false))

/-- CAN_FRAME_SENT: the frame of the pending object of lowest rank ends successfully (R444, R445). -/
def execCanFrameSent (bus : Fin 2) (obj : Nat) (s : State) : Result :=
  .next (
    let b := s.obj bus obj
    if ¬ canOn s bus ∨ s.fbit (IO_CTL_MON bus) ∨ ¬ (obV b ∧ obTx b ∧ obPend b) ∨
        (validObjs s bus).any (fun o => obTx o.2 && obPend o.2 && decide (obRank o.2 < obRank b)) then s
    else
      let (ts, s) := canStamp bus s
      let s := setObj bus obj (putAt (obSetStat b (obStat b - 128)) 0x10 (tripleBytes ts)) s
      let s := s.modIo (fun x =>
        let c := x.can[bus]
        { x with can := x.can.set bus { c with sent := ainsert obj (sliceOf b 0x20 (obTxLen b)) c.sent } })
      setEpass bus (s.fset (IO_STAT_TEC bus) (s.fget (IO_STAT_TEC bus) - 1)))

/-- Enters bus-off (R446). -/
def busOff (bus : Fin 2) (s : State) : State :=
  ((s.fset (IO_STAT_BOFF bus) 1).bump (IO_BOFFCNT_N bus)).log' (IO_STAT_BOFF bus) true 6 0xFF [bus]

/-- CAN_TX_ERROR: the object stays pending and is retried (R444, R446); a controller that monitors sends nothing
(R440). -/
def execCanTxError (bus : Fin 2) (obj : Nat) (e : CanTxErr) (s : State) : Result :=
  .next (
    let b := s.obj bus obj
    if ¬ canOn s bus ∨ s.fbit (IO_CTL_MON bus) ∨ ¬ (obV b ∧ obTx b ∧ obPend b) ∨ e = .arbitration then s
    else
      let t := s.fget (IO_STAT_TEC bus) + 8
      if 255 < t then busOff bus (setEpass bus (s.fset (IO_STAT_TEC bus) 255))
      else setEpass bus (s.fset (IO_STAT_TEC bus) t))

/-- CAN_RX_ERROR (R440, ISO 11898-1). -/
def execCanRxError (bus : Fin 2) (severe : Bool) (s : State) : Result :=
  .next (
    if ¬ canOn s bus then s
    else setEpass bus (s.fset (IO_STAT_REC bus) (min 255 (s.fget (IO_STAT_REC bus) + if severe then 8 else 1))))

/-- CAN_RECOVERY_DONE (R446). -/
def execCanRecoveryDone (bus : Fin 2) (s : State) : Result :=
  .next (
    if s.fbit (IO_STAT_BOFF bus) ∧ s.fbit (IO_CTL_RECOVER bus) then
      setEpass bus ((((s.fset (IO_STAT_BOFF bus) 0).fset (IO_CTL_RECOVER bus) 0).fset (IO_STAT_TEC bus) 0).fset
        (IO_STAT_REC bus) 0)
    else s)

/-- A write of CTL: RECOVER is kept, unreadable, while a recovery runs, and taken only in bus-off (R446). -/
def canCtl (bus : Fin 2) (v : Nat) (s : State) : Rsp × State :=
  let run := s.fbit (IO_CTL_RECOVER bus)
  let (r, s) := regWrite [IO_CTL_IE bus, IO_CTL_MON bus, IO_CTL_EN bus] v s
  (r, s.fsetB (IO_CTL_RECOVER bus) (run || (bitOf v 3 && s.fbit (IO_STAT_BOFF bus))))

/-- RECOVER: a write of CTL with RECOVER = 1. -/
def execRecover (rq : Req) (bus : Fin 2) (v : Word) (s : State) : Result :=
  .next (s.regWriteAccess rq (0xF000120000 + 0x100 * bus) (canCtl bus (v ||| 8).toNat))

/-- The bit timing of R441: at most 1 Mbit/s and 5 Mbit/s, SJW at most TSEG2. BRP 0 gives no rate. -/
def nbtOk (v : Nat) : Bool :=
  decide (80 ≤ bitsOf v 0 6 * (1 + bitsOf v 8 8 + bitsOf v 16 7)) && decide (bitsOf v 24 7 ≤ bitsOf v 16 7)

/-- The data bit timing. -/
def dbtOk (v : Nat) : Bool :=
  decide (16 ≤ bitsOf v 0 6 * (1 + bitsOf v 8 5 + bitsOf v 16 4)) && decide (bitsOf v 24 4 ≤ bitsOf v 16 4)

/-- Ends an I/O group or object command with its code. -/
def ioErr (e : Nat) (s : State) : State := s.fset IOBUS_CMDSTAT_ERR e

/-- UPDATE of an I/O group (R447, R458). -/
def ioUpdate (i : Nat) (s : State) : State :=
  let (g, s) := s.engRead 18 0xFF (s.fget IOBUS_STSRC_ADDR * 64) 16
  let old := s.ioGroup i
  let s := s.fset IOBUS_CMDSTAT_BUSY 1
  let os := igObjs g
  let bad1 := bitsOf (leAt g 2 1) 1 5 != 0 || !allZero (sliceOf g 0xE 2) ||
    (igV g && (!(decide (igVmid g < 64) || igVmid g == 0xFF) || decide (igN g < 1) || decide (16 < igN g) ||
      !(decide (igSlot g < 16) || igSlot g == 0xFF) || decide (2048 < igFirst g + igN g) ||
      (if igOut g then leAt g 0xA 2 != 0 else
        bitsOf (igDest g) 27 5 != 0 || bitsOf (igDest g) 19 5 != 0 || igDest g % 8 != 0 || decide (4 < bitsOf (igDest g) 24 3))))
  let bad3 := igV g && os.any (fun o => !obV (s.obj (igBus g) o) || obTx (s.obj (igBus g) o) != igOut g)
  let bad4 := igV g && (if igOut g then (os.map (fun o => obTxLen (s.obj (igBus g) o))).sum != igLen g
    else decide (232 < igLen g))
  let e := firstErr [(1, bad1), (2, leAt g 0 2 != (leAt old 0 2 + 1) % 65536), (3, bad3), (4, bad4)]
  if e ≠ 0 then ioErr e s else ioErr 0 (s.modIo (fun x => { x with groups := ainsert i g x.groups }))

/-- A write of IOBUS_CMD. -/
def iobusCmd (v : Nat) (s : State) : Rsp × State :=
  if s.fbit IOBUS_CMDSTAT_BUSY ∨ bitsOf v 16 3 ≠ 1 then (.denied, s) else (.ok, ioUpdate (v % 256) s)

/-- IOBUS_UPDATE. -/
def execIobusUpdate (rq : Req) (index : Nat) (s : State) : Result :=
  .next (s.regWriteAccess rq 0xF000120804 (iobusCmd (0x10000 + index % 256)))

/-- The selected bus and object (IOBUS_OBJSEL). -/
def objSel (s : State) : Fin 2 × Nat := (if s.fbit IOBUS_OBJSEL_BUS then 1 else 0, s.fget IOBUS_OBJSEL_IDX)

/-- The window as bytes. -/
def winBytes (s : State) : List Byte := (List.range 24).flatMap (fun k => leBytes 4 (s.fget (IOBUS_WIN_V k)))

/-- CONFIG: CFG, FMT and DATA of the window into the object; a second valid receive object of one identifier is refused
(R442). -/
def objConfigOp (s : State) : State :=
  let (bus, i) := objSel s
  let w := winBytes s
  if obV w && !obTx w && (validObjs s bus).any (fun o => o.1 != i && !obTx o.2 && obIde o.2 == obIde w &&
      obId o.2 == obId w) then ioErr 5 s
  else
    let b := s.obj bus i
    ioErr 0 (setObj bus i (putAt (putAt b 0 (w.take 8)) 0x20 (sliceOf w 0x20 64)) s)

/-- LATCH: the object into the window; its NEW and LOST are cleared. -/
def objLatchOp (s : State) : State :=
  let (bus, i) := objSel s
  let b := s.obj bus i
  let s := s.each (List.range 24) (fun k => State.fset (IOBUS_WIN_V k) (leAt b (4 * k) 4))
  ioErr 0 (setObj bus i (obSetStat b (obStat b &&& 0xFFFFFFCF)) s)

/-- SEND: DATA of the window into the object, PEND set. -/
def objSendOp (s : State) : State :=
  let (bus, i) := objSel s
  let b := s.obj bus i
  if ¬ (obV b ∧ obTx b) then ioErr 3 s
  else ioErr 0 (setObj bus i (obSetStat (putAt b 0x20 (sliceOf (winBytes s) 0x20 64)) (obStat b ||| 128)) s)

/-- CLEAR: the object becomes all zero. -/
def objClearOp (s : State) : State :=
  let (bus, i) := objSel s
  ioErr 0 (setObj bus i (zeroBytes 96) s)

/-- A write of IOBUS_OBJCMD. -/
def objCmd (v : Nat) (s : State) : Rsp × State :=
  match v % 8 with
  | 1 => (.ok, objConfigOp s)
  | 2 => (.ok, objLatchOp s)
  | 3 => (.ok, objSendOp s)
  | 4 => (.ok, objClearOp s)
  | _ => (.denied, s)

/-- CONFIG. -/
def execObjConfig (rq : Req) (s : State) : Result := .next (s.regWriteAccess rq 0xF000120810 (objCmd 1))

/-- LATCH. -/
def execObjLatch (rq : Req) (s : State) : Result := .next (s.regWriteAccess rq 0xF000120810 (objCmd 2))

/-- SEND. -/
def execObjSend (rq : Req) (s : State) : Result := .next (s.regWriteAccess rq 0xF000120810 (objCmd 3))

/-- CLEAR. -/
def execObjClear (rq : Req) (s : State) : Result := .next (s.regWriteAccess rq 0xF000120810 (objCmd 4))

/-- Sets PEND of every object of a group. -/
def pendAll (g : List Byte) (s : State) : State :=
  s.each (igObjs g) (fun o s => setObj (igBus g) o (obSetStat (s.obj (igBus g) o) (obStat (s.obj (igBus g) o) ||| 128)) s)

/-- IO_GROUP_REFRESH: REFR ms have passed for an output group (R447). -/
def execIoGroupRefresh (group : Nat) (s : State) : Result :=
  .next (
    let g := s.ioGroup group
    if igV g && igOut g && igDest g % 65536 != 0 && s.fabOn then pendAll g s else s)

/-- Splits a delivery over the objects of an output group in order; an object whose bytes differ from those it last sent
is set PEND. -/
def deliverObjs (bus : Fin 2) : List Nat → List Byte → State → State
  | [], _, s => s
  | o :: os, d, s =>
    let b := s.obj bus o
    let n := obTxLen b
    let new := d.take n
    let differs := alookup o s.io.can[bus].sent != some new
    let b := obSetStat (putAt b 0x20 new) (if differs then obStat b ||| 128 else obStat b)
    deliverObjs bus os (d.drop n) (setObj bus o b s)

/-- An output copy of KIND 2 delivers to group `i` (R447). -/
def ioDeliver (vmid i : Nat) (bytes : List Byte) (s : State) : State :=
  let g := s.ioGroup i
  if igV g ∧ igOut g ∧ igVmid g = vmid ∧ bytes.length = igLen g then deliverObjs (igBus g) (igObjs g) bytes s
  else (s.bump IOBUS_DENY_N).log' IOBUS_DENY_N true 6 vmid [i]

/-! ### Identity bus (R448 to R450, R490) -/

/-- Sets a bit of a field. -/
def setBit (f : Fld) (i : Nat) (b : Bool) (s : State) : State := s.fset f (putBit (s.fget f) i b)

/-- Notes a slot's change in IDBUS_EVT. -/
def slotEvt (slot : Nat) (s : State) : State := setBit IDBUS_EVT_SLOT slot true s

/-- A slot enters a state. -/
def slotState (slot st : Nat) (s : State) : State := slotEvt slot (s.fset (IDBUS_SLOT_STATE slot) st)

/-- The verdict on an identity record: 3 MISMATCH, 4 BADREC, 5 NOREC, or 0 when it passes (R449). -/
def slotVerdict (s : State) (slot : Nat) (id : Option (List Byte)) : Nat :=
  match id with
  | none => 5
  | some r =>
    if ¬ (leAt r 0 4 = 0x44495654 ∧ leAt r 4 1 = 1 ∧ leAt r 5 1 = 128 ∧ r.length = 128 ∧
        leAt r 0x7C 4 = crc32c (r.take 0x7C)) then 4
    else if s.fbit (IDBUS_EXP_V slot) ∧ ¬ s.fbit (IDBUS_EXP_ANY slot) ∧ leAt r 6 2 ≠ s.fget (IDBUS_EXP_KIND slot) then 3
    else 0

/-- Writes each input group of a slot once more with ISOL (R449). -/
def slotIsolate (slot : Nat) (s : State) : State :=
  s.each (s.io.groups.filter (fun g => igV g.2 && !igOut g.2 && igSlot g.2 == slot)) (fun g s =>
    inputGroupWrite g.1 s.now true s)

/-- Forgets that a slot passed. -/
def unpass (slot : Nat) (s : State) : State := s.modIo (fun x => { x with passed := x.passed.filter (· != slot) })

/-- SLOT_PRESENCE_CLOSE. -/
def execSlotPresenceClose (slot : Fin 16) (s : State) : Result :=
  .next (
    let s := slotEvt slot (setBit IDBUS_PRES_SLOT slot true s)
    if s.fbit IDBUS_CTL_EN then slotState slot 1 s else s)

/-- SLOT_DEBOUNCE_DONE: the record is read and checked. -/
def execSlotDebounceDone (slot : Fin 16) (identity : Option (List Byte)) (s : State) : Result :=
  .next (
    if s.fget (IDBUS_SLOT_STATE slot) ≠ 1 ∨ ¬ s.fbit IDBUS_CTL_EN ∨ s.io.passed.contains slot.val then s
    else
      let s := match identity with
        | some r => (s.modIo (fun x => { x with recs := ainsert slot (padTo 128 r) x.recs })).fset
            (IDBUS_SLOT_KIND slot) (leAt r 6 2)
        | none => s
      let v := slotVerdict s slot identity
      if v = 0 then s.modIo (fun x => { x with passed := x.passed ++ [slot.val] })
      else (slotState slot v s).log' (IDBUS_SLOT_STATE slot) true 6 0xFF [slot, v])

/-- SLOT_ENABLE: at the next idle of both buses. -/
def execSlotEnable (slot : Fin 16) (s : State) : Result :=
  .next (
    if ¬ s.io.passed.contains slot.val ∨ s.fbit (IDBUS_SLOT_FORCE slot) ∨ ¬ s.fbit IDBUS_CTL_EN then s
    else (slotState slot 2 (unpass slot s)).log' (IDBUS_SLOT_STATE slot) false 3 0xFF [slot, 2])

/-- SLOT_PRESENCE_OPEN. -/
def execSlotPresenceOpen (slot : Fin 16) (s : State) : Result :=
  .next (
    let s := slotState slot 0 (unpass slot (setBit IDBUS_PRES_SLOT slot false s))
    (slotIsolate slot s).log' (IDBUS_SLOT_STATE slot) false 2 0xFF [slot, 0])

/-- A write of IDBUS_SLOTs: FORCE isolates a slot; when it is cleared the record is read again (R449). -/
def slotForceOp (slot : Nat) (v : Nat) (s : State) : Rsp × State :=
  let was := s.fbit (IDBUS_SLOT_FORCE slot)
  let s := s.fsetB (IDBUS_SLOT_FORCE slot) (bitOf v 8)
  let seen := bitOf (s.fget IDBUS_PRES_SLOT) slot
  if bitOf v 8 ∧ ¬ was then
    let s := unpass slot s
    let s := if seen then slotState slot 1 s else s
    (.ok, (slotIsolate slot s).log' (IDBUS_SLOT_FORCE slot) false 2 0xFF [slot])
  else if was ∧ ¬ bitOf v 8 ∧ seen then (.ok, slotState slot 1 (unpass slot s))
  else (.ok, s)

/-- SLOT_FORCE. -/
def execSlotForce (rq : Req) (slot : Fin 16) (v : Word) (s : State) : Result :=
  .next (s.regWriteAccess rq (0xF000130140 + 4 * slot) (slotForceOp slot v.toNat))

/-- The cage exists on the variant. -/
def cageFitted (s : State) (c : Nat) : Bool := c < 6 && s.portFitted c

/-- SFP_INSERT: A0h bytes 0 to 63 are read and CC_BASE checked; the feed returns (R450, R490). -/
def execSfpInsert (cage : Fin 6) (a0 : Option (List Byte)) (s : State) : Result :=
  .next (
    if ¬ cageFitted s cage then s
    else
      let ok := match a0 with
        | some b => decide (leAt b 63 1 = ((b.take 63).map (·.toNat)).sum % 256) && decide (64 ≤ b.length)
        | none => false
      let s := setBit IDBUS_EVT_CAGE cage true (setBit IDBUS_PRES_CAGE cage true s)
      (setBit IDBUS_SFPSTAT_CCOK cage ok s).modIo (fun x => { x with noFeed := x.noFeed.filter (· != cage.val) }))

/-- CAGE_MODULE_REMOVED. -/
def execCageModuleRemoved (cage : Fin 6) (s : State) : Result :=
  .next (
    if ¬ bitOf (s.fget IDBUS_PRES_CAGE) cage then s
    else setBit IDBUS_EVT_CAGE cage true (setBit IDBUS_SFPSTAT_CCOK cage false (setBit IDBUS_PRES_CAGE cage false s)))

/-- CAGE_OVERCURRENT: the module loses its feed and its port reads SIGLOS (R490). -/
def execCageOvercurrent (cage : Fin 6) (s : State) : Result :=
  .next (
    if ¬ bitOf (s.fget IDBUS_PRES_CAGE) cage then s
    else
      let s := s.modIo (fun x => { x with noFeed := x.noFeed.filter (· != cage.val) ++ [cage.val] })
      (s.fset (PORT_STAT_SIGLOS cage) 1).log' (PORT_STAT_SIGLOS cage) false 2 0xFF [cage])

/-- A write of IDBUS_SFPCMD; what the module in the cage answers comes with it: read data, or an acknowledge. LEN 0 in
its 7 bits stands for 128. -/
def sfpCmd (v : Nat) (data : Option (List Byte)) (ack : Bool) (s : State) : Rsp × State :=
  let op := bitsOf v 30 2
  let cage := bitsOf v 24 3
  let ofs := bitsOf v 8 8
  let len := if v % 128 = 0 then 128 else v % 128
  if s.fbit IDBUS_SFPSTAT_BUSY ∨ (op ≠ 1 ∧ op ≠ 2) then (.denied, s)
  else
    let done := fun (e : Nat) (s : State) => (.ok, (s.fset IDBUS_SFPSTAT_BUSY 1).fset IDBUS_SFPSTAT_ERR e)
    if ¬ cageFitted s cage ∨ ¬ bitOf (s.fget IDBUS_PRES_CAGE) cage then done 2 s
    else if op = 2 then
      if ¬ (bitOf v 16 ∧ (ofs = 110 ∨ ofs = 127)) then done 3 s else done (if ack then 0 else 1) s
    else
      match data with
      | none => done 1 s
      | some d =>
        let d := padTo 128 (d.take len)
        done 0 (s.each (List.range 32) (fun k => State.fset (IDBUS_SFPBUF_V k) (leAt d (4 * k) 4)))

/-- SFP_READ. -/
def execSfpRead (rq : Req) (v : Word) (data : Option (List Byte)) (s : State) : Result :=
  .next (s.regWriteAccess rq 0xF000130300 (sfpCmd (0x40000000 + v.toNat % 2 ^ 30) data false))

/-- SFP_WRITE. -/
def execSfpWrite (rq : Req) (v : Word) (ack : Bool) (s : State) : Result :=
  .next (s.regWriteAccess rq 0xF000130300 (sfpCmd (0x80000000 + v.toNat % 2 ^ 30) none ack))

/-! ### Direct trip lines (R333, R451 to R454) -/

/-- The VPI that may command a line. -/
def grantee (s : State) (k : Nat) : Option Nat :=
  let w := if k < 4 then regValue s [VPI_DTGRANT0_V3, VPI_DTGRANT0_VMID3, VPI_DTGRANT0_V2, VPI_DTGRANT0_VMID2,
      VPI_DTGRANT0_V1, VPI_DTGRANT0_VMID1, VPI_DTGRANT0_V0, VPI_DTGRANT0_VMID0]
    else regValue s [VPI_DTGRANT1_V3, VPI_DTGRANT1_VMID3, VPI_DTGRANT1_V2, VPI_DTGRANT1_VMID2,
      VPI_DTGRANT1_V1, VPI_DTGRANT1_VMID1, VPI_DTGRANT1_V0, VPI_DTGRANT1_VMID0]
  let b := bitsOf w (8 * (k % 4)) 8
  if bitOf b 7 then some (b % 64) else none

/-- Sets a latch and its last command. -/
def setLatch (k : Nat) (val : Bool) (test : Bool) (task : Nat) (s : State) : State :=
  (((setBit DTRIP_STATE_LATCH k val s).fsetB (DTRIP_LAST_SRC k) test).fsetB (DTRIP_LAST_VAL k) val).fset
    (DTRIP_LAST_TASK k) task

/-- The command of task `task` of VPI `v` on one line (R451). -/
def tripLine (v task : Nat) (val : Bool) (k : Nat) (s : State) : State :=
  if h : k < 8 then
    if grantee s k ≠ some v then (s.bump (SELF_DTDENY_N v)).log' ⟨0xF00015C04C, 0, 32, .rc, 0, .any⟩ true 6 v [k]
    else
      let clash := match s.io.lastTrip[k] with
        | some c => c.task != task && c.val != val && decide (s.now < c.t + usUnits 100)
        | none => false
      let s := if clash then (s.bump DTRIP_CONFL_N).log' DTRIP_CONFL_N false 2 v [k, task] else s
      let s := s.modIo (fun x => { x with lastTrip := x.lastTrip.set k (some ⟨val, task, s.now⟩) })
      setLatch k val false task s
  else s

/-- A kind-0 output copy: bit 0 of the Q byte to each line of the mask (R179, R451). -/
def dtripCommand (v task : Nat) (mask : Nat) (val : Bool) (s : State) : State :=
  s.each (maskList 8 mask) (tripLine v task val)

/-- Lines whose contact state differs from LATCH AND ARM. -/
def tripMis (s : State) : Nat :=
  s.fget DTRIP_STATE_OUT ^^^ (s.fget DTRIP_STATE_LATCH &&& s.fget DTRIP_ARM_ARM)

/-- A write of DTRIP_ARM. -/
def armOp (v : Nat) (s : State) : Rsp × State :=
  if bitsOf v 8 8 ≠ 0xA5 then (.denied, s) else regWrite [DTRIP_ARM_ARM] v s

/-- DTRIP_ARM_WRITE. -/
def execDtripArmWrite (rq : Req) (v : Word) (s : State) : Result :=
  .next (s.regWriteAccess rq 0xF000140004 (armOp v.toNat))

/-- A write of DTRIP_TEST. -/
def testOp (v : Nat) (s : State) : Rsp × State :=
  let ks := maskList 8 (v % 256)
  if ks.any (fun k => (grantee s k).isSome) then (.denied, s)
  else (.ok, s.each ks (fun k => setLatch k (bitOf v (8 + k)) true 0))

/-- DTRIP_TEST_WRITE. -/
def execDtripTestWrite (rq : Req) (v : Word) (s : State) : Result :=
  .next (s.regWriteAccess rq 0xF000140010 (testOp v.toNat))

/-- DT_READBACK_MISMATCH: a mismatch has lasted 10 µs. -/
def execDtReadbackMismatch (line : Fin 8) (s : State) : Result :=
  .next (
    if bitOf (tripMis s) line then (setBit DTRIP_RBERR_B line true s).log' DTRIP_RBERR_B true 6 0xFF [line] else s)

/-! ### Digital line history, binary inputs, cross-trigger lines (R394, R455 to R457) -/

/-- Keeps an edge of a digital line: at most 64 per line, newest first. -/
def noteEdge (sig t : Nat) (level : Bool) (s : State) : State :=
  let mine := (s.io.edges.filter (fun e => e.1 == sig)).take 63
  s.modIo (fun x => { x with edges := (sig, t, level) :: mine ++ x.edges.filter (fun e => e.1 != sig) })

/-- A digital line's state at a time, from its history. -/
def lineAt (s : State) (sig t : Nat) : Bool :=
  match s.io.edges.find? (fun e => e.1 == sig && decide (e.2.1 ≤ t)) with
  | some e => e.2.2
  | none => false

/-- The TDC channel owned by `code` whose source is `src` (R52, R455, R395). -/
def tdcChan (s : State) (code src : Nat) : Option (Fin 8) :=
  (List.finRange 8).find? (fun k => s.owner k == code && s.fget (TB_TDCCTL_SRC k) == src)

/-- The states of the binary inputs a destination may see (R456). -/
def biVisible (s : State) (d : Nat) : Nat :=
  ((List.range 16).map (fun k =>
    let o := s.owner (12 + k)
    if 0x40 ≤ o ∧ ¬ (o = 0x40 + s.fget (DTRIP_BIDEST_VMID d) ∨ s.fbit (DTRIP_BIDEST_ALL d)) then 0 else 2 ^ k)).sum

/-- Writes the binary-input group to one destination (R456). -/
def biWriteOne (time : Nat) (d : Nat) (s : State) : State :=
  if h : d < 4 then
    if ¬ s.fbit (DTRIP_BIDEST_V d) then s
    else
      let m := biVisible s d
      let v := s.fget (DTRIP_BIDEST_VMID d)
      let bytes := tripleBytes time ++ leBytes 2 (s.fget DTRIP_BISTATE_DEB &&& m) ++ leBytes 2 (s.io.biChg[d] &&& m) ++
        leBytes 4 (s.io.biSeq[d]) ++ zeroBytes 12
      let s := groupWrite 20 v (s.igen v) (s.fget (DTRIP_BIDEST_CL d)) (s.fget (DTRIP_BIDEST_LANE d))
        (s.fget (DTRIP_BIDEST_OFS d)) bytes time s
      s.modIo (fun x => { x with biChg := x.biChg.set d 0, biSeq := x.biSeq.set d ((x.biSeq[d] + 1) % 2 ^ 32) })
  else s

/-- Writes the binary-input group to every destination. -/
def biWrite (time : Nat) (s : State) : State := s.each (List.range 4) (biWriteOne time)

/-- BI_PERIOD_WRITE. -/
def execBiPeriodWrite (s : State) : Result :=
  .next (if s.fget DTRIP_BIPER_P = 0 ∨ ¬ s.fabOn then s else biWrite s.now s)

/-- The stamp of a debounced change: the TDC capture of the edge, or the first sample of the stable run (R455). The
result is the stamp, whether a TDC gave it, and the state. -/
def biStamp (k : Nat) (s : State) : Nat × Bool × State :=
  let plain := phaseShift s.tb.count (-((usUnits (s.fget (DTRIP_BICFG_DEB k)) * 4096 : Nat) : Int)) / 4096
  if s.fbit (DTRIP_BICFG_STAMP k) then
    match tdcChan s 0x02 k with
    | some c =>
      match (s.tdc c).results with
      | (t, _) :: _ => (t, true, s.modTdc c (fun x => { x with results := [] }))
      | [] => (plain, false, s)
    | none => (plain, false, s)
  else (plain, false, s)

/-- A binary input's debounced state changes (R455, R456). Answers the stamp and whether the TDC gave it. -/
def biChange (k : Nat) (level : Bool) (s : State) : Nat × Bool × State :=
  let st := level != s.fbit (DTRIP_BICFG_INV k)
  let (t, tdc, s) := biStamp k s
  let s := setBit DTRIP_BISTATE_DEB k st (setBit DTRIP_BISTATE_RAW k level s)
  let s := setBit DTRIP_BIEVT_B k true s
  let s := ((s.fset (DTRIP_BITSNS_V k) (nsWord t)).fset (DTRIP_BITSLO_V k) (secLoWord t)).fset (DTRIP_BITSHI_V k) (secHiWord t)
  let s := (s.fsetB (DTRIP_BITSF_TDC k) tdc).fsetB (DTRIP_BITSF_RISE k) st
  let s := noteEdge k t st s
  let s := s.modIo (fun x => { x with biTime := t, biChg := x.biChg.map (fun c => putBit c k true) })
  (t, tdc, biWrite t s)

/-- A write of DTRIP_BICFGk (R455). -/
def bicfgOp (k : Nat) (v : Nat) (s : State) : Rsp × State :=
  if s.owner (12 + k) = 0 then (.denied, s)
  else if bitOf v 17 ∧ ¬ (s.owner (12 + k) = 0x02 ∧ (tdcChan s 0x02 k).isSome) then (.denied, s)
  else regWrite [DTRIP_BICFG_STAMP k, DTRIP_BICFG_INV k, DTRIP_BICFG_DEB k] v s

/-- BICFG_WRITE. -/
def execBicfgWrite (rq : Req) (k : Fin 16) (v : Word) (s : State) : Result :=
  .next (s.regWriteAccess rq (0xF000140100 + 4 * k) (bicfgOp k v.toNat))

/-- An edge on a cross-trigger line (R457). -/
def xtEdgeOp (k : Nat) (rise : Bool) (s : State) : State :=
  let t := s.now
  let s := setBit DTRIP_XTSTATE_LVL k rise s
  let s := ((s.fset (DTRIP_XTTSNS_V k) (nsWord t)).fset (DTRIP_XTTSLO_V k) (secLoWord t)).fset (DTRIP_XTTSHI_V k) (secHiWord t)
  noteEdge (16 + k) t rise s

/-- The cross-trigger lines the module drives (R457). -/
def xtDriven (s : State) : Nat :=
  ((List.range 4).map (fun k =>
    if (s.owner (8 + k) = 0x01 ∧ bitOf (s.fget DTRIP_XTDRV_D) k) ∨ (s.owner (8 + k) = 0x03 ∧ bitOf s.io.xtPulse k) then
      2 ^ k else 0)).sum

/-- A write of DTRIP_XTDRV. -/
def xtdrvOp (v : Nat) (s : State) : Rsp × State :=
  if (maskList 4 v).any (fun k => s.owner (8 + k) != 0x01) then (.denied, s) else regWrite [DTRIP_XTDRV_D] v s

/-- XTDRV_WRITE. -/
def execXtdrvWrite (rq : Req) (v : Word) (s : State) : Result :=
  .next (s.regWriteAccess rq 0xF000140300 (xtdrvOp v.toNat))

/-- XT_PULSE_END. -/
def execXtPulseEnd (line : Fin 4) (s : State) : Result :=
  .next (s.modIo (fun x => { x with xtPulse := putBit x.xtPulse line false }))

/-- A trip line's contact changes (R453). -/
def dtOutOp (k : Nat) (out : Bool) (s : State) : State :=
  noteEdge (24 + k) s.now out (setBit DTRIP_STATE_OUT k out s)

/-! ### Registers (R458 to R460) -/

/-- Reads of the IOBUS block. -/
def iobusRead (off : Nat) (s : State) : Nat × State :=
  tableRead regsIOBUS (0xF000120000 + off) s

/-- Writes of the IOBUS block. -/
def iobusWrite (off v : Nat) (s : State) : Rsp × State :=
  if off = 0x804 then iobusCmd v s
  else if off = 0x810 then objCmd v s
  else if off = 0 then canCtl 0 v s
  else if off = 0x100 then canCtl 1 v s
  else if (off = 0x8 ∨ off = 0x108) ∧ ¬ nbtOk v then (.denied, s)
  else if (off = 0xC ∨ off = 0x10C) ∧ ¬ dbtOk v then (.denied, s)
  else tableWrite regsIOBUS (0xF000120000 + off) v s

/-- Reads of the IDBUS block. -/
def idbusRead (off : Nat) (s : State) : Nat × State :=
  if 0x400 ≤ off ∧ off < 0x480 then
    (leAt ((alookup (s.fget IDBUS_RECSEL_SLOT) s.io.recs).getD (zeroBytes 128)) (off - 0x400) 4, s)
  else tableRead regsIDBUS (0xF000130000 + off) s

/-- Writes of the IDBUS block; a bare write of SFPCMD gets no answer from the cage. -/
def idbusWrite (off v : Nat) (s : State) : Rsp × State :=
  if 0x140 ≤ off ∧ off < 0x180 then slotForceOp ((off - 0x140) / 4) v s
  else if off = 0x300 then sfpCmd v none false s
  else tableWrite regsIDBUS (0xF000130000 + off) v s

/-- Reads of the DTRIP block. -/
def dtripRead (off : Nat) (s : State) : Nat × State :=
  if off = 8 then
    (tripMis s * 65536 + s.fget DTRIP_STATE_OUT * 256 + s.fget DTRIP_STATE_LATCH, s)
  else if off = 0x304 then (xtDriven s * 65536 + s.fget DTRIP_XTSTATE_LVL, s)
  else tableRead regsDTRIP (0xF000140000 + off) s

/-- Writes of the DTRIP block. -/
def dtripWrite (off v : Nat) (s : State) : Rsp × State :=
  if off = 4 then armOp v s
  else if off = 0x10 then testOp v s
  else if off = 0x300 then xtdrvOp v s
  else if 0x100 ≤ off ∧ off < 0x140 then bicfgOp ((off - 0x100) / 4) v s
  else tableWrite regsDTRIP (0xF000140000 + off) v s

/-- The interrupt lines of the three blocks toward supervisor software. -/
def ioLine (s : State) : Bool :=
  (List.finRange 2).any (fun b => s.fbit (IO_CTL_IE b) &&
    (s.fbit (IO_STAT_BOFF b) || (validObjs s b).any (fun o => !obTx o.2 && obNew o.2))) ||
  (s.fbit IDBUS_CTL_IE && (s.fget IDBUS_EVT_SLOT != 0 || s.fget IDBUS_EVT_CAGE != 0)) ||
  (s.fbit DTRIP_CTL_BIIE && s.fget DTRIP_BIEVT_B != 0) || (s.fbit DTRIP_CTL_RBIE && s.fget DTRIP_RBERR_B != 0)

end Sys2Proof.Machine
end

