-- ==== Sys2Proof/Machine/Sfe.lean ====
section
/-! DEFINITION. The sample front end (spec file 08): staged tables, decoding, assembly, chains, delivery, detectors, phasor
channels and the replay context. The commands that also reach recorders and the Locket feed stand in SfeCmd.lean. -/
namespace Sys2Proof.Machine

open Reg

/-- Changes the sample front end. -/
def State.modSfe (f : Sfe → Sfe) (s : State) : State := { s with sfe := f s.sfe }

/-- Channel slots and phasor channels fitted (R234). -/
def State.sfeSlots (s : State) : Nat := if s.variant = .e then 8192 else 16384
def State.phasorChannels (s : State) : Nat := if s.variant = .e then 2048 else 4096

/-! ### Tables -/

/-- The valid inputs of a group, by member. -/
def grpInputs (t : Sfe) (g : Nat) : List (Nat × SfeInput) :=
  let l := t.inputs.filter (fun p => p.2.v && p.2.group == g)
  (List.range 8).flatMap (fun m => l.filter (fun p => p.2.member == m))

/-- The used channel slots of an input, in dataset order. -/
def SfeInput.slots (e : SfeInput) : List Nat := (maskList 32 e.used).map (fun k => e.slot0 + k)

/-- The valid channel entry of a slot. -/
def chanOf (t : Sfe) (slot : Nat) : Option SfeChan :=
  match alookup slot t.chans with
  | some c => if c.v then some c else none
  | none => none

/-- The valid entry of a group. -/
def grpOf (t : Sfe) (g : Nat) : Option SfeGroup :=
  match alookup g t.groups with
  | some e => if e.v then some e else none
  | none => none

/-- Every used slot of a group, member by member. -/
def grpSlots (t : Sfe) (g : Nat) : List Nat := (grpInputs t g).flatMap (fun p => p.2.slots)

/-- A group is complete (R500). -/
def grpComplete (t : Sfe) (g : Nat) : Bool :=
  match grpOf t g with
  | some e => decide ((grpInputs t g).length = e.nmem) && (grpSlots t g).all (fun k => (chanOf t k).isSome)
  | none => false

/-- The complete groups. -/
def completeGroups (t : Sfe) : List Nat := (t.groups.map (·.1)).filter (grpComplete t)

/-- A coefficient set. -/
def coefOf (t : Sfe) (i : Nat) : SfeCoef := (alookup i t.coefs).getD ⟨0, false, 0, []⟩

/-- A channel's stages: taps and factor, from the sets of its slice. -/
def stagesOf (t : Sfe) (slot : Nat) (c : SfeChan) : List (SfeCoef × Nat) :=
  c.stgs.map (fun p => (coefOf t (slot / 1024 * 16 + p.1), p.2))

/-- Effective taps exceed 64 (R235): Σ N ÷ (D1 … Dk) over the common denominator of the whole product. -/
def tapsOver (l : List (SfeCoef × Nat)) : Bool :=
  let whole := (l.map (·.2)).prod
  let r := l.foldl (fun (a : Nat × Nat) p => (a.1 * p.2, a.2 + whole / (a.1 * p.2) * p.1.taps.length)) (1, 0)
  decide (64 * whole < r.2)

/-- The settle span in input samples (R248). -/
def settleSpan (l : List (SfeCoef × Nat)) : Nat :=
  3 + (l.foldl (fun (a : Nat × Nat) p => (a.1 * p.2, a.2 + (p.1.taps.length - 1) * a.1)) (1, 0)).2

/-- The load of a slice in channel-samples/s (R235). -/
def sliceLoad (t : Sfe) (sl : Nat) : Nat :=
  ((t.inputs.filter (fun p => p.2.v && p.2.slot0 / 1024 == sl)).map (fun p => p.2.slots.length * p.2.rate)).sum

/-- The valid input that uses a slot. -/
def inputOfSlot (t : Sfe) (slot : Nat) : Option SfeInput :=
  (t.inputs.find? (fun p => p.2.v && p.2.slots.contains slot)).map (·.2)

/-! #### Reading staged entries -/

/-- Rates of R236. -/
def sfeRates : List Nat := [4000, 4800, 12800, 14400, 15360, 96000]

/-- An input entry from its 32 bytes. -/
def parseInput (b : List Byte) : SfeInput :=
  { gen := leAt b 0 2, v := bitOf (leAt b 2 1) 7, c0 := bitOf (leAt b 2 1) 6, sim := bitOf (leAt b 2 1) 5,
    nch := leAt b 3 1, rate := leAt b 4 4, nasdu := leAt b 8 1, member := leAt b 9 1, group := leAt b 0xA 2,
    confRev := leAt b 0xC 4, slot0 := leAt b 0x10 2, used := leAt b 0x14 4, lastConf := none }

/-- ERR 1 of an input entry. -/
def inputBad (b : List Byte) (e : SfeInput) : Bool :=
  leAt b 2 1 % 32 != 0 || !allZero (sliceOf b 0x12 2) || !allZero (sliceOf b 0x18 8) ||
  (e.v && (decide (e.nch < 1 ∨ 32 < e.nch) || !sfeRates.contains e.rate || decide (e.nasdu < 1 ∨ 8 < e.nasdu) ||
    decide (7 < e.member) || decide (2047 < e.group) || e.used / 2 ^ e.nch != 0))

/-- A group entry from its 64 bytes. -/
def parseGroup (b : List Byte) : SfeGroup :=
  let ctl := leAt b 2 1
  let fmt := leAt b 9 1
  { gen := leAt b 0 2, v := bitOf ctl 7, c0 := bitOf ctl 6, localOk := bitOf ctl 5, reqSync := bitOf ctl 4,
    zero := bitOf ctl 3, nmem := leAt b 3 1, win := leAt b 4 2, hmax := leAt b 6 1, nout := leAt b 7 1,
    odiv := leAt b 8 1, hdep := fmt % 16 + 1, outF := bitOf fmt 4, loss := leAt b 0xA 2,
    dests := (List.range 4).filterMap (fun d =>
      let o := 0x10 + 8 * d
      if bitOf (leAt b o 1) 7 then some (leAt b o 1 / 16 % 8, leAt b o 1 % 8, leAt b (o + 2) 2) else none) }

/-- ERR 1 of a group entry. -/
def groupBad (b : List Byte) (e : SfeGroup) : Bool :=
  leAt b 2 1 % 8 != 0 || leAt b 9 1 / 32 != 0 || !allZero (sliceOf b 0xC 4) || !allZero (sliceOf b 0x30 16) ||
  (List.range 4).any (fun d => bitOf (leAt b (0x10 + 8 * d) 1) 3 || !allZero (sliceOf b (0x11 + 8 * d) 1) ||
    !allZero (sliceOf b (0x14 + 8 * d) 4)) ||
  (e.v && (decide (e.nmem < 1 ∨ 8 < e.nmem) || decide (e.win < 10 ∨ 2000 < e.win) || e.hmax == 0 ||
    decide (e.nout < 1 ∨ 32 < e.nout) || decide (e.odiv < 1 ∨ 64 < e.odiv) || e.loss == 0 ||
    e.dests.any (fun d => decide (3 < d.1) || d.2.2 % 8 != 0)))

/-- A channel entry from its 32 bytes. -/
def parseChan (b : List Byte) : SfeChan :=
  let ctl := leAt b 2 1
  { gen := leAt b 0 2, v := bitOf ctl 7, c0 := bitOf ctl 6, gain := signedOf 32 (leAt b 4 4),
    ofs := signedOf 32 (leAt b 8 4), pdly := leAt b 0xC 2,
    stgs := (List.range (ctl % 4)).map (fun k => (leAt b (0x10 + 2 * k) 2 % 16, leAt b (0x10 + 2 * k) 2 / 16 % 16)),
    det := leAt b 0x18 4, detThr := leAt b 0x1C 4 }

/-- ERR 1 of a channel entry. -/
def chanBad (b : List Byte) (e : SfeChan) : Bool :=
  leAt b 2 1 / 4 % 16 != 0 || !allZero (sliceOf b 3 1) || !allZero (sliceOf b 0xE 2) ||
  (List.range 3).any (fun k => leAt b (0x11 + 2 * k) 1 != 0) || !allZero (sliceOf b 0x16 2) ||
  (e.v && (decide (1023 < e.pdly) || e.stgs.any (fun p => decide (p.2 < 1 ∨ 8 < p.2)) || e.det / 2 ^ 21 != 0 ||
    (e.det % 4 == 3 && bitsOf e.det 16 4 == 0)))

/-- Reporting rates of R253. -/
def phasorRates : List Nat := [1, 2, 5, 10, 12, 15, 20, 25, 30, 50, 60, 100, 120, 200, 240]

/-- A phasor entry from its 16 bytes. -/
def parsePhasor (b : List Byte) : SfePhasor :=
  let ctl := leAt b 2 1
  { gen := leAt b 0 2, v := bitOf ctl 7, mClass := bitOf ctl 6, hz60 := bitOf ctl 5, ring := bitOf ctl 1,
    conc := bitOf ctl 0, fs := leAt b 3 1, slot := leAt b 4 2, srcNo := leAt b 8 4, hist := [] }

/-- ERR 1 of phasor entry `i`. -/
def phasorBad (i : Nat) (b : List Byte) (e : SfePhasor) : Bool :=
  leAt b 2 1 / 4 % 8 != 0 || !allZero (sliceOf b 6 2) || !allZero (sliceOf b 0xC 4) || decide (4095 < e.srcNo) ||
  (e.v && (!phasorRates.contains e.fs || (if e.hz60 then 7200 else 6000) % e.fs != 0 ||
    e.slot / 1024 != i / 256))

/-- A coefficient set from its 272 bytes. -/
def parseCoef (b : List Byte) : SfeCoef :=
  { gen := leAt b 0 2, minPhase := leAt b 3 1 == 1, gdMin := leAt b 4 2,
    taps := (List.range (leAt b 2 1)).map (fun j => signedOf 32 (leAt b (0x10 + 4 * j) 4)) }

/-- ERR 1 of a coefficient set. -/
def coefBad (b : List Byte) : Bool :=
  decide (leAt b 2 1 < 1 ∨ 64 < leAt b 2 1) || decide (1 < leAt b 3 1) || !allZero (sliceOf b 6 10)

/-! #### Relations between entries (R500) -/

/-- Slots and members of a group lie in one slice, and C0 agrees (R241, R500). -/
def grpTogether (t : Sfe) (g : Nat) : Bool :=
  let ins := grpInputs t g
  let c0s := ins.map (fun p => p.2.c0) ++
    (grpSlots t g).filterMap (fun k => (chanOf t k).map (·.c0)) ++ ((grpOf t g).map (·.c0)).toList
  let sl := ins.map (fun p => p.2.slot0 / 1024)
  sl.all (· == sl.headD 0) && c0s.all (· == c0s.headD false)

/-- Member numbers are distinct and below NMEM (R500). -/
def grpMembersOk (t : Sfe) (g : Nat) : Bool :=
  let ms := (grpInputs t g).map (fun p => p.2.member)
  decide ms.Nodup && (match grpOf t g with
    | some e => ms.all (fun m => decide (m < e.nmem))
    | none => true)

/-- RATE and ODIV, and the product of the factors, agree (R241, R500). -/
def grpRatesOk (t : Sfe) (g : Nat) : Bool :=
  match grpOf t g with
  | some e => (grpInputs t g).all (fun p => p.2.rate % e.odiv == 0) &&
      (grpSlots t g).all (fun k => match chanOf t k with
        | some c => (c.stgs.map (·.2)).prod == e.odiv
        | none => true)
  | none => true

/-- NOUT equals the used channels, checked when the group is complete (R500). -/
def grpWholeOk (t : Sfe) (g : Nat) : Bool :=
  !grpComplete t g || (match grpOf t g with
    | some e => e.nout == (grpSlots t g).length
    | none => true)

/-- The relations of a group, ERR 5. -/
def grpOk (t : Sfe) (g : Nat) : Bool := grpTogether t g && grpMembersOk t g && grpRatesOk t g && grpWholeOk t g

/-- The groups a table change concerns: those of inputs that name the slot, or the group itself. -/
def groupsOfSlot (t : Sfe) (slot : Nat) : List Nat :=
  (t.inputs.filter (fun p => p.2.v && p.2.slots.contains slot)).map (fun p => p.2.group)

/-- Clears a chain in both contexts (R248). -/
def clearChain (slot : Nat) (t : Sfe) : Sfe :=
  let clr := fun (c : SfeCtx) => { c with chains := aerase slot c.chains }
  { t with live := clr t.live, replay := t.replay.map (fun p => (p.1, clr p.2)) }

/-- Clears the chains of a list of slots. -/
def clearChains (l : List Nat) (t : Sfe) : Sfe := l.foldl (fun t k => clearChain k t) t

/-- Changes a group's state in both contexts. -/
def modGroupSt (g : Nat) (f : Option GroupSt → Option GroupSt) (t : Sfe) : Sfe :=
  let upd := fun (c : SfeCtx) => match f (alookup g c.groups) with
    | some x => { c with groups := ainsert g x c.groups }
    | none => { c with groups := aerase g c.groups }
  { t with live := upd t.live, replay := t.replay.map (fun p => (p.1, upd p.2)) }

/-- After a table change: groups no longer complete drop their open sets, groups complete again start with cleared chains
(R500). `t` is the table set before the change. -/
def settleGroups (t t' : Sfe) : Sfe :=
  let stopped := (completeGroups t).filter (fun g => !grpComplete t' g)
  let started := (completeGroups t').filter (fun g => !grpComplete t g)
  let t' := stopped.foldl (fun u g => modGroupSt g (fun o => o.map (fun x => { x with sets := [] })) u) t'
  { (started.foldl (fun u g => clearChains (grpSlots u g) u) t') with epoch := t.epoch + 1 }

/-! #### UPDATE (R257) -/

/-- GEN is one greater than the entry it replaces (R257). -/
def genNext (old new : Nat) : Bool := new == (old + 1) % 65536

/-- Checks a staged input entry: its ERR and the tables with it. -/
def inputUpdate (s : State) (i : Nat) (b : List Byte) : Nat × Sfe :=
  let t := s.sfe
  let e := parseInput b
  let old := alookup i t.inputs
  let e' := { e with lastConf := match old with
    | some o => if o.v && e.v then o.lastConf else none
    | none => none }
  let t' := { t with inputs := ainsert i e' t.inputs,
                     live := match old with
                       | some o => if o.v && e.v then t.live else { t.live with prev := aerase i t.live.prev }
                       | none => t.live }
  let c0 := e.c0 || (match old with
    | some o => o.v && o.c0
    | none => false)
  (firstErr [(1, inputBad b e), (2, !genNext ((old.map (·.gen)).getD 0) e.gen),
     (3, decide (2047 < i) || (e.v && decide (s.sfeSlots < e.slot0 + e.nch))),
     (4, e.v && decide (7500000 < sliceLoad t' (e.slot0 / 1024))),
     (5, e.v && (e.slot0 / 1024 != (e.slot0 + e.nch - 1) / 1024 || !grpOk t' e.group)),
     (6, s.adm && c0)], t')

/-- Checks a staged group entry. -/
def groupUpdate (s : State) (i : Nat) (b : List Byte) : Nat × Sfe :=
  let t := s.sfe
  let e := parseGroup b
  let old := alookup i t.groups
  let was := (grpOf t i).isSome
  let t' := { t with groups := ainsert i e t.groups }
  let t' := if was && e.v then t' else modGroupSt i (fun _ => none) t'
  let c0 := e.c0 || (match grpOf t i with
    | some o => o.c0
    | none => false)
  (firstErr [(1, groupBad b e), (2, !genNext ((old.map (·.gen)).getD 0) e.gen), (3, decide (2047 < i)),
     (5, e.v && (!grpOk t' i || e.dests.any (fun d => !s.clusterFitted d.1))),
     (6, s.adm && c0)], t')

/-- Checks a staged channel entry; a change of its stages clears its chain (R258). -/
def chanUpdate (s : State) (i : Nat) (b : List Byte) : Nat × Sfe :=
  let t := s.sfe
  let e := parseChan b
  let old := alookup i t.chans
  let t' := { t with chans := ainsert i e t.chans }
  let keep := match old with
    | some o => o.v && e.v && o.stgs == e.stgs
    | none => false
  let t' := if keep then t' else clearChain i t'
  let c0 := e.c0 || (match chanOf t i with
    | some o => o.c0
    | none => false)
  (firstErr [(1, chanBad b e), (2, !genNext ((old.map (·.gen)).getD 0) e.gen), (3, decide (s.sfeSlots ≤ i)),
     (4, e.v && ((stagesOf t i e).any (fun p => p.1.taps == []) || tapsOver (stagesOf t i e))),
     (5, e.v && (groupsOfSlot t' i).any (fun g => !grpOk t' g)),
     (6, s.adm && c0)], t')

/-- Checks a staged phasor entry. -/
def phasorUpdate (s : State) (i : Nat) (b : List Byte) : Nat × Sfe :=
  let t := s.sfe
  let e := parsePhasor b
  let old := alookup i t.phasors
  (firstErr [(1, phasorBad i b e), (2, !genNext ((old.map (·.gen)).getD 0) e.gen),
     (3, decide (s.phasorChannels ≤ i) || (e.v && decide (s.sfeSlots ≤ e.slot))),
     (7, e.conc && !s.dieW)], { t with phasors := ainsert i e t.phasors })

/-- Channels that use a coefficient set. -/
def coefUsers (t : Sfe) (i : Nat) : List (Nat × SfeChan) :=
  t.chans.filter (fun p => p.2.v && p.1 / 1024 == i / 16 && p.2.stgs.any (fun q => q.1 == i % 16))

/-- Checks a staged coefficient set; the chains that use it are cleared (R258). -/
def coefUpdate (s : State) (i : Nat) (b : List Byte) : Nat × Sfe :=
  let t := s.sfe
  let e := parseCoef b
  let t' := { t with coefs := ainsert i e t.coefs }
  let us := coefUsers t i
  (firstErr [(1, coefBad b), (2, !genNext (coefOf t i).gen e.gen), (3, decide (s.slices * 16 ≤ i)),
     (4, us.any (fun p => tapsOver (stagesOf t' p.1 p.2))), (6, s.adm && us.any (fun p => p.2.c0)),
     (8, leAt b 3 1 == 0 && e.taps != e.taps.reverse)], clearChains (us.map (·.1)) t')

/-- Bytes of a staged entry per table. -/
def sfeStaged (table : Nat) : Nat :=
  if table = 1 then 64 else if table = 3 then 16 else if table = 4 then 272 else 32

/-- UPDATE of table `table`, index `i` (R257). -/
def sfeUpdateOp (table i : Nat) (s : State) : State :=
  let (b, s) := s.engRead 12 0xFF (s.fget SFE_STSRC_ADDR * 64) (sfeStaged table)
  let (err, t') :=
    if table = 0 then inputUpdate s i b
    else if table = 1 then groupUpdate s i b
    else if table = 2 then chanUpdate s i b
    else if table = 3 then phasorUpdate s i b
    else coefUpdate s i b
  let s := (s.fset SFE_CMDSTAT_ERR err).fset SFE_CMDSTAT_BUSY 1
  if err = 0 then s.modSfe (fun t => settleGroups t t') else s

/-- CLEAR of a channel (R263). -/
def sfeClearOp (i : Nat) (s : State) : State :=
  let s := s.fset SFE_CMDSTAT_BUSY 1
  if s.sfeSlots ≤ i then s.fset SFE_CMDSTAT_ERR 3
  else (s.fset SFE_CMDSTAT_ERR 0).modSfe (clearChain i)

/-- A write of SFE_CMD (R263). -/
def sfeCmdOp (v : Nat) (s : State) : Rsp × State :=
  let op := bitsOf v 16 3
  let table := bitsOf v 20 3
  if s.fbit SFE_CMDSTAT_BUSY ∨ op = 0 ∨ 2 < op ∨ 4 < table then (.denied, s)
  else if op = 1 then (.ok, sfeUpdateOp table (bitsOf v 0 14) s)
  else (.ok, sfeClearOp (bitsOf v 0 14) s)

/-! ### Counters and the register block -/

/-- The counters at 0x0050 + 4 × k (R263). -/
def sfeCnt : Nat → Fld
  | 0 => SFE_NOINPUT_N
  | 1 => SFE_DECERR_N
  | 2 => SFE_CONF_N
  | 3 => SFE_SIMDROP_N
  | 4 => SFE_LATE_N
  | 5 => SFE_DUP_N
  | 6 => SFE_SUBST_N
  | 7 => SFE_NOSYNC_N
  | _ => SFE_SETOVF_N

/-- Counts and notes half range (R263). -/
def sfeCount (k : Nat) (s : State) : State :=
  let s := s.bump (sfeCnt k)
  if 2 ^ 31 ≤ s.fget (sfeCnt k) then s.fset SFE_CNTHALF_BITS (putBit (s.fget SFE_CNTHALF_BITS) k true) else s

/-- SFE_GD (R251): the delay of a slot in units of 1/16 ns. -/
def groupDelay (t : Sfe) (slot : Nat) : Nat :=
  match chanOf t slot, inputOfSlot t slot with
  | some c, some inp =>
    let r := (stagesOf t slot c).foldl (fun (a : Nat × Nat) p =>
      (a.1 * p.2, a.2 + (if p.1.minPhase then 2 * p.1.gdMin else 256 * (p.1.taps.length - 1)) * a.1)) (1, 0)
    rintQ 0 false ((2 * (256 + c.pdly) + r.2) * 16000000000) (512 * inp.rate)
  | _, _ => 0

/-- A detector's value. -/
def detVal (t : Sfe) (slot : Nat) : Nat :=
  match alookup slot t.dets with
  | some d => d.r
  | none => 0

/-- Reads of the SFE block. -/
def sfeRead (off : Nat) (s : State) : Nat × State :=
  if off = 0x14 then (((List.range 16).map (sliceLoad s.sfe)).sum / 1000, s)
  else if off = 0x1C then (groupDelay s.sfe (s.fget SFE_GDSEL_SLOT) % 2 ^ 32, s)
  else if off = 0x24 then (detVal s.sfe (s.fget SFE_DETSEL_SLOT) % 2 ^ 32, s)
  else if 0x50 ≤ off ∧ off ≤ 0x70 then
    let (d, s) := tableRead regsSFE (0xF0000C0000 + off) s
    (d, s.fset SFE_CNTHALF_BITS (putBit (s.fget SFE_CNTHALF_BITS) ((off - 0x50) / 4) false))
  else if 0x200 ≤ off ∧ off < 0x240 then (sliceLoad s.sfe ((off - 0x200) / 4) / 1000, s)
  else tableRead regsSFE (0xF0000C0000 + off) s

/-- Writes of the SFE block. -/
def sfeWrite (off v : Nat) (s : State) : Rsp × State :=
  if off = 0xC then sfeCmdOp v s else tableWrite regsSFE (0xF0000C0000 + off) v s

/-- The interrupt conditions of SFE_CTL. -/
def sfeLine (s : State) : Bool :=
  (s.fbit SFE_CTL_CNTIE && s.fget SFE_CNTHALF_BITS != 0) ||
  (s.fbit SFE_CTL_PHRIE && s.fget SFE_PHRHEAD_IDX != s.fget SFE_PHRTAIL_IDX) ||
  (s.fbit SFE_CTL_LOSSIE && s.fbit SFE_STAT_GLOST)

/-! ### Decoding (R237 to R240) -/

/-- The quality code of a quality word (R238). -/
def qualCode (w : Nat) (sync : Bool) : Nat :=
  (match w % 4 with
   | 0 => 0
   | 3 => 2
   | _ => 1) +
  (if bitOf w 11 then 4 else 0) + (if bitOf w 10 then 8 else 0) + (if sync then 0 else 32) + (if bitOf w 12 then 64 else 0)

/-- An ASDU as the decoder reads it. -/
structure Asdu where
  smpCnt : Nat
  confRev : Nat
  synch : Nat
  rate : Option Nat
  data : List Byte
  deriving DecidableEq, Repr

/-- Parses the elements of an ASDU. -/
def asduOf (l : List (Nat × List Byte)) : Option Asdu :=
  match berFind 0x80 l, berFind 0x82 l, berFind 0x83 l, berFind 0x85 l, berFind 0x87 l with
  | some _, some c, some r, some y, some d => some ⟨beVal c, beVal r, beVal y, (berFind 0x86 l).map beVal, d⟩
  | _, _, _, _, _ => none

/-- The ASDUs of a frame whose seqASDU holds exactly noASDU of them, equal to NASDU (R237). -/
def svApdu (nasdu : Nat) (b : List Byte) : Option (List Asdu) :=
  match apduElems 0x60 b, asdusOf b with
  | some l, some as =>
    if (berFind 0x80 l).map beVal = some nasdu ∧ as.length = nasdu then as.mapM asduOf else none
  | _, _ => none

/-- Sample count and time tag of a synchronised ASDU received at `ts` (R239, R240). -/
def syncTag (ts rate cnt : Nat) : Nat × Nat :=
  let lim := ts + usUnits 1000
  let one := fun (n : Nat) =>
    let off := n * secUnits / rate
    (n, (lim - off) / secUnits * secUnits + off)
  let a := one cnt
  if rate = 96000 ∧ cnt + 65536 < 96000 then
    let b := one (cnt + 65536)
    if a.2 < b.2 then b else a
  else a

/-- Sample count of an ASDU that is not synchronised (R240). -/
def freeCount (prev : Option Nat) (rate cnt : Nat) : Nat :=
  match prev with
  | some p =>
    if rate = 96000 ∧ cnt + 65536 < 96000 ∧ (cnt + 65536 + 96000 - p - 1) % 96000 < (cnt + 96000 - p - 1) % 96000
    then cnt + 65536 else cnt
  | none => cnt

/-! ### Contexts -/

/-- The context of live (false) or replay (true) frames. -/
def sfeCtx (s : State) (rep : Bool) : SfeCtx :=
  if rep then (s.sfe.replay.map (·.2)).getD sfeCtx0 else s.sfe.live

/-- Writes a context. -/
def setCtx (rep : Bool) (c : SfeCtx) (s : State) : State :=
  s.modSfe (fun t => if rep then { t with replay := t.replay.map (fun p => (p.1, c)) } else { t with live := c })

/-- The state of a group in a context. -/
def grpSt (s : State) (rep : Bool) (g : Nat) : GroupSt :=
  (alookup g (sfeCtx s rep).groups).getD ⟨[], none, 0, [], [], none⟩

/-- Writes the state of a group. -/
def setGrpSt (rep : Bool) (g : Nat) (x : GroupSt) (s : State) : State :=
  let c := sfeCtx s rep
  setCtx rep { c with groups := ainsert g x c.groups } s

/-! ### Chains (R248 to R250) -/

/-- Numerator of cubic Lagrange interpolation over the newest four samples, `256 + pdly` 256ths of a sample behind the
newest: weights over 256³ · 6. -/
def lagrange (d : Int) (u : List Int) : Int :=
  let f := fun (k : Int) => d - 256 * k
  let x := fun (k : Nat) => u.getD k 0
  3 * (x 1 * (f 0 * f 2 * f 3)) - x 0 * (f 1 * f 2 * f 3) - 3 * (x 2 * (f 0 * f 1 * f 3)) + x 3 * (f 0 * f 1 * f 2)

/-- Runs the stages on one value: what leaves the last stage at sample count `n`, if it keeps it, and the new histories
(R250). `prod` is the product of the factors before. -/
def runStages (n : Nat) : Nat → List (SfeCoef × Nat) → List (List Int) → Int → Option Int × List (List Int)
  | _, [], _, v => (some v, [])
  | prod, (c, d) :: rest, hs, v =>
    let h := (v :: hs.headD []).take c.taps.length
    if n % (prod * d) = 0 then
      let y := rneI32 ((List.zipWith (· * ·) c.taps h).sum) (2 ^ 30)
      let (o, hs') := runStages n (prod * d) rest (hs.drop 1) y
      (o, h :: hs')
    else (none, h :: hs.drop 1)

/-- One input sample of a channel slot in a context: conditioned value, chain output, quality of the output. -/
def chainStep (rep : Bool) (slot : Nat) (x : Int) (q n : Nat) (s : State) : (Int × Option Int × Nat) × State :=
  match chanOf s.sfe slot with
  | none => ((0, none, q), s)
  | some c =>
    let stg := stagesOf s.sfe slot c
    let cx := sfeCtx s rep
    let st := (alookup slot cx.chains).getD ⟨[], stg.map (fun _ => []), [], 0⟩
    let span := settleSpan stg
    let xs := (x :: st.xs).take 4
    -- samples from before the state was cleared count as conditioned zeros
    let u := (xs.map (fun x => (x + c.ofs) * c.gain))
    let y := rneI32 (lagrange (256 + c.pdly) u) (2 ^ 48 * 6)
    let (o, hs) := runStages n 1 stg st.stg y
    let quals := (q :: st.quals).take span
    let cnt := min (st.n + 1) span
    let qo := quals.foldl (· ||| ·) 0 ||| (if cnt < span then 128 else 0)
    ((y, o, qo), setCtx rep { cx with chains := ainsert slot ⟨xs, hs, quals, cnt⟩ cx.chains } s)

/-! ### Detectors (R252) -/

/-- A detector's new value from the newest magnitude, its window newest first and its old value. -/
def detNext (cfg : Nat) (win : List Nat) (r y : Nat) : Nat :=
  if cfg % 4 = 1 then win.foldl max 0
  else if cfg % 4 = 2 then roundSqrt ((win.map (fun v => v * v)).sum / (bitsOf cfg 4 12 + 1))
  else max y (r - r / 2 ^ bitsOf cfg 16 4)

/-- One sample at a detector's tap; a change of the trigger line is answered. -/
def detStep (slot : Nat) (c : SfeChan) (y : Int) (s : State) : Option Bool × State :=
  if c.det % 4 = 0 then (none, s) else
  let d := (alookup slot s.sfe.dets).getD ⟨[], 0, false⟩
  let win := (y.natAbs :: d.win).take (bitsOf c.det 4 12 + 1)
  let r := detNext c.det win d.r y.natAbs
  let line := bitOf c.det 20 && decide (c.detThr < r)
  (if line = d.line then none else some line,
   s.modSfe (fun t => { t with dets := ainsert slot ⟨if c.det % 4 = 3 then [] else win, r, line⟩ t.dets }))

/-! ### Phasor estimator (R254 to R256) -/

/-- Taps of a phasor channel's window: 2 f_in ÷ f0 − 1 in P class, the reference filter's in M class. -/
def phasorTaps (e : SfePhasor) (fin : Nat) : Nat :=
  if e.mClass then Config.openFn Site.mTaps [e.fs, fin, b2n e.hz60] % 4096
  else 2 * fin / (if e.hz60 then 60 else 50) - 1

/-- The reporting instant that a sample with (delay-corrected) tag `t` lies on, if it does (R254). -/
def reportInstant (fs fin t : Nat) : Option Nat :=
  let sec := t / secUnits
  let m := (2 * (t % secUnits) * fs + secUnits) / (2 * secUnits)
  let tr := sec * secUnits + m * secUnits / fs
  let diff := if t < tr then tr - t else t - tr
  if 2 * diff * fin < secUnits then some tr else none

/-- Writes a record to the phasor ring (R256). -/
def phRingWrite (p tr flags : Nat) (ws : List Nat) (s : State) : State :=
  if ¬ s.fbit SFE_PHRCFG_EN then s else
  let n := 16 * 2 ^ s.fget SFE_PHRCFG_SIZE
  let h := s.fget SFE_PHRHEAD_IDX
  if (h + 1) % n = s.fget SFE_PHRTAIL_IDX % n then s.bump SFE_PHRERR_N
  else
    let b := tripleBytes tr ++ leBytes 2 p ++ leBytes 2 flags ++ ws.flatMap (leBytes 4)
    (s.engWrite 12 0xFF (s.fget SFE_PHRBASE_ADDR * 4096 + 32 * (h % n)) b).fset SFE_PHRHEAD_IDX ((h + 1) % n)

/-- One conditioned sample of a phasor channel. -/
def phasorStep (p : Nat) (e : SfePhasor) (c : SfeChan) (fin tag : Nat) (y : Int) (q : Nat) (s : State) : State :=
  let nw := phasorTaps e fin
  let hist := (PhSample.mk tag y q :: e.hist).take (nw + 2)
  let s := s.modSfe (fun t => { t with phasors := ainsert p { e with hist := hist } t.phasors })
  match hist[(nw + 1) / 2]? with
  | none => s
  | some mid =>
    let t := mid.tag - (256 + c.pdly) * secUnits / (256 * fin)
    match reportInstant e.fs fin t with
    | none => s
    | some tr =>
      let args := [e.fs, fin, b2n e.mClass, b2n e.hz60, tr] ++ hist.flatMap (fun h => [h.tag, wrapTo 32 h.y])
      let ws := (List.range 4).map (fun k => Config.openFn Site.phasor (k :: args) % 2 ^ 32)
      let fl := (hist.map (·.q)).foldl (· ||| ·) 0 &&& 0xA5
      let s := s.when e.conc (fun s => s.modSfe (fun t => { t with conc := t.conc ++ [⟨e.srcNo, tr, fl, ws⟩] }))
      s.when e.ring (phRingWrite p tr fl ws)

/-- Detectors, phasor channels and recorders see a live sample. -/
def liveSample (slot rate tag : Nat) (r : Int × Option Int × Nat) (s : State) : State :=
  match chanOf s.sfe slot with
  | none => s
  | some c =>
    let tap := if bitOf c.det 2 then r.2.1 else some r.1
    let (edge, s) := match tap with
      | some y => detStep slot c y s
      | none => (none, s)
    let s := s.modSfe (fun t => { t with outbox := t.outbox ++ [⟨slot, tag, r.1, r.2.1, r.2.2, edge⟩] })
    s.each (s.sfe.phasors.filter (fun p => p.2.v && p.2.slot == slot)) (fun p s =>
      match alookup p.1 s.sfe.phasors with
      | some e => phasorStep p.1 e c rate tag r.1 r.2.2 s
      | none => s)

/-! ### Sets (R242, R243) -/

/-- The values of one member in a set, received or substituted (R243): slot, value, quality code; and the new consecutive
count of substituted sets. -/
def memberVals (grp : SfeGroup) (x : GroupSt) (inp : SfeInput) (got : Option SetMember) : List (Nat × Int × Nat) × Nat :=
  match got with
  | some m => (inp.slots.map (fun k => match m.vals.find? (fun v => v.1 == k) with
      | some v => v
      | none => (k, 0, 17)), 0)
  | none =>
    let n := (alookup inp.member x.miss).getD 0 + 1
    (inp.slots.map (fun k =>
      if grp.zero then (k, 0, 17)
      else (k, (alookup k x.hold).getD 0, 16 + (if grp.hmax < n then 1 else 0))), n)

/-- Feeds one set to conditioning and chains: per used channel its chain output and quality code. `mems` are the members
present. -/
def feedSet (rep : Bool) (g : Nat) (grp : SfeGroup) (tag n rate : Nat) (mems : List SetMember) (s : State) :
    List (Option Int × Nat) × State :=
  (grpInputs s.sfe g).foldl (fun (a : List (Option Int × Nat) × State) p =>
    let x := grpSt a.2 rep g
    let got := mems.find? (fun m => m.member == p.2.member)
    let (vals, miss) := memberVals grp x p.2 got
    let hold := if got.isSome then vals.foldl (fun h v => ainsert v.1 v.2.1 h) x.hold else x.hold
    let s := setGrpSt rep g { x with hold := hold, miss := ainsert p.2.member miss x.miss } a.2
    vals.foldl (fun (a : List (Option Int × Nat) × State) v =>
      let (r, s) := chainStep rep v.1 v.2.1 v.2.2 n a.2
      let s := if rep then s else liveSample v.1 rate tag r s
      (a.1 ++ [(r.2.1, r.2.2)], s)) (a.1, s)) ([], s)

/-- Rounded up to a multiple of 8. -/
def up8 (n : Nat) : Nat := (n + 7) / 8 * 8

/-- The quality summary of an output (R246). -/
def sqWord (qs : List Nat) (subst : Nat) (gap rep : Bool) : Nat :=
  qs.foldl (· ||| ·) 0 % 256 + min subst 255 * 256 + (qs.filter (fun q => bitOf q 0)).length * 65536 +
    b2n gap * 2 ^ 24 + b2n rep * 2 ^ 25

/-- The clusters an output of a context goes to (R261): the replay context serves the replayed cluster only, and the live
context withholds from it. -/
def outClusters (s : State) (rep : Bool) (grp : SfeGroup) : List (Nat × Nat × Nat) :=
  match s.sfe.replay with
  | some (c, _) => grp.dests.filter (fun d => if rep then d.1 == c else d.1 != c)
  | none => if rep then [] else grp.dests

/-- Writes an output block to one destination as one consistency group, fenced (R245, R328). Bytes beyond the 64 KiB of
data memory are not written. -/
def destWrite (owner igen : Nat) (d : Nat × Nat × Nat) (hd row : List Byte) (rowAt len tag : Nat) (s : State) : State :=
  if owner < 64 ∧ s.igen owner ≠ igen then s.bump (SELF_FENCED_N owner) else
  let put := fun (off : Nat) (b : List Byte) (s : State) =>
    s.engWrite 12 owner (laneMemAddr d.1 d.2.1 (0x10000 + off)) (b.take (65536 - off))
  let s := put (d.2.2 + rowAt) row (put d.2.2 hd s)
  noteGroup (clusterLane (s.groupOf d.1) d.2.1) d.2.2 len tag s

/-- One output of a group (R245): its writes to every destination and the completion they will give (R247). A replayed
output with a gap shows in FAILOVER_STAT.GAP (R347). -/
def groupOutput (rep : Bool) (g : Nat) (st : OpenSet) (outs : List (Option Int × Nat)) (subst : Nat) (gap : Bool)
    (s : State) : State :=
  let grp := st.grp
  let x := grpSt s rep g
  let seq := (x.seq + 1) % 2 ^ 32
  let s := setGrpSt rep g { x with seq := seq, out := some st.tag } s
  let q8 := up8 grp.nout
  let r8 := up8 (4 * grp.nout)
  let idx := seq % grp.hdep
  let sq := sqWord (outs.map (·.2)) subst gap rep
  let hd := tripleBytes st.tag ++ leBytes 4 sq ++ leBytes 2 idx ++ leBytes 2 st.n ++ leBytes 4 seq ++
    padTo q8 (outs.map (fun o => BitVec.ofNat 8 o.2))
  let row := padTo r8 (outs.flatMap (fun o =>
    let v := o.1.getD 0
    leBytes 4 (if grp.outF then (fOfInt 0 v).1 else wrapTo 32 v)))
  let ds := outClusters s rep grp
  let s := s.each ds (fun d => destWrite st.owner st.igen d hd row (0x18 + q8 + r8 * idx) (24 + q8 + grp.hdep * r8) st.tag)
  let s := if rep ∧ gap ∧ s.fbit FAILOVER_STAT_BUSY ∧ ¬ s.fbit FAILOVER_STAT_GAP then
      (s.fset FAILOVER_STAT_GAP 1).log' FAILOVER_STAT_GAP true 6 0xFF [g]
    else s
  let cls := (List.range 4).filter (fun c => ds.any (fun d => d.1 == c))
  if cls = [] then s
  else s.modSfe (fun t => { t with compl := t.compl ++
    [⟨g, cls, ⟨g, st.tag, sq, st.rate, grp.odiv, rep⟩, st.epoch⟩] })

/-- The replay context ends at the first tag for which both contexts have an output (R261). -/
def replayMeet (rep : Bool) (g tag : Nat) (s : State) : State :=
  if s.sfe.replay.isNone then s
  else if rep then (if s.sfe.met.contains (g, tag) then sfeReplayEnd s else s)
  else if (grpSt s true g).out = some tag then sfeReplayEnd s
  else s.modSfe (fun t => { t with met := t.met ++ [(g, tag)] })

/-- Counters between two closed sets for which no set opened (R242), from their tags. -/
def missing (last : Option (Nat × Nat × Nat)) (tag : Nat) : Nat :=
  match last with
  | some (t, _, rate) => (2 * (tag - t) * rate + secUnits) / (2 * secUnits) - 1
  | none => 0

/-- Closes a set of group `g` (R242, R243, R245). -/
def closeSet (rep : Bool) (g : Nat) (st : OpenSet) (s : State) : State :=
  let x := grpSt s rep g
  let s := setGrpSt rep g { x with sets := x.sets.filter (fun o => o.tag != st.tag) } s
  let k := missing x.last st.tag
  let ln := (x.last.map (fun l => l.2.1)).getD 0
  let lt := (x.last.map (·.1)).getD 0
  let s := if 8 < k then s.modSfe (fun t =>
        let clr := fun (c : SfeCtx) => { c with chains := (grpSlots t g).foldl (fun l a => aerase a l) c.chains }
        if rep then { t with replay := t.replay.map (fun p => (p.1, clr p.2)) } else { t with live := clr t.live })
    else s.each (List.range k) (fun j s =>
        (feedSet rep g st.grp (lt + (j + 1) * secUnits / st.rate) ((ln + j + 1) % st.rate) st.rate [] s).2)
  let (outs, s) := feedSet rep g st.grp st.tag st.n st.rate st.mems s
  let x := grpSt s rep g
  let s := setGrpSt rep g { x with last := some (st.tag, st.n, st.rate) } s
  let s := if st.n % st.grp.odiv = 0 then
      replayMeet rep g st.tag (groupOutput rep g st outs (st.grp.nmem - st.mems.length) (decide (0 < k)) s)
    else s
  if ¬ rep ∧ s.sfe.lost.contains g then
    (s.modSfe (fun t => { t with lost := t.lost.filter (· != g) })).log' (SFE_GLOST_BITS (g / 32)) false 2 0xFF [g, 0]
  else s

/-- The open sets of a group with a tag up to `tag`, oldest first. -/
def setsUpTo (x : GroupSt) (tag : Nat) : List OpenSet :=
  let l := x.sets.filter (fun o => decide (o.tag ≤ tag))
  (l.foldl (fun (m : List (Nat × OpenSet)) o => ainsert o.tag o m) []).map (·.2)

/-- Closes every open set up to a tag, oldest first. -/
def closeUpTo (rep : Bool) (g tag : Nat) (s : State) : State :=
  s.each (setsUpTo (grpSt s rep g) tag) (closeSet rep g)

/-- An accepted ASDU of a member reaches assembly (R242). -/
def assemble (rep : Bool) (g : Nat) (grp : SfeGroup) (inp : SfeInput) (f : NetFrame) (sync : Bool) (n tag : Nat)
    (vals : List (Nat × Int × Nat)) (s : State) : State :=
  let x := grpSt s rep g
  let late := match x.last with
    | some l => decide (tag ≤ l.1)
    | none => false
  if late then sfeCount 4 s
  else if grp.reqSync ∧ ¬ sync then sfeCount 7 s
  else
    let s := if x.sets.all (fun o => o.tag != tag) then
        let s := if x.sets.length = 8 then
            sfeCount 8 (match (setsUpTo x (2 ^ 128)).head? with
              | some o => closeSet rep g o s
              | none => s)
          else s
        let y := grpSt s rep g
        setGrpSt rep g { y with sets := y.sets ++
          [⟨tag, n, inp.rate, s.now + usUnits grp.win, grp, [], f.owner, f.igen, s.sfe.epoch⟩] } s
      else s
    let x := grpSt s rep g
    match x.sets.find? (fun o => o.tag == tag) with
    | none => s
    | some st =>
      if st.mems.any (fun m => m.member == inp.member) then sfeCount 5 s
      else
        let st' := { st with mems := st.mems ++ [⟨inp.member, vals⟩], owner := f.owner, igen := f.igen }
        let s := setGrpSt rep g { x with sets := x.sets.map (fun o => if o.tag = tag then st' else o) } s
        if st'.grp.nmem ≤ st'.mems.length then closeUpTo rep g tag s else s

/-- One ASDU of a frame under its input entry (R237 to R240). -/
def decodeAsdu (rep : Bool) (i : Nat) (f : NetFrame) (a : Asdu) (s : State) : State :=
  match alookup i s.sfe.inputs with
  | none => s
  | some inp =>
    let last := inp.lastConf
    let s := s.modSfe (fun t => { t with inputs := ainsert i { inp with lastConf := some a.confRev } t.inputs })
    if a.confRev ≠ inp.confRev then
      let s := sfeCount 2 s
      if last = some a.confRev then s else s.log' SFE_CONF_N false 3 0xFF [i, a.confRev]
    else if a.data.length ≠ 8 * inp.nch then sfeCount 1 s
    else if (decide (inp.rate ≤ a.smpCnt) || (match a.rate with
        | some r => decide (r ≠ inp.rate ∧ r ≠ inp.rate % 65536)
        | none => false)) = true then sfeCount 1 s
    else match grpOf s.sfe inp.group with
      | none => sfeCount 0 s
      | some grp =>
        if ¬ grpComplete s.sfe inp.group then sfeCount 0 s else
        let sync := a.synch == 2 || (a.synch == 1 && grp.localOk)
        let cx := sfeCtx s rep
        let (n, tag) := if sync then syncTag f.ts inp.rate a.smpCnt
          else (freeCount (alookup i cx.prev) inp.rate a.smpCnt, f.ts)
        let s := setCtx rep { cx with prev := ainsert i n cx.prev } s
        let vals := (maskList 32 inp.used).map (fun k =>
          (inp.slot0 + k, signedOf 32 (beAt a.data (8 * k) 4), qualCode (beAt a.data (8 * k + 4) 4) sync))
        assemble rep inp.group grp inp f sync n tag vals s

/-- A frame leaves the input buffer for its slice (R237). -/
def sfeFrame (f : NetFrame) (s : State) : State :=
  let i := f.target
  match alookup i s.sfe.inputs with
  | none => sfeCount 0 s
  | some inp =>
    if ¬ inp.v then sfeCount 0 s
    else if bitOf (beAt (frPay f.bytes) 4 2) 15 ∧ ¬ inp.sim then sfeCount 3 s
    else match svApdu inp.nasdu f.bytes with
      | none => sfeCount 1 s
      | some as =>
        -- a replay frame after the context has ended feeds nothing
        if f.replay ∧ s.sfe.replay.isNone then s
        else s.each as (fun a s => if f.replay ∧ s.sfe.replay.isNone then s else decodeAsdu f.replay i f a s)

/-- The oldest frame of a kind that waits for I1, highest queue first, removed from its queue (R217). -/
def takeI1 (kind : Nat) (s : State) : Option (NetFrame × State) :=
  let pick := fun (q : Nat) => (s.queue 14 q).findSome? (fun h => match s.buf h with
    | some f => if f.kind = kind then some (q, h, f) else none
    | none => none)
  match [7, 6, 5, 4, 3, 2, 1, 0].findSome? pick with
  | some (q, h, f) => some (f, unref h 1 (setQueue 14 q ((s.queue 14 q).filter (· != h)) s))
  | none => none

/-- The next frame for the SFE: live frames first, then those of a replay (R222). -/
def sfeNext (s : State) : Option (NetFrame × State) :=
  match takeI1 1 s with
  | some r => some r
  | none =>
    match s.net.replayQ with
    | f :: l => if f.kind = 1 then some ({ f with replay := true }, s.modNet (fun n => { n with replayQ := l })) else none
    | [] => none

/-! ### Meanings that reach no recorder -/

/-- GROUP_COMPLETION (R247): tokens to the event controllers of the destination clusters. -/
def execGroupCompletion (group : Nat) (s : State) : Result :=
  match s.sfe.compl.find? (fun c => c.group == group) with
  | none => .next s
  | some c =>
    let s := s.modSfe (fun t => { t with compl := t.compl.erase c })
    .next (s.each c.clusters (fun r s =>
      let g := s.groupOf r
      if h : g < 5 then
        (if s.domOn g then { s with tokens := s.tokens.set g (s.tokens[g] ++ [c.tok]) } else s)
      else s))

/-- GROUP_LOST (R244). -/
def execGroupLost (group : Nat) (s : State) : Result :=
  if ¬ grpComplete s.sfe group ∨ s.sfe.lost.contains group ∨ ¬ s.domOn 6 then .next s
  else
    let f := SFE_GLOST_BITS (group / 32)
    let s := s.modSfe (fun t => { t with lost := t.lost ++ [group] })
    .next (((s.fset f (putBit (s.fget f) (group % 32) true)).fset SFE_STAT_GLOST 1).log' f false 2 0xFF [group, 1])

/-- A word with a field replaced. -/
def withField (v lo w x : Nat) : Nat := v - bitsOf v lo w * 2 ^ lo + x % 2 ^ w * 2 ^ lo

/-- SFE_UPDATE: a write of SFE_CMD with OP = 1. -/
def execSfeUpdate (rq : Req) (v : Word) (s : State) : Result :=
  .next (s.regWriteAccess rq 0xF0000C000C (sfeCmdOp (withField v.toNat 16 3 1)))

/-- SFE_CLEAR: a write of SFE_CMD with OP = 2. -/
def execSfeClear (rq : Req) (v : Word) (s : State) : Result :=
  .next (s.regWriteAccess rq 0xF0000C000C (sfeCmdOp (withField v.toNat 16 3 2)))

end Sys2Proof.Machine
end

