-- ==== Sys2Proof/Machine/Sha.lean ====
section
/-! DEFINITION. SHA-256 and SHA-384 (FIPS 180-4) and HMAC-SHA-256 (FIPS 198-1), the hashes that R421, R426, R413 and R432
name. Digests are numbers, first byte highest. -/
namespace Sys2Proof.Machine

/-- Rotation to the right in a word of `w` bits. -/
def rotr (w n x : Nat) : Nat := (x >>> n) ||| (x <<< (w - n)) % 2 ^ w

/-- What differs between the two word sizes: bits of a word, rotation counts and round constants. -/
structure ShaKind where
  w : Nat
  big0 : Nat × Nat × Nat
  big1 : Nat × Nat × Nat
  /-- Two rotations and a shift. -/
  small0 : Nat × Nat × Nat
  small1 : Nat × Nat × Nat
  ks : List Nat

/-- Round constants of SHA-256. -/
def shaK32 : List Nat :=
  [0x428A2F98, 0x71374491, 0xB5C0FBCF, 0xE9B5DBA5, 0x3956C25B, 0x59F111F1, 0x923F82A4, 0xAB1C5ED5,
   0xD807AA98, 0x12835B01, 0x243185BE, 0x550C7DC3, 0x72BE5D74, 0x80DEB1FE, 0x9BDC06A7, 0xC19BF174,
   0xE49B69C1, 0xEFBE4786, 0xFC19DC6, 0x240CA1CC, 0x2DE92C6F, 0x4A7484AA, 0x5CB0A9DC, 0x76F988DA,
   0x983E5152, 0xA831C66D, 0xB00327C8, 0xBF597FC7, 0xC6E00BF3, 0xD5A79147, 0x6CA6351, 0x14292967,
   0x27B70A85, 0x2E1B2138, 0x4D2C6DFC, 0x53380D13, 0x650A7354, 0x766A0ABB, 0x81C2C92E, 0x92722C85,
   0xA2BFE8A1, 0xA81A664B, 0xC24B8B70, 0xC76C51A3, 0xD192E819, 0xD6990624, 0xF40E3585, 0x106AA070,
   0x19A4C116, 0x1E376C08, 0x2748774C, 0x34B0BCB5, 0x391C0CB3, 0x4ED8AA4A, 0x5B9CCA4F, 0x682E6FF3,
   0x748F82EE, 0x78A5636F, 0x84C87814, 0x8CC70208, 0x90BEFFFA, 0xA4506CEB, 0xBEF9A3F7, 0xC67178F2]

/-- Round constants of SHA-384, rounds 0 to 39. -/
def shaK64a : List Nat :=
  [0x428A2F98D728AE22, 0x7137449123EF65CD, 0xB5C0FBCFEC4D3B2F, 0xE9B5DBA58189DBBC, 0x3956C25BF348B538,
   0x59F111F1B605D019, 0x923F82A4AF194F9B, 0xAB1C5ED5DA6D8118, 0xD807AA98A3030242, 0x12835B0145706FBE,
   0x243185BE4EE4B28C, 0x550C7DC3D5FFB4E2, 0x72BE5D74F27B896F, 0x80DEB1FE3B1696B1, 0x9BDC06A725C71235,
   0xC19BF174CF692694, 0xE49B69C19EF14AD2, 0xEFBE4786384F25E3, 0xFC19DC68B8CD5B5, 0x240CA1CC77AC9C65,
   0x2DE92C6F592B0275, 0x4A7484AA6EA6E483, 0x5CB0A9DCBD41FBD4, 0x76F988DA831153B5, 0x983E5152EE66DFAB,
   0xA831C66D2DB43210, 0xB00327C898FB213F, 0xBF597FC7BEEF0EE4, 0xC6E00BF33DA88FC2, 0xD5A79147930AA725,
   0x6CA6351E003826F, 0x142929670A0E6E70, 0x27B70A8546D22FFC, 0x2E1B21385C26C926, 0x4D2C6DFC5AC42AED,
   0x53380D139D95B3DF, 0x650A73548BAF63DE, 0x766A0ABB3C77B2A8, 0x81C2C92E47EDAEE6, 0x92722C851482353B]

/-- Round constants of SHA-384, rounds 40 to 79. -/
def shaK64b : List Nat :=
  [0xA2BFE8A14CF10364, 0xA81A664BBC423001, 0xC24B8B70D0F89791, 0xC76C51A30654BE30, 0xD192E819D6EF5218,
   0xD69906245565A910, 0xF40E35855771202A, 0x106AA07032BBD1B8, 0x19A4C116B8D2D0C8, 0x1E376C085141AB53,
   0x2748774CDF8EEB99, 0x34B0BCB5E19B48A8, 0x391C0CB3C5C95A63, 0x4ED8AA4AE3418ACB, 0x5B9CCA4F7763E373,
   0x682E6FF3D6B2B8A3, 0x748F82EE5DEFB2FC, 0x78A5636F43172F60, 0x84C87814A1F0AB72, 0x8CC702081A6439EC,
   0x90BEFFFA23631E28, 0xA4506CEBDE82BDE9, 0xBEF9A3F7B2C67915, 0xC67178F2E372532B, 0xCA273ECEEA26619C,
   0xD186B8C721C0C207, 0xEADA7DD6CDE0EB1E, 0xF57D4F7FEE6ED178, 0x6F067AA72176FBA, 0xA637DC5A2C898A6,
   0x113F9804BEF90DAE, 0x1B710B35131C471B, 0x28DB77F523047D84, 0x32CAAB7B40C72493, 0x3C9EBE0A15C9BEBC,
   0x431D67C49C100D4C, 0x4CC5D4BECB3E42B6, 0x597F299CFC657E2A, 0x5FCB6FAB3AD6FAEC, 0x6C44198C4A475817]

/-- SHA-256. -/
def sha32 : ShaKind := ⟨32, (2, 13, 22), (6, 11, 25), (7, 18, 3), (17, 19, 10), shaK32⟩

/-- SHA-384. -/
def sha64 : ShaKind := ⟨64, (28, 34, 39), (14, 18, 41), (1, 8, 7), (19, 61, 6), shaK64a ++ shaK64b⟩

/-- Three rotations. -/
def shaBig (k : ShaKind) (r : Nat × Nat × Nat) (x : Nat) : Nat :=
  rotr k.w r.1 x ^^^ rotr k.w r.2.1 x ^^^ rotr k.w r.2.2 x

/-- Two rotations and a shift. -/
def shaSmall (k : ShaKind) (r : Nat × Nat × Nat) (x : Nat) : Nat :=
  rotr k.w r.1 x ^^^ rotr k.w r.2.1 x ^^^ (x >>> r.2.2)

/-- The eight working words. -/
structure ShaSt where
  a : Nat
  b : Nat
  c : Nat
  d : Nat
  e : Nat
  f : Nat
  g : Nat
  h : Nat

/-- One round with round constant `kt` and schedule word `wt`. -/
def shaRound (k : ShaKind) (s : ShaSt) (kt wt : Nat) : ShaSt :=
  let m := 2 ^ k.w
  let ch := (s.e &&& s.f) ^^^ ((m - 1 - s.e) &&& s.g)
  let maj := (s.a &&& s.b) ^^^ (s.a &&& s.c) ^^^ (s.b &&& s.c)
  let t1 := s.h + shaBig k k.big1 s.e + ch + kt + wt
  let t2 := shaBig k k.big0 s.a + maj
  ⟨(t1 + t2) % m, s.a, s.b, s.c, (s.d + t1) % m, s.e, s.f, s.g⟩

/-- The rounds over the constants; `win` holds the next 16 schedule words. -/
def shaRounds (k : ShaKind) : List Nat → List Nat → ShaSt → ShaSt
  | [], _, s => s
  | kt :: ks, win, s =>
    let w := nth win 0
    let new := (shaSmall k k.small1 (nth win 14) + nth win 9 + shaSmall k k.small0 (nth win 1) + w) % 2 ^ k.w
    shaRounds k ks (win.drop 1 ++ [new]) (shaRound k s kt w)

/-- One block of 16 words. -/
def shaBlock (k : ShaKind) (s : ShaSt) (ws : List Nat) : ShaSt :=
  let r := shaRounds k k.ks ws s
  let m := 2 ^ k.w
  ⟨(s.a + r.a) % m, (s.b + r.b) % m, (s.c + r.c) % m, (s.d + r.d) % m, (s.e + r.e) % m, (s.f + r.f) % m,
   (s.g + r.g) % m, (s.h + r.h) % m⟩

/-- The message with its padding, for blocks of `bl` bytes and a length field of `lf` bytes. -/
def shaPad (bl lf : Nat) (m : List Byte) : List Byte :=
  let z := (bl - (m.length + 1 + lf) % bl) % bl
  m ++ [0x80] ++ zeroBytes z ++ beBytes lf (8 * m.length)

/-- Hashes `n` blocks. -/
def shaBlocks (k : ShaKind) : Nat → List Byte → ShaSt → ShaSt
  | 0, _, s => s
  | n + 1, m, s =>
    let wb := k.w / 8
    let ws := (List.range 16).map (fun i => beAt m (wb * i) wb)
    shaBlocks k n (m.drop (16 * wb)) (shaBlock k s ws)

/-- SHA-256. -/
def sha256 (m : List Byte) : Nat :=
  let p := shaPad 64 8 m
  let r := shaBlocks sha32 (p.length / 64) p
    ⟨0x6A09E667, 0xBB67AE85, 0x3C6EF372, 0xA54FF53A,
     0x510E527F, 0x9B05688C, 0x1F83D9AB, 0x5BE0CD19⟩
  [r.a, r.b, r.c, r.d, r.e, r.f, r.g, r.h].foldl (fun acc x => acc * 2 ^ 32 + x) 0

/-- SHA-384. -/
def sha384 (m : List Byte) : Nat :=
  let p := shaPad 128 16 m
  let r := shaBlocks sha64 (p.length / 128) p
    ⟨0xCBBB9D5DC1059ED8, 0x629A292A367CD507, 0x9159015A3070DD17, 0x152FECD8F70E5939,
     0x67332667FFC00B31, 0x8EB44A8768581511, 0xDB0C2E0D64F98FA7, 0x47B5481DBEFA4FA4⟩
  [r.a, r.b, r.c, r.d, r.e, r.f].foldl (fun acc x => acc * 2 ^ 64 + x) 0

/-- HMAC-SHA-256 with a key of at most 64 bytes. -/
def hmacSha256 (key m : List Byte) : Nat :=
  let k := padTo 64 key
  let x := fun (c : Byte) => k.map (· ^^^ c)
  sha256 (x 0x5C ++ beBytes 32 (sha256 (x 0x36 ++ m)))

/-- The KDF of R426 over LABEL and CTX of 16 bytes each. -/
def kdf (parent : Nat) (label ctx : List Byte) : Nat :=
  hmacSha256 (beBytes 32 parent) (beBytes 4 1 ++ label ++ [0] ++ ctx ++ beBytes 4 0x100)

end Sys2Proof.Machine
end

