-- ==== Sys2Proof/Machine/Locket.lean ====
section
/-! DEFINITION. The Locket (spec file 15): the feed and the mailbox on the module's side, and the card: metering, legal
registers, parameters, firmware, Hallmark record and seal log. -/
namespace Sys2Proof.Machine

open Reg

/-- Changes the Locket. -/
def State.modLkt (f : Locket → Locket) (s : State) : State := { s with locket := f s.locket }

/-- The card's presence as the module sees it (R416). -/
def lktPresent (s : State) : Bool := s.variant != .p && s.fbit SYS_UNITS_LOCKET

/-! ### Feed (R405, R406) -/

/-- SFE inputs selected for the feed. -/
def feedSelected (s : State) (i : Nat) : Bool := bitOf (s.fget (LOCKET_FSEL_BITS (i / 32))) (i % 32)

/-- How many inputs LOCKET_FSELw select. -/
def feedCount (s : State) : Nat :=
  ((List.range 64).map (fun w => (maskList 32 (s.fget (LOCKET_FSEL_BITS w))).length)).sum

/-- Bytes waiting in the feed buffer. -/
def feedUse (s : State) : Nat := (s.locket.feed.map List.length).sum

/-- A frame enters the SFE input buffer: its copy goes to the feed, or is discarded and counted. -/
def feedCopy (f : NetFrame) (s : State) : State :=
  if ¬ lktPresent s ∨ ¬ s.fbit LOCKET_CTL_FEEDEN ∨ f.replay ∨ ¬ feedSelected s f.target then s
  else
    let b := frameHeader f f.bytes.length f.bytes.length (flagsOf f false false false) ++ f.bytes
    let c := b ++ leBytes 4 (crc32c b)
    if 262144 < feedUse s + c.length then s.bump LOCKET_FDROP_N
    else s.modLkt (fun l => { l with feed := l.feed ++ [c] })

/-! ### The card's records -/

/-- Bytes of the parameter header. -/
def lktHeader (l : Locket) : List Byte := memRead l.params 0 64

/-- Bytes of parameter entry `i`. -/
def lktEntry (l : Locket) (i : Nat) : List Byte := memRead l.params (64 + 64 * i) 64

/-- The whole parameter block, the header first. -/
def lktParams (l : Locket) : List Byte := memRead l.params 0 2112

/-- The point's entry is valid. -/
def lpV (e : List Byte) : Bool := bitOf (leAt e 0 1) 7

/-- The Hallmark record without its CRC (R413). -/
def hallBody (h : Hallmark) : List Byte :=
  leBytes 2 1 ++ leBytes 2 256 ++ beBytes 12 h.serial ++ leBytes 8 h.dieid ++ leBytes 4 h.fwver ++ leBytes 4 h.fwlen ++
    beBytes 32 h.fwsum ++ beBytes 32 h.parsum ++ leBytes 1 (b2n h.opened) ++ zeroBytes 3 ++ leBytes 4 h.nseal ++
    leBytes 4 h.lastseal ++ leBytes 4 h.npchg ++ leBytes 4 h.nfw ++ beBytes 16 h.certid ++ zeroBytes 120

/-- The Hallmark record's 256 bytes. -/
def hallBytes (h : Hallmark) : List Byte := hallBody h ++ leBytes 4 (crc32c (hallBody h))

/-- The seal log is full. -/
def logFull (l : Locket) : Bool := decide (256 ≤ l.log.length)

/-- A seal event: NSEAL, LASTSEAL and, while the log has room, an entry whose NUM is NSEAL after the event (R413). -/
def sealEvent (kind sum : Nat) (l : Locket) : Locket :=
  let n := (l.hall.nseal + 1) % 2 ^ 32
  let l := { l with hall := { l.hall with nseal := n, lastseal := l.clock } }
  if logFull l then l else { l with log := l.log ++ [⟨l.clock, kind, n % 2 ^ 16, sum / 2 ^ 192⟩] }

/-- A seal event that a full log leaves out: everything but a switch movement (R413). -/
def sealEventLogged (kind sum : Nat) (l : Locket) : Locket := if logFull l then l else sealEvent kind sum l

/-- A seal-log entry's 16 bytes. -/
def sealBytes (e : SealEntry) : List Byte :=
  leBytes 4 e.time ++ leBytes 1 e.kind ++ [0] ++ leBytes 2 e.num ++ beBytes 8 e.sum

/-- The 96 bytes of READ_POINT (R409). -/
def pointBytes (i : Nat) (p : LPoint) : List Byte :=
  leBytes 1 i ++ leBytes 1 p.state ++ zeroBytes 2 ++ leBytes 4 p.time ++ leBytes 8 p.eimp ++ leBytes 8 p.eexp ++
    leBytes 8 p.eq1 ++ leBytes 8 p.eq2 ++ leBytes 8 p.eq3 ++ leBytes 8 p.eq4 ++ leBytes 8 p.es ++ leBytes 4 p.dem ++
    leBytes 4 p.dmax ++ leBytes 4 p.dmaxt ++ leBytes 2 p.dint ++ zeroBytes 2 ++ leBytes 4 p.misss ++ zeroBytes 12

/-- Point `i`. -/
def lktPoint (l : Locket) (i : Nat) : LPoint := l.points.getD i lpoint0

/-- Changes every point, knowing its number. -/
def modPoints (f : Nat → LPoint → LPoint) (l : Locket) : Locket :=
  { l with points := (List.range 32).map (fun i => f i (lktPoint l i)) }

/-! ### Metering (R407, R409) -/

/-- Which stream of a point an ASDU of a frame belongs to. -/
def lktMatch (appid svh conf : Nat) (e : List Byte) (cur : Bool) : Bool :=
  if cur then leAt e 6 2 == appid && leAt e 0xC 4 == svh && leAt e 0x1C 4 == conf
  else leAt e 4 2 == appid && leAt e 8 4 == svh && leAt e 0x18 4 == conf

/-- The dataset channels a point takes from a stream. -/
def lktChans (e : List Byte) (cur : Bool) : List Nat :=
  ((sliceOf e (if cur then 0x14 else 0x10) 4).map (·.toNat)).filter (· != 0xFF)

/-- A channel's sample is absent from the dataset or marked invalid. -/
def lktInvalid (data : List Byte) (c : Nat) : Bool :=
  decide (data.length < 8 * c + 8) || beAt data (8 * c + 4) 4 % 4 == 1 || beAt data (8 * c + 4) 4 % 4 == 2

/-- Whether a sample is missing between two counts; where the count returns to 0 with no rate given, `w` decides. -/
def lktGap (last : Option Nat) (a : Asdu) (w : Bool) : Bool :=
  match last with
  | none => false
  | some n =>
    if a.smpCnt = n + 1 then false
    else if a.smpCnt = 0 then (match a.rate with
      | some r => n + 1 != r
      | none => w)
    else true

/-- One ASDU's marks on a point. -/
def lktSample (e : List Byte) (appid svh : Nat) (a : Asdu) (w : Bool) (p : LPoint) : LPoint :=
  let one := fun (cur : Bool) (p : LPoint) =>
    if lktMatch appid svh a.confRev e cur then
      let bad := lktGap (if cur then p.lastI else p.lastV) a w || (lktChans e cur).any (lktInvalid a.data)
      let p := { p with got := true, miss := p.miss || bad }
      if cur then { p with lastI := some a.smpCnt } else { p with lastV := some a.smpCnt }
    else p
  one true (one false p)

/-- Adds the energies of a frame: how much is a free value. -/
def lktEnergy (i clock : Nat) (s : State) : State :=
  let ((ds, s) : List Nat × State) := (List.range 7).foldl (fun (a : List Nat × State) _ =>
    let (d, s) := a.2.draw Site.energy 64
    (a.1 ++ [d], s)) ([], s)
  let add := fun (v k : Nat) => (v + nth ds k) % 2 ^ 64
  s.modLkt (modPoints (fun j p => if j = i then
    { p with eimp := add p.eimp 0, eexp := add p.eexp 1, eq1 := add p.eq1 2, eq2 := add p.eq2 3, eq3 := add p.eq3 4,
             eq4 := add p.eq4 5, es := add p.es 6, time := clock } else p))

/-- A point takes a fed frame. -/
def lktMeter (f : List Byte) (as : List (List (Nat × List Byte))) (i : Nat) (s : State) : State :=
  let e := lktEntry s.locket i
  let p := lktPoint s.locket i
  let tag := Config.openFn Site.lktMac (leAt e 2 1 % 8 :: f.map (·.toNat)) % 2 == 1
  if ¬ lpV e ∨ p.state = 3 ∨ (bitOf (leAt e 0 1) 6 ∧ ¬ tag) then s
  else
    let (w, s) := s.draw Site.lktWrap 1
    let p' := as.foldl (fun p l => match asduOf l with
      | some a => lktSample e (apduAppid f) (crc32c ((berFind 0x80 l).getD [])) a (w == 1) p
      | none => p) p
    if p' = p then s
    else lktEnergy i s.locket.clock (s.modLkt (modPoints (fun j q => if j = i then p' else q)))

/-- LOCKET_FEED_FRAME: the oldest copy reaches the card (R406, R407). -/
def execLocketFeedFrame (s : State) : Result :=
  .next (
    match s.locket.feed with
    | [] => s
    | c :: l =>
      let s := (s.modLkt (fun x => { x with feed := l })).bump LOCKET_FSENT_N
      let f := sliceOf c 32 (leAt c 16 2)
      if ¬ s.locket.on then s
      else match asdusOf f with
        | some as => s.each (List.range 32) (lktMeter f as)
        | none => s)

/-- A second ends on the Locket clock (R407, R409, R415): a second without any sample misses samples too. -/
def lktSecond (l : Locket) : Locket :=
  let l := { l with clock := (l.clock + 1) % 2 ^ 32 }
  modPoints (fun i p =>
    if ¬ lpV (lktEntry l i) ∨ p.state = 3 then p
    else
      let bad := p.miss || !p.got
      { p with state := if p.got then 1 else 2, misss := if bad then satInc 32 p.misss else p.misss,
               time := if bad then l.clock else p.time, hist := (bad :: p.hist).take 60, got := false, miss := false }) l

/-- LOCKET_SECOND_END. -/
def execLocketSecondEnd (s : State) : Result := .next (if s.locket.on then s.modLkt lktSecond else s)

/-- A demand interval of point `i` ends: its average power is a free value. -/
def lktDemand (i : Nat) (s : State) : State :=
  let l := s.locket
  let e := lktEntry l i
  let n := leAt e 1 1
  if ¬ lpV e ∨ (lktPoint l i).state = 3 ∨ n = 0 ∨ l.clock % (60 * n) ≠ 0 then s
  else
    let (d, s) := s.draw Site.demand 32
    s.modLkt (modPoints (fun j p => if j ≠ i then p else
      let p := { p with dem := d, dint := n, time := l.clock }
      if p.dmax < d then { p with dmax := d, dmaxt := l.clock } else p))

/-- DEMAND_INTERVAL_END: for every point whose interval ends at this second of the Locket clock (R409). -/
def execDemandIntervalEnd (s : State) : Result :=
  .next (if s.locket.on then s.each (List.range 32) lktDemand else s)

/-! ### Saves and power-up (R410, R414) -/

/-- LOCKET_PERIODIC_SAVE. -/
def execLocketPeriodicSave (s : State) : Result :=
  .next (if s.locket.on then s.modLkt (fun l => { l with periodic := l.points }) else s)

/-- LOCKET_SUPPLY_FAIL: the final save, within the hold-up. -/
def execLocketSupplyFail (s : State) : Result :=
  .next (if s.locket.on then s.modLkt (fun l => { l with final := some l.points, on := false, requests := [] }) else s)

/-- The card starts: registers from the final save, else from the periodic one with KIND 6; a committed image takes
effect; both sums are checked (R410, R414). -/
def lktPowerUp (l : Locket) : Locket :=
  let l := { l with on := true, requests := [], fw := l.fwNext }
  let l := match l.final with
    | some p => { l with points := p, final := none }
    | none => sealEventLogged 6 0 { l with points := l.periodic }
  if sha256 (memRead l.fw.1 0 l.fw.2) = l.hall.fwsum ∧ sha256 (lktParams l) = l.hall.parsum then l
  else modPoints (fun _ p => { p with state := 3 }) (sealEventLogged 5 0 { l with legalOk := false })

/-- LOCKET_POWER_UP. -/
def execLocketPowerUp (s : State) : Result := .next (s.modLkt lktPowerUp)

/-! ### Seal switch (R414) -/

/-- SEAL_SWITCH_OPEN. -/
def execSealSwitchOpen (s : State) : Result :=
  .next (if s.locket.sealed_ then
    s.modLkt (fun l => sealEvent 1 0 { l with sealed_ := false, hall := { l.hall with opened := true } }) else s)

/-- SEAL_SWITCH_CLOSE: staged data is discarded. -/
def execSealSwitchClose (s : State) : Result :=
  .next (if s.locket.sealed_ then s else
    s.modLkt (fun l => sealEvent 2 0 { l with sealed_ := true, hall := { l.hall with opened := false }, staged := [],
                                              fwStage := ([], 0) }))

/-! ### Requests (R411, R412) -/

/-- The payload of a request whose CRC is right, with its OP and SEQ. -/
def reqPayload (b : List Byte) : Option (List Byte) :=
  let n := leAt b 4 2
  if n ≤ 496 ∧ 12 + n ≤ b.length ∧ leAt b (8 + n) 4 = crc32c (b.take (8 + n)) then some (sliceOf b 8 n) else none

/-- FLAGS of a response. -/
def lktFlags (l : Locket) : Nat := b2n l.sealed_ + 2 * b2n l.legalOk + 4 * b2n (logFull l)

/-- The response to a request. -/
def lktResponse (l : Locket) (req : List Byte) (status : Nat) (pay : List Byte) : List Byte :=
  let b := [0x5A] ++ sliceOf req 1 3 ++ leBytes 2 pay.length ++ leBytes 1 status ++ leBytes 1 (lktFlags l) ++ pay
  b ++ leBytes 4 (crc32c b)

/-- The Locket answers the oldest request, if it has code `op`. `f` answers the status, the payload and the card. -/
def lktAnswer (op : Nat) (f : List Byte → Locket → Nat × List Byte × Locket) (s : State) : State :=
  let l := s.locket
  match l.requests with
  | [] => s
  | r :: rest =>
    if leAt r 1 1 ≠ op ∨ ¬ l.on then s
    else
      let (st, pay, l) := match reqPayload r with
        | some p => f p { l with requests := rest }
        | none => (1, [], { l with requests := rest })
      { s with locket := { l with responses := l.responses ++ [lktResponse l r st pay] } }

/-- IDENT. -/
def execIdent (s : State) : Result :=
  .next (lktAnswer 1 (fun _ l => (0, (hallBytes l.hall).take 64, l)) s)

/-- STATUS: STATE and the misses of the last minute of every point. -/
def execLocketStatus (s : State) : Result :=
  .next (lktAnswer 2 (fun _ l =>
    (0, (List.range 32).flatMap (fun i =>
      let p := lktPoint l i
      leBytes 4 (p.state + 256 * (p.hist.filter id).length)), l)) s)

/-- READ_POINT. -/
def execReadPoint (s : State) : Result :=
  .next (lktAnswer 3 (fun p l =>
    if p.length = 1 ∧ leAt p 0 1 < 32 then (0, pointBytes (leAt p 0 1) (lktPoint l (leAt p 0 1)), l) else (3, [], l)) s)

/-- READ_HALLMARK. -/
def execReadHallmark (s : State) : Result := .next (lktAnswer 4 (fun _ l => (0, hallBytes l.hall, l)) s)

/-- READ_LOG: the entries of the range that have been written. -/
def execReadLog (s : State) : Result :=
  .next (lktAnswer 5 (fun p l =>
    if p.length = 3 ∧ 1 ≤ leAt p 2 1 ∧ leAt p 2 1 ≤ 30 then
      (0, ((l.log.drop (leAt p 0 2)).take (leAt p 2 1)).flatMap sealBytes, l)
    else (3, [], l)) s)

/-- READ_PARAM. -/
def execReadParam (s : State) : Result :=
  .next (lktAnswer 6 (fun p l =>
    if p.length = 1 ∧ leAt p 0 1 < 32 then (0, lktEntry l (leAt p 0 1), l)
    else if p.length = 1 ∧ leAt p 0 1 = 0xFF then (0, lktHeader l, l)
    else (3, [], l)) s)

/-- A write operation: refused while sealed, then while the log is full (R412, R413). -/
def lktWrite (op : Nat) (f : List Byte → Locket → Nat × Locket) (s : State) : State :=
  lktAnswer op (fun p l =>
    if l.sealed_ then (4, [], l)
    else if logFull l then (7, [], l)
    else
      let (st, l) := f p l
      (st, [], l)) s

/-- PARAM_WRITE. -/
def execParamWrite (s : State) : Result :=
  .next (lktWrite 0x10 (fun p l =>
    let i := leAt p 0 1
    if p.length = 65 ∧ (i < 32 ∨ i = 0xFF) then (0, { l with staged := ainsert i (p.drop 1) l.staged }) else (3, l)) s)

/-- FW_CHUNK. -/
def execFwChunk (s : State) : Result :=
  .next (lktWrite 0x11 (fun p l =>
    let o := leAt p 0 4
    let d := p.drop 4
    if 4 ≤ p.length ∧ d.length ≤ 480 ∧ o + d.length ≤ 0x1000000 then
      (0, { l with fwStage := (memWrite l.fwStage.1 o d, max l.fwStage.2 (o + d.length)) })
    else (3, l)) s)

/-- COMMIT 1: the staged entries take effect; the legal registers of each point whose entry changed are cleared. -/
def commitParams (l : Locket) : Locket :=
  let params := l.staged.foldl (fun m e => memWrite m (if e.1 = 0xFF then 0 else 64 + 64 * e.1) e.2) l.params
  let old := l
  let l := { l with params := params, staged := [] }
  let l := modPoints (fun i p =>
    if lktEntry old i = lktEntry l i then p
    else { lpoint0 with state := b2n (lpV (lktEntry l i)), dint := leAt (lktEntry l i) 1 1 }) l
  let sum := sha256 (lktParams l)
  let cert := Config.openFn Site.lktCert ((lktHeader l).map (·.toNat)) % 2 ^ 128
  sealEvent 3 sum { l with hall := { l.hall with parsum := sum, npchg := (l.hall.npchg + 1) % 2 ^ 32, certid := cert } }

/-- COMMIT 2: a staged image that carries the Torvif signature takes effect at the next power-up. -/
def commitFw (l : Locket) : Nat × Locket :=
  let img := memRead l.fwStage.1 0 l.fwStage.2
  let ns := img.map (·.toNat)
  if Config.openFn Site.lktFw (0 :: ns) % 2 = 0 then (6, l)
  else
    let sum := sha256 img
    (0, sealEvent 4 sum { l with
      fwNext := l.fwStage, fwStage := ([], 0),
      hall := { l.hall with fwsum := sum, fwlen := img.length, nfw := (l.hall.nfw + 1) % 2 ^ 32,
                            fwver := Config.openFn Site.lktFw (1 :: ns) % 2 ^ 32 } })

/-- COMMIT. -/
def execCommit (s : State) : Result :=
  .next (lktWrite 0x12 (fun p l =>
    match leAt p 0 1, p.length with
    | 1, 1 => (0, commitParams l)
    | 2, 1 => commitFw l
    | 3, 1 => (0, sealEvent 7 0 (modPoints (fun _ q => { q with dmax := 0, dmaxt := 0 }) l))
    | 4, 5 => (0, sealEvent 8 0 { l with clock := leAt p 1 4 })
    | _, _ => (3, l)) s)

/-! ### Mailbox (R411, R418) -/

/-- The operations of R412. -/
def lktOps : List Nat := [1, 2, 3, 4, 5, 6, 0x10, 0x11, 0x12]

/-- A request reaches the card: a wrong SYNC brings no response, an unknown operation or a bad CRC its status. -/
def lktReceive (r : List Byte) (s : State) : State :=
  if leAt r 0 1 ≠ 0xA5 ∨ ¬ s.locket.on then s
  else if lktOps.contains (leAt r 1 1) then s.modLkt (fun l => { l with requests := l.requests ++ [r] })
  else
    let st := if (reqPayload r).isNone then 1 else 2
    s.modLkt (fun l => { l with responses := l.responses ++ [lktResponse l r st []] })

/-- A write of LOCKET_MBCMD. -/
def mbCmdOp (v : Nat) (s : State) : Rsp × State :=
  let n := v % 1024
  if s.fbit LOCKET_STAT_BUSY ∨ n < 8 ∨ 504 < n then (.denied, s)
  else if ¬ bitOf v 31 then (.ok, s)
  else
    let b := ((List.range 128).flatMap (fun k => leBytes 4 (s.fget (LOCKET_MBTX_V k)))).take n
    (.ok, lktReceive (b ++ leBytes 4 (crc32c b)) (s.fset LOCKET_STAT_BUSY 1))

/-- MAILBOX_SEND: a write of LOCKET_MBCMD with SEND = 1. -/
def execMailboxSend (rq : Req) (v : Word) (s : State) : Result :=
  .next (s.regWriteAccess rq 0xF000160008 (mbCmdOp (v ||| 0x80000000).toNat))

/-- The port takes a response: SYNC and CRC checked, then RESP or BADRESP (R411). -/
def mbTake (r : List Byte) (s : State) : State :=
  let n := leAt r 4 2
  let good := leAt r 0 1 == 0x5A && r.length == 12 + n && leAt r (8 + n) 4 == crc32c (r.take (8 + n))
  let s := s.fset LOCKET_STAT_BUSY 0
  if ¬ good then s.fset LOCKET_STAT_BADRESP 1
  else
    let b := padTo 512 r
    let s := s.each (List.range 128) (fun k => State.fset (LOCKET_MBRX_V k) (leAt b (4 * k) 4))
    (s.fset LOCKET_MBRLEN_N r.length).fset LOCKET_STAT_RESP 1

/-- MAILBOX_RESPONSE: the oldest response on its way arrives. -/
def execMailboxResponse (s : State) : Result :=
  .next (
    match s.locket.responses with
    | [] => s
    | r :: rest => if lktPresent s then mbTake r (s.modLkt (fun l => { l with responses := rest })) else s)

/-- MAILBOX_TIMEOUT. -/
def execMailboxTimeout (s : State) : Result :=
  .next (if s.fbit LOCKET_STAT_BUSY then (s.fset LOCKET_STAT_BUSY 0).fset LOCKET_STAT_TIMEOUT 1 else s)

/-- MAILBOX_LINE_LOCK_CHANGE. -/
def execMailboxLineLockChange (locked : Bool) (s : State) : Result := .next (s.fsetB LOCKET_STAT_LINK locked)

/-- The module's side of the feed and the mailbox at reset. -/
def lktPortReset (s : State) : State :=
  (clearRegs (fun b _ => b == 22) s).modLkt (fun l => { l with feed := [], requests := [], responses := [] })

/-- LOCKET_CARD_INSERTED (R416): SYS_UNITS.LOCKET sets and the change is logged (R6). -/
def execLocketCardInserted (s : State) : Result :=
  .next (if s.variant = .p ∨ s.fbit SYS_UNITS_LOCKET then s
    else (s.fset SYS_UNITS_LOCKET 1).log' SYS_UNITS_LOCKET false 3 0xFF [1])

/-- LOCKET_CARD_REMOVED (R416). -/
def execLocketCardRemoved (s : State) : Result :=
  .next (if s.variant = .p ∨ ¬ s.fbit SYS_UNITS_LOCKET then s
    else (lktPortReset (s.fset SYS_UNITS_LOCKET 0)).log' SYS_UNITS_LOCKET false 3 0xFF [0])

/-- Reads of the LOCKET block. -/
def lktRead (off : Nat) (s : State) : Nat × State := tableRead regsLOCKET (0xF000160000 + off) s

/-- Writes of the LOCKET block. -/
def lktWriteReg (off v : Nat) (s : State) : Rsp × State :=
  if off = 8 then mbCmdOp v s
  else if 0x400 ≤ off ∧ off < 0x600 ∧ s.fbit LOCKET_STAT_BUSY then (.denied, s)
  else
    let (r, s') := tableWrite regsLOCKET (0xF000160000 + off) v s
    if 64 < feedCount s' then (.denied, s) else (r, s')

/-- The interrupt condition of LOCKET_CTL. -/
def lktLine (s : State) : Bool :=
  s.fbit LOCKET_CTL_MBIE && (s.fbit LOCKET_STAT_RESP || s.fbit LOCKET_STAT_TIMEOUT || s.fbit LOCKET_STAT_BADRESP)

end Sys2Proof.Machine
end

