-- ==== Sys2Proof/Machine/Wams.lean ====
section
/-! DEFINITION. The wide-area concentrator (spec file 09): tables, ingest, alignment, output streams, detector banks,
alarms and the kernel queue of the analytic lanes. -/
namespace Sys2Proof.Machine

open Reg

/-- Changes the concentrator. -/
def State.modWams (f : Wams → Wams) (s : State) : State := { s with wams := f s.wams }

/-- Counter k of R303, with its half-range bit. -/
def wamsCount (k : Nat) (s : State) : State :=
  let s := s.bump (WAMS_CNT_N k)
  if 2 ^ 31 ≤ s.fget (WAMS_CNT_N k) then s.fset WAMS_CNTHALF_BITS (putBit (s.fget WAMS_CNTHALF_BITS) k true) else s

/-- The grid rate. -/
def gridFs (s : State) : Nat := s.fget WAMS_GRID_FS

/-- TAG of a key (R276). -/
def keyTag (s : State) (k : Nat) : Nat := k * secUnits / gridFs s

/-- Bytes of a store slot (R276). -/
def slotBytes (s : State) : Nat := 0x40000 + 8 * 2 ^ s.fget WAMS_ASCFG_NSIG

/-- DRAM address of a slot of the store. -/
def slotAddr (s : State) (n : Nat) : Nat := s.fget WAMS_ASBASE_ADDR * 4096 + slotBytes s * n

/-- The bytes of the quiet NaN that absent values hold (R276). -/
def nanBytes : List Byte := [0x00, 0x00, 0xC0, 0x7F]

/-! ### Binary32 helpers -/

/-- a > b, a ≥ b and a < b of two words; false when one is a NaN. -/
def f32Gt (a b : Nat) : Bool := (fCmp false a b).1 == 4
def f32Ge (a b : Nat) : Bool := (fCmp false a b).1 == 4 || (fCmp false a b).1 == 2
def f32Lt (a b : Nat) : Bool := (fCmp false a b).1 == 1

/-- Sum, difference and product, rounded to nearest. -/
def f32Add (a b : Nat) : Nat := (fAdd 0 false a b).1
def f32Sub (a b : Nat) : Nat := (fAdd 0 true a b).1
def f32Mul (a b : Nat) : Nat := (fMul 0 a b).1

/-- Magnitude. -/
def f32Abs (a : Nat) : Nat := a % 2 ^ 31

/-- SCALE × raw + OFFSET: exact where no rounding occurs, otherwise open (assumption 22). -/
def affineF32 (scale raw offset : Nat) : Nat :=
  let p := fMul 0 scale raw
  let q := fAdd 0 false p.1 offset
  if p.2 = 0 ∧ q.2 = 0 then q.1 else Config.openFn Site.affine [scale, raw, offset] % 2 ^ 32

/-- wrap of an angle to (−π, π]: the angle itself inside, open outside. -/
def wrapF32 (d : Nat) : Nat :=
  if f32Ge 0x40490FDA (f32Abs d) then d else Config.openFn Site.wrap [d] % 2 ^ 32

/-- FS ÷ n as binary32. -/
def rateF32 (fs n : Nat) : Nat := (fDiv 0 (fOfInt 0 fs).1 (fOfInt 0 n).1).1

/-! ### Signal entries (R271) -/

def sgGen (e : List Byte) : Nat := leAt e 0 2
def sgV (e : List Byte) : Bool := bitOf (leAt e 2 1) 7
def sgLock (e : List Byte) : Bool := bitOf (leAt e 2 1) 5
def sgType (e : List Byte) : Nat := leAt e 2 1 % 16
def sgFsel (e : List Byte) : Nat := leAt e 3 1
def sgFeed (e : List Byte) : Nat := leAt e 4 2 % 32768
def sgFv (e : List Byte) : Bool := bitOf (leAt e 4 2) 15
def sgScale (e : List Byte) : Nat := leAt e 8 4
def sgOffset (e : List Byte) : Nat := leAt e 0xC 4
def sgSrc (e : List Byte) : Nat := leAt e 0x10 2 % 16384
def sgLocal (e : List Byte) : Bool := bitOf (leAt e 0x10 2) 15

/-- Address of a signal entry. -/
def sigAddr (s : State) (i : Nat) : Nat := s.fget WAMS_SIGBASE_ADDR * 4096 + 32 * i

/-- The cache without its oldest unlocked entry when it is full (R272). -/
def sigTrim (l : List (Nat × List Byte)) : List (Nat × List Byte) :=
  if l.length < 65536 then l
  else match l.reverse.find? (fun p => !sgLock p.2) with
    | some p => l.filter (fun q => q.1 != p.1)
    | none => l

/-- A signal entry through the cache; a miss reads the 64-byte line that holds it (R272). -/
def sigEntry (i : Nat) (s : State) : List Byte × State :=
  match alookup i s.wams.sigs with
  | some e => (e, s)
  | none =>
    let j := i / 2 * 2
    let (b, s) := s.engRead 13 0xFF (sigAddr s j) 64
    let put := fun (k : Nat) (e : List Byte) (l : List (Nat × List Byte)) =>
      if (alookup k l).isSome then l else (k, e) :: sigTrim l
    (sliceOf b (32 * (i - j)) 32,
     s.modWams (fun w => { w with sigs := put j (b.take 32) (put (j + 1) (b.drop 32) w.sigs) }))

/-! ### Values -/

/-- A value on its way into the store: signal, its position in the block as TYPE, and what was received. `fmt` bits as
FORMAT, `a` and `b` the raw words. -/
structure RawVal where
  sig : Nat
  typ : Nat
  isFloat : Bool
  polar : Bool
  a : Nat
  b : Nat
  deriving DecidableEq, Repr

/-- A present value never holds the quiet NaN of absent values in both words (R277): where a conversion gives it twice, the
second word is open, and another one. -/
def presentVal (v : Nat × Nat) : Nat × Nat :=
  if v = (0x7FC00000, 0x7FC00000) then
    let x := Config.openFn Site.phasorConv [2] % (2 ^ 32 - 1)
    (v.1, if x < 0x7FC00000 then x else x + 1)
  else v

/-- The 8-byte stored form of a value, as its two words (R271, R277). -/
def convVal (r : RawVal) (scale offset : Nat) : Nat × Nat :=
  if r.typ = 5 then (r.a, 0)
  else if r.typ = 1 then
    if r.polar ∨ offset % 2 ^ 31 ≠ 0 then
      let f := fun (k : Nat) =>
        Config.openFn Site.phasorConv [k, b2n r.isFloat, b2n r.polar, r.a, r.b, scale, offset] % 2 ^ 32
      presentVal (f 0, f 1)
    else if r.isFloat then presentVal (f32Mul scale r.a, f32Mul scale r.b)
    else presentVal (f32Mul scale (fOfInt 0 (signedOf 16 r.a)).1, f32Mul scale (fOfInt 0 (signedOf 16 r.b)).1)
  else (affineF32 scale (if r.isFloat then r.a else (fOfInt 0 (signedOf 16 r.a)).1) offset, 0)

/-- The values of a block from its bytes after STAT (C37.118.2 order: phasors, FREQ, DFREQ, analogs, digitals). -/
def blockVals (k : WBlock) (b : List Byte) : List RawVal :=
  let pf := bitOf k.fmt 1
  let ff := bitOf k.fmt 3
  let af := bitOf k.fmt 2
  let pn := if pf then 4 else 2
  let fn := if ff then 4 else 2
  let an := if af then 4 else 2
  let o1 := 2 * pn * k.ph
  let o2 := o1 + 2 * fn
  let o3 := o2 + an * k.an
  (List.range k.ph).map (fun j => ⟨k.sig + j, 1, pf, bitOf k.fmt 0, beAt b (2 * pn * j) pn, beAt b (2 * pn * j + pn) pn⟩) ++
  [⟨k.sig + k.ph, 2, ff, false, beAt b o1 fn, 0⟩, ⟨k.sig + k.ph + 1, 3, ff, false, beAt b (o1 + fn) fn, 0⟩] ++
  (List.range k.an).map (fun j => ⟨k.sig + k.ph + 2 + j, 4, af, false, beAt b (o2 + an * j) an, 0⟩) ++
  (List.range k.dg).map (fun j => ⟨k.sig + k.ph + 2 + k.an + j, 5, false, false, beAt b (o3 + 2 * j) 2, 0⟩)

/-- Bytes of a block in a data frame, STAT included. -/
def blockLen (k : WBlock) : Nat :=
  2 + k.ph * (if bitOf k.fmt 1 then 8 else 4) + (if bitOf k.fmt 3 then 8 else 4) +
    k.an * (if bitOf k.fmt 2 then 4 else 2) + 2 * k.dg

/-- A record of one source (R279). A block is its status index, its status word, whether its feed slots are valid, whether
it is RAW, and its values. -/
structure WRec where
  isLocal : Bool
  src : Nat
  exp : Bool
  key : Nat
  blks : List (Nat × Nat × Bool × Bool × List RawVal)
  deriving DecidableEq, Repr

/-- What FSEL selects of a stored value (R271). -/
def feedVal (fsel : Nat) (v : Nat × Nat) : Nat :=
  if fsel = 1 then v.1
  else if fsel = 4 then v.1 + v.2 * 2 ^ 32
  else Config.openFn Site.magAngle [fsel - 2, v.1, v.2] % 2 ^ 32

/-- Stores one value of a record in slot `n` of the store, and answers its feed value (R271, R284). -/
def storeVal (n : Nat) (isLocal : Bool) (src : Nat) (raw valid : Bool) (r : RawVal) (s : State) :
    Option (Nat × Nat × Bool) × State :=
  let put := fun (v : Nat × Nat) (s : State) =>
    s.engWrite 13 0xFF (slotAddr s n + 0x40000 + 8 * r.sig) (leBytes 4 v.1 ++ leBytes 4 v.2)
  if raw then (none, put (convVal r 0x3F800000 0) s)
  else
    let (e, s) := sigEntry r.sig s
    if ¬ sgV e ∨ sgSrc e ≠ src ∨ sgLocal e ≠ isLocal ∨ sgType e ≠ r.typ then
      let s := wamsCount 11 s
      if s.wams.sigmis.contains r.sig then (none, s)
      else (none, (s.modWams (fun w => { w with sigmis := r.sig :: w.sigmis })).log' (WAMS_CNT_N 11) false 3 0xFF [r.sig])
    else
      let v := convVal r (sgScale e) (sgOffset e)
      (if sgFv e ∧ sgFsel e ≠ 0 then some (sgFeed e, feedVal (sgFsel e) v, valid) else none, put v s)

/-- Stores a record's values and status words in slot `n`; `late` sets LATEF (R277, R280). Its feed values are answered. -/
def storeRec (n : Nat) (late : Bool) (r : WRec) (s : State) : List (Nat × Nat × Bool) × State :=
  r.blks.foldl (fun (a : List (Nat × Nat × Bool) × State) k =>
    let st := k.2.1 + 2 ^ 24 + (if late then 2 ^ 25 else 0)
    let s := a.2.engWrite 13 0xFF (slotAddr a.2 n + 0x10000 + 4 * k.1) (leBytes 4 st)
    k.2.2.2.2.foldl (fun (a : List (Nat × Nat × Bool) × State) v =>
      let (o, s) := storeVal n r.isLocal r.src k.2.2.2.1 k.2.2.1 v a.2
      (a.1 ++ o.toList, s)) (a.1, s)) ([], s)

/-! ### Detectors (R285 to R293) -/

/-- The persistence rule (R285): the new state and the edge it emits. -/
def persistStep (cond : Bool) (n : Nat) (p : Persist) : Persist × Option Bool :=
  let run := if cond = p.active then 0 else p.run + 1
  if n ≤ run then (⟨0, cond⟩, some cond) else (⟨run, p.active⟩, none)

/-- An alarm record (R295). -/
def almRec (src edge index w1 w2 w3 extra : Nat) : List Byte :=
  leBytes 1 src ++ leBytes 1 edge ++ leBytes 2 index ++ leBytes 4 w1 ++ leBytes 4 w2 ++ leBytes 4 w3 ++ leBytes 2 extra ++
    zeroBytes 14

/-- The value of a feed slot in a bucket, if it is valid (R284). -/
def feedOf (b : Bucket) (slot : Nat) : Option Nat :=
  match b.feeds.find? (fun f => f.1 == slot) with
  | some f => if f.2.2 then some f.2.1 else none
  | none => none

/-- Adds a record to those of the bucket that closes. -/
def addRec (r : List Byte) (l : List (List Byte)) : List (List Byte) := l ++ [r]

/-- One modal group at a closed bucket (R287): the group after it, members held, and whether it evaluates. -/
def modalSample (m : Modal) (b : Bucket) : Modal × Nat :=
  let step := fun (a : List (Nat × Nat × Bool) × Nat) (p : (Nat × Bool × Nat) × Nat) =>
    let j := p.2
    let last := nth m.last j
    let lr := nth m.lastRaw j
    let seen := m.seen.getD j false
    match feedOf b p.1.1 with
    | some v =>
      let raw := v % 2 ^ 32
      let x := if p.1.2.1 && seen then f32Add last (wrapF32 (f32Sub raw lr)) else raw
      (a.1 ++ [(x, raw, true)], a.2)
    | none => (a.1 ++ [(last, lr, seen)], a.2 + 1)
  let (l, held) := m.mems.zipIdx.foldl step ([], 0)
  ({ m with hist := ((l.map (·.1)) :: m.hist).take m.nw, last := l.map (·.1), lastRaw := l.map (·.2.1),
            seen := l.map (·.2.2), count := m.count + 1 }, held)

/-- The words of a modal evaluation: FREQ, ZETA, AMP, then the shape of each member (R287). -/
def modalWords (fs : Nat) (m : Modal) : List Nat :=
  let args := [fs, m.dec, m.nbin, m.nw, m.flo, m.fhi] ++ m.mems.map (·.2.2) ++ m.hist.flatten
  (List.range (3 + 2 * m.mems.length)).map (fun k => Config.openFn Site.modal (k :: args) % 2 ^ 32)

/-- The member of largest shape magnitude, the lowest of equal ones. -/
def largestShape (ws : List Nat) (n : Nat) : Nat :=
  let mag := fun (j : Nat) =>
    (fVal (fDecode (nth ws (3 + 2 * j)))).natAbs ^ 2 + (fVal (fDecode (nth ws (4 + 2 * j)))).natAbs ^ 2
  (List.range n).foldl (fun best j => if mag best < mag j then j else best) 0

/-- Evaluates modal group `g` at a closed bucket. -/
def modalStep (g : Nat) (m : Modal) (b : Bucket) (s : State) : List (List Byte) × State :=
  if ¬ m.v ∨ b.key % m.dec ≠ 0 then ([], s) else
  let (m, held) := modalSample m b
  let s := s.each (List.range held) (fun _ => wamsCount 15)
  let keep := fun (m : Modal) (s : State) => s.modWams (fun w => { w with modals := ainsert g m w.modals })
  if m.count < m.nw ∨ (m.count - m.nw) % m.evdiv ≠ 0 then ([], keep m s)
  else
    let ws := modalWords (gridFs s) m
    let (fr, z, amp) := (nth ws 0, nth ws 1, nth ws 2)
    let (per, edge) := persistStep (f32Ge amp m.amin && f32Lt z m.zmin) m.persist m.per
    let big := largestShape ws m.mems.length
    let m := { m with per := per, res := (fr, z, amp, big), seq := (m.seq + 2) % 2 ^ 32 }
    let blk := leBytes 4 m.seq ++ leBytes 2 (b2n per.active) ++ leBytes 2 held ++ tripleBytes (keyTag s b.key) ++
      leBytes 4 fr ++ leBytes 4 z ++ leBytes 4 amp ++ zeroBytes 0x20 ++ (ws.drop 3).flatMap (leBytes 4)
    let s := (keep m s).engWrite 13 0xFF (s.fget WAMS_RESBASE_ADDR * 4096 + 1024 * g) blk
    (match edge with
     | some e => if m.alm then [almRec 1 (b2n e) g fr z amp big] else []
     | none => [], s)

/-- The value of a monitor at a closed bucket, and its next previous value (R293). -/
def monitorVal (fs : Nat) (m : Monitor) (b : Bucket) : Option Nat × Option Nat :=
  match feedOf b m.fa with
  | none => (none, none)
  | some a =>
    let a := a % 2 ^ 32
    if m.kind < 2 then
      match feedOf b m.fb with
      | none => (none, none)
      | some c =>
        let d := wrapF32 (f32Sub a (c % 2 ^ 32))
        if m.kind = 0 then (some (f32Abs d), some d)
        else (m.prev.map (fun p => f32Mul (f32Abs (f32Sub d p)) (rateF32 fs m.div)), some d)
    else if m.kind = 2 then (some a, some a)
    else (m.prev.map (fun p => f32Mul (f32Abs (f32Sub a p)) (rateF32 fs m.div)), some a)

/-- Evaluates monitor `n` at a closed bucket (R293). -/
def monitorStep (n : Nat) (m : Monitor) (b : Bucket) (s : State) : List (List Byte) × State :=
  if ¬ m.v ∨ b.key % m.div ≠ 0 then ([], s) else
  let (v, prev) := monitorVal (gridFs s) m b
  let keep := fun (m : Monitor) (s : State) => s.modWams (fun w => { w with monitors := ainsert n m w.monitors })
  match v with
  | none => ([], keep { m with prev := prev } s)
  | some v =>
    let cond := if m.per.active then f32Ge v m.lo else f32Gt v m.hi
    let (per, edge) := persistStep cond m.persist m.per
    let m := { m with prev := prev, per := per, val := v, seq := (m.seq + 2) % 2 ^ 32 }
    let s := (keep m s).engWrite 13 0xFF (s.fget WAMS_RESBASE_ADDR * 4096 + 0x50000 + 16 * n)
      (leBytes 4 m.seq ++ leBytes 4 v ++ leBytes 4 (b2n per.active))
    (match edge with
     | some e => if m.alm then [almRec 3 (b2n e) n v m.hi m.lo 0] else []
     | none => [], s)

/-! #### Coherency (R291) -/

/-- Inserts a member by smoothed frequency, ties by lower index. -/
def insFs (p : Nat × Nat) : List (Nat × Nat) → List (Nat × Nat)
  | [] => [p]
  | q :: l =>
    let a := fKey (fDecode p.2)
    let b := fKey (fDecode q.2)
    if a < b ∨ (a = b ∧ p.1 < q.1) then p :: q :: l else q :: insFs p l

/-- Splits a sorted list wherever the next value exceeds the previous by more than GAP. -/
def splitGap (gap : Int) : List (Nat × Nat) → List (List (Nat × Nat))
  | [] => []
  | p :: l =>
    match splitGap gap l with
    | [] => [[p]]
    | [] :: r => [p] :: r
    | (q :: c) :: r =>
      if gap < fVal (fDecode q.2) - fVal (fDecode p.2) then [p] :: (q :: c) :: r else (p :: q :: c) :: r

/-- Inserts a cluster: larger first, then the lower smallest value. -/
def insSize (c : List (Nat × Nat)) : List (List (Nat × Nat)) → List (List (Nat × Nat))
  | [] => [c]
  | d :: l => if d.length < c.length then c :: d :: l else d :: insSize c l

/-- The label of a member, 0xFF when it has none. -/
def labelOf (l : List (Nat × Nat)) (i : Nat) : Nat := (alookup i l).getD 0xFF

/-- The label of a cluster: the reported label with most members in it that no larger cluster took, else the lowest free. -/
def pickLabel (reported : List (Nat × Nat)) (taken : List Nat) (c : List (Nat × Nat)) : Nat :=
  let count := fun (n : Nat) => (c.filter (fun p => labelOf reported p.1 == n)).length
  let free := (List.range 64).filter (fun n => !taken.contains n)
  let best := free.foldl (fun (a : Nat × Nat) n => if a.2 < count n then (n, count n) else a) (0, 0)
  if best.2 = 0 then free.headD 0 else best.1

/-- Labels every cluster, largest first. -/
def labelAll (reported : List (Nat × Nat)) : List Nat → List (List (Nat × Nat)) → List (Nat × List (Nat × Nat))
  | _, [] => []
  | taken, c :: l =>
    let n := pickLabel reported taken c
    (n, c) :: labelAll reported (n :: taken) l

/-- The label array of labelled clusters over the members with V = 1. -/
def labelArray (ms : List (Nat × Nat)) (cs : List (Nat × List (Nat × Nat))) : List (Nat × Nat) :=
  ms.map (fun m => (m.1, match cs.find? (fun c => c.2.any (fun p => p.1 == m.1)) with
    | some c => c.1
    | none => 0xFF))

/-- The labels in use of a label array. -/
def labelsOf (l : List (Nat × Nat)) : List Nat := (List.range 64).filter (fun n => l.any (fun p => p.2 == n))

/-- Mean of a list of words: the word of a single member, open otherwise. -/
def meanF32 (l : List Nat) : Nat := if l.length = 1 then nth l 0 else Config.openFn Site.mean l % 2 ^ 32

/-- The members of an island with their smoothed frequency, by rising frequency. -/
def islandFs (c : Coherency) (n : Nat) : List Nat :=
  let l := c.fs.filter (fun p => labelOf c.reported p.1 == n)
  (l.foldl (fun a p => insFs p a) []).map (·.2)

/-- The clusterer's result block (R292). -/
def cohBlock (c : Coherency) (tag : Nat) : List Byte :=
  let ls := labelsOf c.reported
  let sum := ls.flatMap (fun n =>
    let f := islandFs c n
    leBytes 1 n ++ zeroBytes 1 ++ leBytes 2 (c.reported.filter (fun p => p.2 == n)).length ++ leBytes 4 (meanF32 f) ++
      leBytes 4 (f.headD 0) ++ leBytes 4 (f.getLastD 0))
  let bm := (List.range 64).flatMap (fun n =>
    leBytes 512 ((c.reported.filter (fun p => p.2 == n)).map (fun p => 2 ^ p.1)).sum)
  padTo 0x100 (leBytes 4 c.seq ++ leBytes 1 ls.length ++ zeroBytes 3 ++ tripleBytes tag) ++ padTo 0x400 sum ++
    (List.range 4096).map (fun i => BitVec.ofNat 8 (labelOf c.reported i)) ++ bm

/-- Evaluates the clusterer at a closed bucket (R291). -/
def cohStep (b : Bucket) (s : State) : List (List Byte) × State :=
  let c := s.wams.coh
  if ¬ c.v ∨ b.key % c.cdiv ≠ 0 then ([], s) else
  let ok := c.mems.filterMap (fun m => (feedOf b m.2).map (fun v => (m.1, v % 2 ^ 32)))
  let pow := (fPack 0 false 1 (2 ^ c.ash)).1
  let fs := ok.foldl (fun l p => ainsert p.1 (match alookup p.1 l with
    | some f => f32Add f (f32Mul (f32Sub p.2 f) pow)
    | none => p.2) l) c.fs
  let sorted := (ok.map (fun p => (p.1, (alookup p.1 fs).getD 0))).foldl (fun a p => insFs p a) []
  let cl := (splitGap (fVal (fDecode c.gap)) sorted).filter (fun g => decide (c.minsz ≤ g.length))
  let cs := labelAll c.reported [] ((cl.foldl (fun a g => insSize g a) []).take 64)
  let cand := labelArray c.mems cs
  let cnt := if cand = c.prevcand then c.cnt + 1 else 1
  let old := c.reported
  let change := decide (c.persist ≤ cnt) && cand != old
  let c := { c with fs := fs, prevcand := cand, cnt := cnt, reported := if change then cand else old,
                    seq := (c.seq + 2) % 2 ^ 32 }
  let s := (s.modWams (fun w => { w with coh := c })).engWrite 13 0xFF (s.fget WAMS_RESBASE_ADDR * 4096 + 0x40000)
    (cohBlock c (keyTag s b.key))
  if change && c.alm then
    let n := (labelsOf cand).length
    let o := (labelsOf old).length
    let means := (labelsOf cand).map (fun l => meanF32 (islandFs c l))
    let lo := means.foldl (fun a m => if f32Lt m a then m else a) (means.headD 0)
    let hi := means.foldl (fun a m => if f32Gt m a then m else a) (means.headD 0)
    let moved := (cand.filter (fun p => labelOf old p.1 != p.2)).length
    ([almRec 2 (if o < n then 1 else if n < o then 0 else 2) 0 (fOfInt 0 n).1 lo hi moved], s)
  else ([], s)

/-- The detector banks run on a closed bucket: their records in the order modal, coherency, monitors (R296). -/
def detectors (b : Bucket) (s : State) : List (List Byte) × State :=
  let (r1, s) := s.wams.modals.foldl (fun (a : List (List Byte) × State) m =>
    let (r, s) := modalStep m.1 m.2 b a.2
    (a.1 ++ r, s)) ([], s)
  let (r2, s) := cohStep b s
  let (r3, s) := s.wams.monitors.foldl (fun (a : List (List Byte) × State) m =>
    let (r, s) := monitorStep m.1 m.2 b a.2
    (a.1 ++ r, s)) ([], s)
  (r1 ++ r2 ++ r3, s)

/-! ### Output streams (R282, R283) -/

/-- Ones' complement sum of an IPv4 header's halfwords, complemented. -/
def ipChecksum (h : List Byte) : Nat :=
  let t := ((List.range (h.length / 2)).map (fun i => beAt h (2 * i) 2)).sum
  let f := t % 65536 + t / 65536
  65535 - (f % 65536 + f / 65536)

/-- Completes a header template for a UDP payload (R283). -/
def fillTemplate (tpl : List Byte) (seq : Nat) (pay : List Byte) : List Byte :=
  let len := leAt tpl 63 1
  let ip := len - 28
  let h := tpl.take len
  let h := putAt h (ip + 2) (beBytes 2 (28 + pay.length))
  let h := putAt h (ip + 4) (beBytes 2 seq)
  let h := putAt h (ip + 10) (zeroBytes 2)
  let h := putAt h (ip + 10) (beBytes 2 (ipChecksum (sliceOf h ip 20)))
  putAt h (ip + 24) (beBytes 2 (8 + pay.length) ++ zeroBytes 2) ++ pay

/-- Sends a frame of the concentrator through I0 as VMID 0xFF (R283, R296). -/
def wamsSend (b : List Byte) (ports tc : Nat) (s : State) : State :=
  if s.domOn 7 then sendFromI0 { rxNetFrame s 13 b 0 with dest := ports, q := tc } s else s

/-- FRACSEC of a tag, in µs: exact, or one of the two whole numbers around it. -/
def fracSec (k fs : Nat) : Nat :=
  let n := k % fs * 1000000
  if n % fs = 0 then n / fs else n / fs + Config.openFn Site.fracRound [k % fs, fs] % 2

/-- A stored value of a slot. -/
def storedVal (n sig : Nat) (s : State) : (Nat × Nat) × State :=
  let (b, s) := s.engRead 13 0xFF (slotAddr s n + 0x40000 + 8 * sig) 8
  ((leAt b 0 4, leAt b 4 4), s)

/-- The bytes of one block of an output frame. -/
def outBlock (n : Nat) (polar : Bool) (r : WRef) (s : State) : List Byte × State :=
  let (w, s) := s.engRead 13 0xFF (slotAddr s n + 0x10000 + 4 * r.bstat) 4
  let stat := if bitOf (leAt w 0 4) 24 then leAt w 0 2 else 0x8000
  let get := fun (f : Nat × Nat → List Byte) (a : List Byte × State) (i : Nat) =>
    let (v, s) := storedVal n (r.sig + i) a.2
    (a.1 ++ f v, s)
  let absent := fun (v : Nat × Nat) => v.1 == 0x7FC00000 && v.2 == 0x7FC00000
  let ph := fun (v : Nat × Nat) =>
    if polar && !absent v then
      beBytes 4 (Config.openFn Site.magAngle [0, v.1, v.2] % 2 ^ 32) ++ beBytes 4 (Config.openFn Site.magAngle [1, v.1, v.2] % 2 ^ 32)
    else beBytes 4 v.1 ++ beBytes 4 v.2
  let a := (List.range r.ph).foldl (get ph) (beBytes 2 stat, s)
  let a := get (fun v => beBytes 4 (if absent v then v.1 else f32Sub v.1 r.fnom)) a r.ph
  let a := get (fun v => beBytes 4 v.1) a (r.ph + 1)
  let a := (List.range r.an).foldl (fun a i => get (fun v => beBytes 4 v.1) a (r.ph + 2 + i)) a
  (List.range r.dg).foldl (fun a i => get (fun v => beBytes 2 (v.1 % 65536)) a (r.ph + 2 + r.an + i)) a

/-- Bytes of an output's data frame. -/
def outLen (refs : List WRef) : Nat := 16 + (refs.map (fun r => 2 + 8 * r.ph + 8 + 4 * r.an + 2 * r.dg)).sum

/-- Sends an output's data frame for a closed bucket (R283). -/
def outputStep (o : WOutput) (b : Bucket) (seq : Nat) (s : State) : State :=
  if ¬ o.v ∨ o.fs = 0 ∨ b.key % (gridFs s / o.fs) ≠ 0 then s else
  let fs := gridFs s
  let soc := (b.key / fs + 2 ^ 32 - s.fget WAMS_UTCOFS_S) % 2 ^ 32
  let (bs, s) := o.refs.foldl (fun (a : List Byte × State) r =>
    let (x, s) := outBlock (b.key % 128) o.polar r a.2
    (a.1 ++ x, s)) ([], s)
  let f := [0xAA, 0x02] ++ beBytes 2 (outLen o.refs) ++ beBytes 2 o.idcode ++ beBytes 4 soc ++ beBytes 4 (fracSec b.key fs) ++ bs
  wamsSend (fillTemplate o.tpl seq (f ++ beBytes 2 (crcCcitt f))) o.ports o.tc s

/-! ### Kernel queue (R298, R299) -/

/-- A live ticket: queued, running or registered. -/
def Ticket.live (t : Ticket) : Bool := decide (t.st < 2)

/-- Whether a ticket is older than the 64 most recent ones before ticket `next` (R298). -/
def ticketOld (next id : Nat) : Bool := decide (64 < (next + 2 ^ 31 - id % 2 ^ 31) % 2 ^ 31)

/-- A ticket by number. -/
def ticketOf (w : Wams) (id : Nat) : Option Ticket := w.tickets.find? (fun t => t.id == id)

/-- Writes a ticket. -/
def setTicket (t : Ticket) (s : State) : State :=
  s.modWams (fun w => { w with tickets := w.tickets.map (fun u => if u.id = t.id then t else u) })

/-- The analytic lane that runs a ticket. -/
def laneOfTicket (s : State) (id : Nat) : Option (Fin 8) :=
  (List.finRange 8).find? (fun a => (s.lane ⟨44 + a.val, by omega⟩).ticket == some id)

/-- Kernels due at a close (R299): one that still waits or runs skips it. -/
def kernelDue (slot seq : Nat) (t : Ticket) (s : State) : State :=
  if ¬ t.live ∨ ¬ t.atCloses then s else
  let n := t.closes + 1
  if n % t.bdiv ≠ 0 then setTicket { t with closes := n } s
  else if t.due.isSome ∨ (laneOfTicket s t.id).isSome then wamsCount 13 (setTicket { t with closes := n } s)
  else (setTicket { t with closes := n, due := some (slot, seq) } s).modWams (fun w => { w with kq := w.kq ++ [t.id] })

/-- Posts a kernel descriptor (R298): the value alk.post writes. -/
def kernelPost (d : List Byte) (vmid asid st1 st2 : Nat) (s : State) : Nat × State :=
  let w := s.wams
  if 32 ≤ (w.tickets.filter (·.live)).length then (0xFFFFFFFF, s) else
  let id := w.nextTicket
  let mode := leAt d 0xC 1
  let bad := decide (1 < mode) || leAt d 0xD 1 / 2 != 0 || !allZero (sliceOf d 0x18 40) ||
    decide (leAt d 0x14 4 < 1 ∨ 1000000 < leAt d 0x14 4) || (mode == 1 && leAt d 0xE 2 == 0)
  let t : Ticket :=
    { id := id, st := if bad then 3 else 0, pc := leAt d 0 4, sp := leAt d 4 4, arg := leAt d 8 4, atCloses := mode == 1,
      alm := bitOf (leAt d 0xD 1) 0, bdiv := leAt d 0xE 2, count := leAt d 0x10 4, maxt := leAt d 0x14 4, vmid := vmid,
      asid := asid, st1root := st1, st2root := st2, closes := 0, done := 0,
      due := if mode = 0 ∧ ¬ bad then some (0, 0) else none, cancel := false }
  let s := s.modWams (fun w => { w with tickets := w.tickets.filter (fun u => u.live || !ticketOld (id + 1) u.id) ++ [t],
                                        nextTicket := (id + 1) % 2 ^ 31,
                                        kq := if mode = 0 ∧ ¬ bad then w.kq ++ [id] else w.kq })
  if bad then
    (id, ((((s.fset WAMS_KFLT_VALID 1).fset WAMS_KFLT_KIND 1).fset WAMS_KFLT_LANE 0).fset WAMS_KFLT_CAUSE 0
      |>.fset WAMS_KFTICK_T id).fset WAMS_STAT_KFLT 1)
  else (id, s)

/-- The state of a ticket for alk.poll (R134, R298). -/
def kernelPoll (s : State) (id : Nat) : Nat :=
  match ticketOf s.wams id with
  | some t => if ticketOld s.wams.nextTicket id then 4 else if t.st < 2 ∧ (laneOfTicket s id).isSome then 1 else t.st
  | none => 4

/-- A ticket's state after an activation or a cancellation: done, or waiting for its next due close. -/
def ticketAfter (t : Ticket) : Ticket :=
  if t.cancel ∨ ¬ t.atCloses ∨ (t.count ≠ 0 ∧ t.count ≤ t.done) then { t with st := 2, due := none } else { t with st := 0 }

/-- The activation on analytic lane `a` ends at yield with the alarm record it queues: SRC is 4 and INDEX the lane (R295,
R299). -/
def kernelEnd (a : Fin 8) (rec : Option (List Byte)) (s : State) : State :=
  let l : Fin 52 := ⟨44 + a.val, by omega⟩
  match (s.lane l).ticket with
  | none => s
  | some id =>
    let s := s.modLane l (fun x => { x with ticket := none, cur := none, st := .idle })
    let vm := ((ticketOf s.wams id).map (·.vmid)).getD 0xFF
    let s := s.modWams (fun w => { w with krecs := w.krecs ++ (rec.map (fun r => (vm, [0x04] ++ sliceOf r 1 1 ++ leBytes 2 a ++ r.drop 4))).toList })
    match ticketOf s.wams id with
    | some t => setTicket (ticketAfter { t with done := t.done + 1 }) s
    | none => s

/-- The activation on lane `a` faults (R299): the ticket ends, the lane is reset, the fault is recorded. -/
def kernelFault (a : Fin 8) (kind cause : Nat) (s : State) : State :=
  let l : Fin 52 := ⟨44 + a.val, by omega⟩
  match (s.lane l).ticket with
  | none => s
  | some id =>
    let s := s.modLane l (fun _ => lane0 .idle)
    let s := match ticketOf s.wams id with
      | some t => setTicket { t with st := 3, due := none } s
      | none => s
    (((((s.fset WAMS_KFLT_VALID 1).fset WAMS_KFLT_KIND kind).fset WAMS_KFLT_LANE a).fset WAMS_KFLT_CAUSE cause).fset
      WAMS_KFTICK_T id).fset WAMS_STAT_KFLT 1

/-- A write of WAMS_KCANCEL (R299). -/
def kernelCancelOp (id : Nat) (s : State) : State :=
  match ticketOf s.wams id with
  | none => s
  | some t =>
    if ¬ t.live then s
    else
      let s := s.modWams (fun w => { w with kq := w.kq.filter (· != id) })
      if (laneOfTicket s id).isSome then setTicket { t with cancel := true } s
      else setTicket { t with st := 2, due := none } s

/-- The first queued ticket whose activation can start, with its due close. -/
def kernelHead (w : Wams) : Option (Ticket × (Nat × Nat)) :=
  w.kq.findSome? (fun id => match ticketOf w id with
    | some t => (match t.due with
      | some d => if t.live then some (t, d) else none
      | none => none)
    | none => none)

/-- KERNEL_ACTIVATION_START (R299): on a free analytic lane, first come first served. -/
def kernelStart (a : Fin 8) (s : State) : State :=
  let l : Fin 52 := ⟨44 + a.val, by omega⟩
  let x := s.lane l
  if ¬ s.domOn 8 ∨ x.st ≠ .idle ∨ x.gated ∨ x.halted ∨ x.ticket.isSome then s else
  match kernelHead s.wams with
  | none => s
  | some (t, d) =>
    let s := setTicket { t with st := 1, due := none } s
    let s := s.modWams (fun w => { w with kq := w.kq.filter (· != t.id) })
    let word := fun (n : Nat) => BitVec.ofNat 32 n
    let b := (bank0.setReg 30 (word t.sp)).setReg 1 (word t.arg)
    let b := if t.atCloses then (b.setReg 2 (word d.1)).setReg 3 (word d.2) else b
    let b := { b with pc := word t.pc, vmid := BitVec.ofNat 8 t.vmid,
                      status := { xoff := x.f.status.xoff, timed := false, mode := .t, exl := false, bet := false, ie := false } }
    s.modLane l (fun x => { x with st := .running, f := b, inG := false, ticket := some t.id, cur := some (t.vmid, none),
                                   k := { kregs0 with st1root := word t.st1root, asid := word t.asid, st2root := word t.st2root } })

/-! ### Buckets (R276 to R280) -/

/-- NEXP of a key (R278). -/
def nexpOf (s : State) (k : Nat) : Nat :=
  let fs := gridFs s
  let on := fun (r : Nat) => decide (0 < r) && k % (fs / r) == 0
  (s.wams.inputs.filter (fun p => p.2.v && p.2.exp && !p.2.cont && on p.2.fs)).length +
    (s.wams.locals_.filter (fun p => p.2.v && p.2.exp && on p.2.fs)).length

/-- A bitmap of `n` bytes. -/
def bitmapBytes (n : Nat) (l : List Nat) : List Byte := leBytes n (l.map (fun i => 2 ^ i)).sum

/-- The header of a slot (R276). -/
def slotHeader (tag seq state cause nexp narr nlate close : Nat) : List Byte :=
  tripleBytes tag ++ leBytes 4 seq ++ leBytes 1 state ++ leBytes 1 cause ++ leBytes 2 nexp ++ leBytes 2 narr ++
    leBytes 2 nlate ++ (if state = 2 then tripleBytes close else zeroBytes 12) ++ zeroBytes 28

/-- Writes the description of a store slot. -/
def setSlot (n : Nat) (x : WSlot) (s : State) : State := s.modWams (fun w => { w with slots := ainsert n x w.slots })

/-- Closes a bucket (R279): header and bitmaps, then outputs, detectors and kernels. CAUSE: 1 complete, 2 deadline,
3 forced. -/
def closeBucket (b : Bucket) (cause : Nat) (s : State) : State :=
  let n := b.key % 128
  let seq := (s.wams.seq + 1) % 2 ^ 32
  let tag := keyTag s b.key
  let close := s.now
  let s := s.engWrite 13 0xFF (slotAddr s n)
    (slotHeader tag seq 2 cause b.nexp b.narr 0 close ++ bitmapBytes 2048 b.ins ++ bitmapBytes 512 b.locs)
  let s := setSlot n ⟨b.key, true, 0⟩ s
  let s := s.modWams (fun w => { w with open_ := w.open_.filter (fun o => o.key != b.key), lastClosed := some b.key, seq := seq })
  let s := ((s.fset WAMS_LASTSEQ_SEQ seq).fset WAMS_LASTSLOT_CAUSE cause).fset WAMS_LASTSLOT_SLOT n
  let s := s.fset WAMS_STAT_CLOSED 1
  let s := if cause = 3 then wamsCount 10 (s.fset WAMS_STAT_FORCED 1) else s
  let s := s.each s.wams.outputs (fun o => outputStep o.2 b seq)
  let (recs, s) := detectors b s
  let old := s.wams.resets
  let s := s.modWams (fun w => { w with resets := [], pend := w.pend ++ [⟨tag, close, seq, old ++ recs, b.epoch⟩] })
  s.each s.wams.tickets (kernelDue n seq)

/-- The closing rule: the oldest bucket closes at its deadline, or when it is complete (R279). -/
def closeDue : Nat → State → State
  | 0, s => s
  | n + 1, s =>
    match s.wams.open_ with
    | [] => s
    | o :: _ =>
      if o.deadline ≤ s.now then closeDue n (closeBucket o 2 s)
      else if o.complete then closeDue n (closeBucket o 1 s)
      else s

/-- Inserts a bucket by key. -/
def insBucket (b : Bucket) : List Bucket → List Bucket
  | [] => [b]
  | c :: l => if b.key < c.key then b :: c :: l else c :: insBucket b l

/-- Opens the bucket of a key (R276, R279). -/
def openBucket (k : Nat) (s : State) : State :=
  let s := match s.wams.open_ with
    | o :: _ => if s.wams.open_.length = 64 then closeBucket o 3 s else s
    | [] => s
  let n := k % 128
  let s := match s.wams.open_.find? (fun o => o.key % 128 == n) with
    | some o => closeBucket o 3 s
    | none => s
  let nexp := nexpOf s k
  let s := s.engWrite 13 0xFF (slotAddr s n) (slotHeader (keyTag s k) 0 1 0 nexp 0 0 0 ++ zeroBytes (2048 + 512))
  let s := s.engWrite 13 0xFF (slotAddr s n + 0x10000) (zeroBytes 0x20000)
  let s := s.engWrite 13 0xFF (slotAddr s n + 0x40000)
    ((List.replicate (2 * 2 ^ s.fget WAMS_ASCFG_NSIG) nanBytes).flatten)
  let s := setSlot n ⟨k, false, 0⟩ s
  let dl := keyTag s k + usUnits (1000 * s.fget WAMS_WIN_MS)
  s.modWams (fun w => { w with open_ := insBucket ⟨k, nexp, 0, dl, false, [], [], [], w.epoch⟩ w.open_ })

/-- A late record (R280). -/
def lateRec (r : WRec) (s : State) : State :=
  let n := r.key % 128
  match alookup n s.wams.slots with
  | some x =>
    if s.fbit WAMS_CTL_LATEFILL ∧ x.closed ∧ x.key = r.key then
      let (_, s) := storeRec n true r s
      let nl := min (x.nlate + 1) 65535
      let s := s.engWrite 13 0xFF (slotAddr s n + 0x16) (leBytes 2 nl)
      wamsCount 8 (setSlot n { x with nlate := nl } s)
    else wamsCount 7 s
  | none => wamsCount 7 s

/-- Places a record (R279). -/
def placeRec (r : WRec) (s : State) : State :=
  let late := match s.wams.lastClosed with
    | some k => decide (r.key ≤ k)
    | none => false
  if late then lateRec r s else
  let s := if s.wams.open_.any (fun o => o.key == r.key) then s else openBucket r.key s
  match s.wams.open_.find? (fun o => o.key == r.key) with
    | none => s
    | some b =>
      if (if r.isLocal then b.locs else b.ins).contains r.src then wamsCount 9 s
      else
        let (fd, s) := storeRec (r.key % 128) false r s
        let narr := b.narr + b2n r.exp
        let b := { b with feeds := b.feeds ++ fd, narr := narr, complete := b.complete || decide (b.nexp ≤ narr),
                          ins := if r.isLocal then b.ins else r.src :: b.ins,
                          locs := if r.isLocal then r.src :: b.locs else b.locs }
        closeDue 65 (s.modWams (fun w => { w with open_ := w.open_.map (fun o => if o.key = b.key then b else o) }))

/-- Grid placement of a tag `num / den` seconds: its key, or the counter that discards it (R274). -/
def gridKey (s : State) (num den : Nat) : Nat ⊕ Nat :=
  let fs := gridFs s
  let k := (2 * num * fs + den) / (2 * den)
  let diff : Nat := ((num * fs : Nat) - (k * den : Nat) : Int).natAbs
  if s.fget WAMS_GRID_TOL * den * fs < diff * 1000000 then .inr 4
  else if (s.now + usUnits (1000 * s.fget WAMS_GRID_LEAD)) * den < num * secUnits then .inr 5
  else .inl k

/-! ### Ingest (R267 to R270) -/

/-- The blocks of an input's chain, at most 64 entries; none when the chain is longer. -/
def chainBlocks (t : List (Nat × WInput)) : Nat → Nat → Option (List WBlock)
  | 0, _ => none
  | n + 1, i =>
    match alookup i t with
    | none => some []
    | some e =>
      if ¬ e.v then some []
      else if e.next = 0xFFFF then some e.blks
      else (chainBlocks t n e.next).map (fun l => e.blks ++ l)

/-- The blocks of a data frame with their offsets after the header. -/
def splitBlocks (bs : List WBlock) (b : List Byte) : List (WBlock × List Byte) :=
  (bs.foldl (fun (a : List (WBlock × List Byte) × List Byte) k =>
    (a.1 ++ [(k, a.2.take (blockLen k))], a.2.drop (blockLen k))) ([], b)).1

/-- A C37.118.2 data frame of input `i` (R267). -/
def dataFrame (i : Nat) (ring : Bool) (b : List Byte) (s : State) : State :=
  match alookup i s.wams.inputs with
  | none => wamsCount 3 s
  | some e =>
    if ¬ e.v ∨ e.cont ∨ (ring ∧ ¬ e.feed) then wamsCount 3 s
    else if beAt b 4 2 ≠ e.idcode ∨ beAt b 2 2 ≠ e.fsize then wamsCount 1 s
    else match chainBlocks s.wams.inputs 64 i with
      | none => wamsCount 1 s
      | some bs =>
        if (bs.map blockLen).sum + 16 ≠ b.length then wamsCount 1 s
        else if ¬ s.fbit TB_STAT_VALID then wamsCount 6 s
        else
          let num := (beAt b 6 4 + s.fget WAMS_UTCOFS_S) * e.timebase + beAt b 11 3
          match gridKey s num e.timebase with
          | .inr c => wamsCount c s
          | .inl k =>
            let parts := splitBlocks bs (b.drop 14)
            let tq := beAt b 10 1
            let blks := parts.map (fun p =>
              let st := beAt p.2 0 2
              (p.1.bstat, st + tq * 65536, st / 8192 == 0, p.1.raw, blockVals p.1 (p.2.drop 2)))
            let chg := parts.any (fun p => bitOf (beAt p.2 0 2) 10)
            let f := WAMS_CFGCHG_BITS (i / 32)
            let s := if chg ∧ ¬ bitOf (s.fget f) (i % 32) then
                (s.fset f (putBit (s.fget f) (i % 32) true)).log' f false 3 0xFF [i]
              else s
            placeRec ⟨false, i, e.exp, k, blks⟩ (wamsCount 0 s)

/-- A ring of the block: 0 alarm, 1 feed, 2 configuration. -/
def ringSize (r : Nat) (s : State) : Nat := 16 * 2 ^ s.fget (WAMS_RCFG_SIZE r)

/-- A ring the module writes takes no entry: it is off or full. -/
def ringFull (r : Nat) (s : State) : Bool :=
  !s.fbit (WAMS_RCFG_EN r) || (s.fget (WAMS_RHEAD_IDX r) + 1) % ringSize r s == s.fget (WAMS_RTAIL_IDX r) % ringSize r s

/-- Writes an entry of `size` bytes at HEAD. -/
def ringPut (r size : Nat) (b : List Byte) (s : State) : State :=
  let h := s.fget (WAMS_RHEAD_IDX r) % ringSize r s
  (s.engWrite 13 0xFF (s.fget (WAMS_RBASE_ADDR r) * 4096 + size * h) b).fset (WAMS_RHEAD_IDX r) ((h + 1) % ringSize r s)

/-- A frame of another type goes to the configuration ring, in slots of 2 KiB (R268, assumption 23). -/
def configFrame (f : NetFrame) (s : State) : State :=
  if ringFull 2 s then wamsCount 14 s
  else
    let n := min f.bytes.length 2016
    wamsCount 12 (ringPut 2 2048 (frameHeader f n f.bytes.length (flagsOf f false false (decide (2016 < f.bytes.length))) ++
      f.bytes.take n) s)

/-- The checks every frame passes first: 1 DECERR, 2 CHKERR, 0 passed (R267). -/
def c37Check (b : List Byte) : Nat :=
  if b.length < 4 ∨ leAt b 0 1 ≠ 0xAA ∨ (leAt b 1 1 % 16 ≠ 1 ∧ leAt b 1 1 % 16 ≠ 2) then 1
  else if beAt b 2 2 ≠ b.length ∨ b.length < 16 then 1
  else if beAt b (b.length - 2) 2 ≠ crcCcitt (b.take (b.length - 2)) then 2
  else 0

/-- C37_FRAME_INGEST: the oldest KIND 3 frame of I1 (R264, R267, R268, R302). -/
def execC37FrameIngest (s : State) : Result :=
  .next (
    match takeI1 3 s with
    | none => s
    | some (f, s) =>
      if ¬ s.domOn 8 then s.modWams (fun w => { w with offDrop := w.offDrop + 1 })
      else if ¬ s.fbit WAMS_CTL_EN then s
      else match udpAt f.bytes with
        | none => wamsCount 1 s
        | some ihl =>
          let b := udpPay f.bytes ihl
          match c37Check b with
          | 0 => if bitsOf (leAt b 1 1) 4 3 ≠ 0 then configFrame f s else dataFrame (f.target % 16384) false b s
          | c => wamsCount c s)

/-- FEED_RING_SLOT (R269). -/
def execFeedRingSlot (s : State) : Result :=
  .next (
    if ¬ s.domOn 8 ∨ ¬ s.fbit (WAMS_RCFG_EN 1) ∨ s.fget (WAMS_RHEAD_IDX 1) = s.fget (WAMS_RTAIL_IDX 1) then s
    else
      let h := s.fget (WAMS_RHEAD_IDX 1) % ringSize 1 s
      let (d, s) := s.engRead 13 0xFF (s.fget (WAMS_RBASE_ADDR 1) * 4096 + 2048 * h) 2048
      let s := s.fset (WAMS_RHEAD_IDX 1) ((h + 1) % ringSize 1 s)
      let len := leAt d 0xE 2
      if ¬ s.fbit WAMS_CTL_EN then s
      else if 2016 < len ∨ ¬ allZero (sliceOf d 0x10 16) then wamsCount 1 s
      else
        let b := sliceOf d 32 len
        match c37Check b with
        | 0 => if bitsOf (leAt b 1 1) 4 3 ≠ 0 then wamsCount 1 s else dataFrame (leAt d 0xC 2) true b s
        | c => wamsCount c s)

/-- LOCAL_RECORD_INGEST (R270). -/
def execLocalRecordIngest (s : State) : Result :=
  .next (
    match s.sfe.conc with
    | [] => s
    | r :: l =>
      let s := s.modSfe (fun t => { t with conc := l })
      if ¬ s.domOn 8 then s.modWams (fun w => { w with offDrop := w.offDrop + 1 })
      else if ¬ s.fbit WAMS_CTL_EN then s
      else match alookup r.srcNo s.wams.locals_ with
        | none => wamsCount 3 s
        | some e =>
          if ¬ e.v then wamsCount 3 s
          else match gridKey s r.time secUnits with
            | .inr c => wamsCount c s
            | .inl k =>
              let vals : List RawVal := [⟨e.sig, 1, true, false, nth r.words 0, nth r.words 1⟩,
                ⟨e.sig + 1, 2, true, false, nth r.words 2, 0⟩, ⟨e.sig + 2, 3, true, false, nth r.words 3, 0⟩]
              placeRec ⟨true, r.srcNo, e.exp, k, [(e.bstat, r.flags, r.flags &&& 0xA1 == 0, e.raw, vals)]⟩ s)

/-- BUCKET_DEADLINE (R279). -/
def execBucketDeadline (s : State) : Result :=
  .next (if s.domOn 8 ∧ s.fbit WAMS_CTL_EN then closeDue 65 s else s)

/-! ### Alarms (R294 to R296) -/

/-- One record to the alarm ring and to the event log. -/
def alarmRing (p : PendClose) (r : List Byte) (s : State) : State :=
  let s := if ringFull 0 s then (wamsCount 14 s).fset WAMS_STAT_ALMOVF 1
    else ringPut 0 64 (tripleBytes p.tag ++ tripleBytes p.close ++ leBytes 4 p.seq ++ zeroBytes 4 ++ r) s
  if leAt r 1 1 < 2 then s.log' WAMS_ALMSEQ_SEQ false 3 0xFF [leAt r 0 4, leAt r 4 4, leAt r 8 4, leAt r 0xC 4] else s

/-- The alarm message of a closed bucket (R294). -/
def alarmMsg (s : State) (p : PendClose) (recs : List (List Byte)) : List Byte :=
  leBytes 1 1 ++ leBytes 1 (min recs.length 16) ++ leBytes 2 (s.wams.almSeq + 1) ++ leBytes 2 (s.fget WAMS_ALMCTL_SRCID) ++
    leBytes 2 (b2n (decide (16 < recs.length))) ++ tripleBytes p.tag ++ tripleBytes p.close ++ (recs.take 16).flatten

/-- ALARM_FRAME (R296): the oldest closed bucket whose detectors have finished. -/
def execAlarmFrame (s : State) : Result :=
  .next (
    match s.wams.pend with
    | [] => s
    | p :: l =>
      let recs := p.recs ++ s.wams.krecs.map (·.2)
      let s := s.modWams (fun w => { w with pend := l, krecs := [] })
      let s := s.each recs (alarmRing p)
      let hb := s.fget WAMS_ALMCTL_HB
      if s.fbit WAMS_CTL_ALMEN ∧ (recs ≠ [] ∨ (hb ≠ 0 ∧ p.seq % hb = 0)) then
        let (t, s) := s.engRead 13 0xFF (s.fget WAMS_ALMTPL_ADDR * 64) 64
        let msg := alarmMsg s p recs
        let s := s.modWams (fun w => { w with almSeq := (w.almSeq + 1) % 65536 })
        let s := s.fset WAMS_ALMSEQ_SEQ s.wams.almSeq
        let s := s.when (decide (16 < recs.length)) (fun s => s.fset WAMS_STAT_ALMOVF 1)
        wamsSend (fillTemplate t p.seq msg) (s.fget WAMS_ALMPORTS_PORTS) (s.fget WAMS_ALMCTL_TC) s
      else s)

/-! ### Tables (R273, R303) -/

/-- A reporting rate of R253 that divides the grid rate. -/
def fsOk (s : State) (fs : Nat) : Bool := decide (0 < fs) && gridFs s % fs == 0

/-- One staged block descriptor. -/
def parseBlock (b : List Byte) : WBlock :=
  ⟨leAt b 0 1 % 16, bitOf (leAt b 0 1) 4, leAt b 1 1, leAt b 2 1, leAt b 3 1, leAt b 4 4, leAt b 8 2⟩

/-- The last signal of a block. -/
def lastSig (k : WBlock) : Nat := k.sig + k.ph + 1 + k.an + k.dg

/-- Staged input entry `i` (R265, R266). -/
def wInputUpdate (s : State) (i : Nat) (b : List Byte) : Nat × Wams :=
  let w := s.wams
  let nb := leAt b 3 1
  let raws := (List.range (min nb 4)).map (fun k => sliceOf b (0x10 + 12 * k) 12)
  let ctl := leAt b 2 1
  let e : WInput :=
    { gen := leAt b 0 2, v := bitOf ctl 7, exp := bitOf ctl 6, cont := bitOf ctl 5, feed := bitOf ctl 4, idcode := leAt b 4 2,
      next := leAt b 6 2, fsize := leAt b 8 2, fs := leAt b 0xA 1, timebase := leAt b 0xC 4, blks := raws.map parseBlock }
  let bad := ctl % 16 != 0 || !allZero (sliceOf b 0xB 1) || decide (2 ^ 24 ≤ e.timebase) ||
    (e.v && (decide (nb < 1 ∨ 4 < nb) || (!e.cont && (e.timebase == 0 || !phasorRates.contains e.fs)) ||
      (decide (e.next ≠ 0xFFFF ∧ 16383 < e.next)) ||
      raws.any (fun r => leAt r 0 1 / 32 != 0 || decide (2 ^ 20 ≤ leAt r 4 4) || decide (32767 < leAt r 8 2) ||
        leAt r 10 2 != 0)))
  let old := ((alookup i w.inputs).map (·.gen)).getD 0
  let t := ainsert i e w.inputs
  (firstErr [(1, bad), (2, !genNext old e.gen), (3, decide (16383 < i)),
     (4, e.v && (e.blks.any (fun k => decide (2 ^ s.fget WAMS_ASCFG_NSIG ≤ lastSig k)) || (chainBlocks t 64 i).isNone)),
     (5, e.v && !e.cont && !fsOk s e.fs)], { w with inputs := t })

/-- Staged local source entry `i` (R270). -/
def wLocalUpdate (s : State) (i : Nat) (b : List Byte) : Nat × Wams :=
  let w := s.wams
  let ctl := leAt b 2 1
  let e : WLocal := ⟨leAt b 0 2, bitOf ctl 7, bitOf ctl 6, bitOf ctl 4, leAt b 3 1, leAt b 4 4, leAt b 8 2⟩
  let bad := ctl % 16 != 0 || bitOf ctl 5 || !allZero (sliceOf b 0xA 6) || decide (2 ^ 20 ≤ e.sig) ||
    decide (32767 < e.bstat) || (e.v && !phasorRates.contains e.fs)
  let old := ((alookup i w.locals_).map (·.gen)).getD 0
  (firstErr [(1, bad), (2, !genNext old e.gen), (3, decide (4095 < i)),
     (4, e.v && decide (2 ^ s.fget WAMS_ASCFG_NSIG ≤ e.sig + 2)), (5, e.v && !fsOk s e.fs)],
   { w with locals_ := ainsert i e w.locals_ })

/-- Staged signal entry `i` (R271, R272, R284). `old` is the entry it replaces. -/
def wSigErr (s : State) (i : Nat) (b old : List Byte) : Nat :=
  let locked := s.wams.sigs.filter (fun p => sgLock p.2 && p.1 != i)
  let ctl := leAt b 2 1
  let bad := bitOf ctl 6 || bitOf ctl 4 || !allZero (sliceOf b 6 2) || bitOf (leAt b 0x10 2) 14 || !allZero (sliceOf b 0x12 14) ||
    (sgV b && (decide (sgType b < 1 ∨ 5 < sgType b) || decide (4 < sgFsel b) || (sgFv b && decide (24575 < sgFeed b)) ||
      (sgFsel b == 1 && (sgType b == 1 || sgType b == 5)) || (decide (2 ≤ sgFsel b) && sgType b != 1)))
  firstErr [(1, bad), (2, !genNext (sgGen old) (sgGen b)), (3, decide (2 ^ 20 ≤ i)),
    (4, decide (2 ^ s.fget WAMS_ASCFG_NSIG ≤ i)),
    (6, (sgV b && sgFv b && !sgLock b) || (sgV b && sgLock b && decide (32768 ≤ locked.length))),
    (9, sgV b && sgFv b && locked.any (fun p => sgV p.2 && sgFv p.2 && sgFeed p.2 == sgFeed b))]

/-- Staged output entry `i` with its list (R282). -/
def wOutputUpdate (s : State) (i : Nat) (b list : List Byte) : Nat × Wams :=
  let w := s.wams
  let ctl := leAt b 2 1
  let n := leAt b 6 2
  let refs := (List.range (min n 4096)).map (fun k =>
    let r := sliceOf list (64 + 16 * k) 16
    WRef.mk (leAt r 0 4) (leAt r 4 2) (leAt r 6 1) (leAt r 7 1) (leAt r 8 1) (leAt r 0xC 4))
  let e : WOutput :=
    { gen := leAt b 0 2, v := bitOf ctl 7, polar := bitOf ctl 6, fs := leAt b 3 1, idcode := leAt b 4 2, ports := leAt b 0xC 2,
      tc := leAt b 0xE 1, tpl := list.take 64, refs := refs }
  let tl := leAt list 63 1
  let bad := ctl % 64 != 0 || !allZero (sliceOf b 0xF 49) || decide (2 ^ 13 ≤ e.ports) || decide (6 < e.tc) ||
    (e.v && (decide (n < 1 ∨ 4096 < n) || decide (tl ≠ 42 ∧ tl ≠ 46) || absentPorts s e.ports))
  let old := ((alookup i w.outputs).map (·.gen)).getD 0
  (firstErr [(1, bad), (2, !genNext old e.gen), (3, decide (63 < i)),
     (4, e.v && refs.any (fun r => decide (2 ^ s.fget WAMS_ASCFG_NSIG ≤ r.sig + r.ph + 1 + r.an + r.dg))),
     (5, e.v && !fsOk s e.fs), (8, e.v && decide (9170 < tl + outLen refs))],
   { w with outputs := ainsert i e w.outputs })

/-- A group's load and history (R288). -/
def modalLoad (m : Modal) : Nat := if m.v then (m.nbin + 1 + m.mems.length) * m.nw else 0
def modalHist (m : Modal) : Nat := if m.v then (m.mems.length + 1) * m.nw else 0

/-- A detector's history cleared. -/
def modalClear (m : Modal) : Modal :=
  { m with hist := [], last := m.mems.map (fun _ => 0), lastRaw := m.mems.map (fun _ => 0), seen := m.mems.map (fun _ => false),
           count := 0, per := ⟨0, false⟩ }
def monitorClear (m : Monitor) : Monitor := { m with per := ⟨0, false⟩, prev := none }
def cohClear (c : Coherency) : Coherency :=
  { c with fs := [], reported := c.mems.map (fun m => (m.1, 0xFF)), prevcand := [], cnt := 0 }

/-- The edge a reset emits when the alarm was active (R285). -/
def modalEdge (g : Nat) (m : Modal) : List (List Byte) :=
  if m.v ∧ m.alm ∧ m.per.active then [almRec 1 3 g m.res.1 m.res.2.1 m.res.2.2.1 m.res.2.2.2] else []
def monitorEdge (n : Nat) (m : Monitor) : List (List Byte) :=
  if m.v ∧ m.alm ∧ m.per.active then [almRec 3 3 n m.val m.hi m.lo 0] else []
def cohEdge (c : Coherency) : List (List Byte) :=
  if c.v ∧ c.alm ∧ 1 < (labelsOf c.reported).length then
    let means := (labelsOf c.reported).map (fun l => meanF32 (islandFs c l))
    [almRec 2 3 0 (fOfInt 0 (labelsOf c.reported).length).1
      (means.foldl (fun a m => if f32Lt m a then m else a) (means.headD 0))
      (means.foldl (fun a m => if f32Gt m a then m else a) (means.headD 0)) 0]
  else []

/-- Staged modal group `g` (R286, R288). -/
def wModalUpdate (s : State) (g : Nat) (b : List Byte) : Nat × Wams :=
  let w := s.wams
  let ctl := leAt b 2 1
  let nm := leAt b 3 1
  let e : Modal := modalClear
    { gen := leAt b 0 2, v := bitOf ctl 7, alm := bitOf ctl 6, dec := leAt b 4 1, nbin := leAt b 5 1, nw := leAt b 6 2,
      evdiv := leAt b 8 2, persist := leAt b 0xA 1, flo := leAt b 0xC 4, fhi := leAt b 0x10 4, zmin := leAt b 0x14 4,
      amin := leAt b 0x18 4, mems := (List.range nm).map (fun k =>
        let x := leAt b (0x40 + 4 * k) 4
        (x % 32768, bitOf x 15, x / 65536)),
      hist := [], last := [], lastRaw := [], seen := [], count := 0, per := ⟨0, false⟩, res := (0, 0, 0, 0), seq := 0 }
  let half := (fDiv 0 (fOfInt 0 (gridFs s)).1 (fOfInt 0 (2 * e.dec)).1).1
  let bad := ctl % 64 != 0 || !allZero (sliceOf b 0xB 1) || !allZero (sliceOf b 0x1C 36) ||
    (e.v && (decide (nm < 1 ∨ 64 < nm) || decide (e.dec < 1 ∨ 240 < e.dec) || decide (e.nbin < 8 ∨ 32 < e.nbin) ||
      e.nw % 32 != 0 || decide (e.nw < 64 ∨ 1024 < e.nw) || decide (e.evdiv < 1 ∨ e.nw < e.evdiv) || e.persist == 0 ||
      !f32Gt e.flo 0 || !f32Lt e.flo e.fhi || !f32Lt e.fhi half || e.mems.any (fun m => decide (24575 < m.1))))
  let old := alookup g w.modals
  let t := ainsert g e w.modals
  (firstErr [(1, bad), (2, !genNext ((old.map (·.gen)).getD 0) e.gen), (3, decide (255 < g)),
     (7, decide (8388608 < (t.map (fun p => modalLoad p.2)).sum) || decide (2097152 < (t.map (fun p => modalHist p.2)).sum))],
   { w with modals := t, resets := w.resets ++ (match old with
       | some o => modalEdge g o
       | none => []) })

/-- Staged coherency entry: member block 0 to 255 or the configuration, 256 (R290). -/
def wCohUpdate (i : Nat) (b : List Byte) (w : Wams) : Nat × Wams :=
  let c := w.coh
  if i < 256 then
    let ws := (List.range 16).map (fun k => (16 * i + k, leAt b (4 * k) 4))
    let ms := c.mems.filter (fun m => m.1 / 16 != i)
    let add := ws.filter (fun p => bitOf p.2 15)
    (firstErr [(1, ws.any (fun p => decide (65535 < p.2) || (bitOf p.2 15 && decide (24575 < p.2 % 32768))))],
     { w with coh := cohClear { c with mems := add.foldl (fun l p => ainsert p.1 (p.2 % 32768) l) ms },
              resets := w.resets ++ cohEdge c })
  else
    let ctl := leAt b 2 1
    let e := cohClear { c with gen := leAt b 0 2, v := bitOf ctl 7, alm := bitOf ctl 6, cdiv := leAt b 3 1, ash := leAt b 4 1,
                               minsz := leAt b 5 1, persist := leAt b 6 1, gap := leAt b 8 4 }
    let bad := ctl % 64 != 0 || !allZero (sliceOf b 7 1) || !allZero (sliceOf b 0xC 52) ||
      (e.v && (decide (e.cdiv < 1 ∨ 240 < e.cdiv) || decide (15 < e.ash) || e.minsz == 0 || !f32Gt e.gap 0))
    (firstErr [(1, bad), (2, !genNext c.gen e.gen), (3, decide (256 < i))], { w with coh := e, resets := w.resets ++ cohEdge c })

/-- Staged monitor `n` (R293). -/
def wMonitorUpdate (w : Wams) (n : Nat) (b : List Byte) : Nat × Wams :=
  let ctl := leAt b 2 1
  let e : Monitor :=
    { gen := leAt b 0 2, v := bitOf ctl 7, alm := bitOf ctl 6, kind := ctl % 4, div := leAt b 3 1, fa := leAt b 4 2,
      fb := leAt b 6 2, persist := leAt b 8 1, hi := leAt b 0xC 4, lo := leAt b 0x10 4, per := ⟨0, false⟩, prev := none,
      val := 0, seq := 0 }
  let bad := ctl / 4 % 16 != 0 || !allZero (sliceOf b 9 3) || !allZero (sliceOf b 0x14 12) ||
    (e.v && (e.div == 0 || e.persist == 0 || decide (24575 < e.fa) || decide (24575 < e.fb) ||
      (decide (2 ≤ e.kind) && e.fb != 0) || f32Gt e.lo e.hi))
  let old := alookup n w.monitors
  (firstErr [(1, bad), (2, !genNext ((old.map (·.gen)).getD 0) e.gen), (3, decide (1023 < n))],
   { w with monitors := ainsert n e w.monitors, resets := w.resets ++ (match old with
       | some o => monitorEdge n o
       | none => []) })

/-- UPDATE of a table (R273). -/
def wamsUpdateOp (table i : Nat) (s : State) : State :=
  let a := s.fget WAMS_STSRC_ADDR * 64
  let (b, s) := s.engRead 13 0xFF a (if table = 4 then 320 else if table = 1 then 16 else if table = 2 ∨ table = 6 then 32 else 64)
  let fin := fun (err : Nat) (s : State) => (s.fset WAMS_CMDSTAT_ERR err).fset WAMS_CMDSTAT_BUSY 1
  let put := fun (r : Nat × Wams) (s : State) =>
    fin r.1 (if r.1 = 0 then s.modWams (fun w => { r.2 with epoch := w.epoch + 1 }) else s)
  if table = 0 then put (wInputUpdate s i b) s
  else if table = 1 then put (wLocalUpdate s i b) s
  else if table = 2 then
    let (old, s) := if i < 2 ^ 20 then sigEntry i s else ([], s)
    let err := wSigErr s i b old
    if err ≠ 0 then fin err s
    else
      let s := s.engWrite 13 0xFF (sigAddr s i) b
      let s := s.modWams (fun w => { w with sigs := (i, b) :: sigTrim (w.sigs.filter (fun p => p.1 != i)),
                                            sigmis := w.sigmis.filter (· != i), epoch := w.epoch + 1 })
      fin 0 s
  else if table = 3 then
    let (l, s) := s.engRead 13 0xFF (leAt b 8 4 * 64) (64 + 16 * min (leAt b 6 2) 4096)
    put (wOutputUpdate s i b l) s
  else if table = 4 then put (wModalUpdate s i b) s
  else if table = 5 then put (wCohUpdate i b s.wams) s
  else put (wMonitorUpdate s.wams i b) s

/-- RESET of a detector (R285). -/
def wamsResetOp (table i : Nat) (s : State) : State :=
  let w := s.wams
  let fin := fun (err : Nat) (s : State) => (s.fset WAMS_CMDSTAT_ERR err).fset WAMS_CMDSTAT_BUSY 1
  if table = 4 then
    if 255 < i then fin 3 s
    else match alookup i w.modals with
      | some m => fin 0 (s.modWams (fun w => { w with modals := ainsert i (modalClear m) w.modals, resets := w.resets ++ modalEdge i m }))
      | none => fin 0 s
  else if table = 5 then
    if 256 < i then fin 3 s
    else fin 0 (s.modWams (fun w => { w with coh := cohClear w.coh, resets := w.resets ++ cohEdge w.coh }))
  else if 1023 < i then fin 3 s
  else match alookup i w.monitors with
    | some m => fin 0 (s.modWams (fun w => { w with monitors := ainsert i (monitorClear m) w.monitors, resets := w.resets ++ monitorEdge i m }))
    | none => fin 0 s

/-- A write of WAMS_CMD (R303). RESET of a table other than 4 to 6 is refused. -/
def wamsCmdOp (v : Nat) (s : State) : Rsp × State :=
  let op := bitsOf v 28 3
  let table := bitsOf v 24 3
  let i := bitsOf v 0 20
  if s.fbit WAMS_CMDSTAT_BUSY ∨ op = 0 ∨ 3 < op ∨ table = 7 ∨ (op = 3 ∧ (table < 4 ∨ 6 < table)) then (.denied, s)
  else if op = 1 then (.ok, wamsUpdateOp table i s)
  else if op = 2 then
    (.ok, ((s.modWams (fun w => { w with sigs := w.sigs.filter (fun p => sgLock p.2) })).fset WAMS_CMDSTAT_ERR 0).fset
      WAMS_CMDSTAT_BUSY 1)
  else (.ok, wamsResetOp table i s)

/-- A write of WAMS_CTL (R275, R279). -/
def wamsCtlOp (v : Nat) (s : State) : Rsp × State :=
  let on := s.fbit WAMS_CTL_EN
  let en := bitOf v 0
  let fits := decide (((s.fget WAMS_WIN_MS + s.fget WAMS_GRID_LEAD) * gridFs s) / 1000 + 1 ≤ 64)
  if en && !on && !fits then (.denied, s)
  else
    let (r, s) := tableWrite regsWAMS 0xF0000D0000 v s
    if en && !on then (r, s.modWams (fun w => { w with lastClosed := none, seq := 0, almSeq := 0 }))
    else if !en && on then
      (r, s.modWams (fun w => { w with open_ := [], slots := w.slots.filter (fun p => p.2.closed) }))
    else (r, s)

/-- Reads of the WAMS block. -/
def wamsRead (off : Nat) (s : State) : Nat × State :=
  if off = 4 then
    (regValue s [WAMS_STAT_KFLT, WAMS_STAT_ALMOVF, WAMS_STAT_FORCED, WAMS_STAT_CLOSED] + s.wams.open_.length * 256 +
      32 * b2n (s.fget WAMS_CNTHALF_BITS != 0) + 4 * b2n ((List.range 512).any (fun w => s.fget (WAMS_CFGCHG_BITS w) != 0)), s)
  else if off = 0x80 then
    (((List.finRange 8).map (fun a => 2 ^ (8 + a.val) * b2n (s.lane ⟨44 + a.val, by omega⟩).ticket.isSome)).sum +
      (s.wams.tickets.filter (·.live)).length, s)
  else if 0xC0 ≤ off ∧ off < 0x100 then
    let (d, s) := tableRead regsWAMS (0xF0000D0000 + off) s
    (d, s.fset WAMS_CNTHALF_BITS (putBit (s.fget WAMS_CNTHALF_BITS) ((off - 0xC0) / 4) false))
  else tableRead regsWAMS (0xF0000D0000 + off) s

/-- Writes of the WAMS block. -/
def wamsWrite (off v : Nat) (s : State) : Rsp × State :=
  if off = 0 then wamsCtlOp v s
  else if off = 0x28 then wamsCmdOp v s
  else if off = 0x44 ∧ absentPorts s (v % 8192) then (.denied, s)
  else if off = 0x8C then (.ok, kernelCancelOp (v % 2 ^ 31) s)
  else tableWrite regsWAMS (0xF0000D0000 + off) v s

/-- The interrupt conditions of WAMS_CTL. -/
def wamsLine (s : State) : Bool :=
  (s.fbit WAMS_CTL_KIE && s.fbit WAMS_STAT_KFLT) || (s.fbit WAMS_CTL_CNTIE && s.fget WAMS_CNTHALF_BITS != 0) ||
  (s.fbit WAMS_CTL_CFGIE && s.fget (WAMS_RHEAD_IDX 2) != s.fget (WAMS_RTAIL_IDX 2)) ||
  (s.fbit WAMS_CTL_ALMIE && s.fget (WAMS_RHEAD_IDX 0) != s.fget (WAMS_RTAIL_IDX 0)) ||
  (s.fbit WAMS_CTL_CLOSEIE && s.fbit WAMS_STAT_CLOSED)

/-- A read of the alignment store window at slot `n`, offset `o` (R281): the address of its DRAM byte. -/
def alignTarget (s : State) (off : Nat) : Option Nat :=
  let n := off / 0x1000000
  let o := off % 0x1000000
  match alookup n s.wams.slots with
  | some x => if x.closed ∧ o < slotBytes s then some (slotAddr s n + o) else none
  | none => none

/-! ### Meanings -/

/-- WAMS_ENABLE: a write of WAMS_CTL. -/
def execWamsEnable (rq : Req) (v : Word) (s : State) : Result :=
  .next (s.regWriteAccess rq 0xF0000D0000 (wamsCtlOp v.toNat))

/-- WAMS_UPDATE: a write of WAMS_CMD with OP = 1. -/
def execWamsUpdate (rq : Req) (v : Word) (s : State) : Result :=
  .next (s.regWriteAccess rq 0xF0000D0028 (wamsCmdOp (withField v.toNat 28 3 1)))

/-- WAMS_FLUSH: a write of WAMS_CMD with OP = 2. -/
def execWamsFlush (rq : Req) (v : Word) (s : State) : Result :=
  .next (s.regWriteAccess rq 0xF0000D0028 (wamsCmdOp (withField v.toNat 28 3 2)))

/-- DETECTOR_RESET: a write of WAMS_CMD with OP = 3. -/
def execDetectorReset (rq : Req) (v : Word) (s : State) : Result :=
  .next (s.regWriteAccess rq 0xF0000D0028 (wamsCmdOp (withField v.toNat 28 3 3)))

/-- KERNEL_ACTIVATION_START. -/
def execKernelActivationStart (a : Fin 8) (s : State) : Result := .next (kernelStart a s)

/-- KERNEL_MAXT_EXPIRY (R299). -/
def execKernelMaxtExpiry (a : Fin 8) (s : State) : Result := .next (kernelFault a 2 0 s)

/-- KERNEL_CANCEL: a write of WAMS_KCANCEL. -/
def execKernelCancel (rq : Req) (v : Word) (s : State) : Result :=
  .next (s.regWriteAccess rq 0xF0000D008C (fun s => (.ok, kernelCancelOp (v.toNat % 2 ^ 31) s)))

end Sys2Proof.Machine
end

