-- ==== Sys2Proof/Machine/Domains.lean ====
section
/-! DEFINITION. What each power domain loses when it is switched off or reset (R356, R368, R466), and the wipes of R433. -/
namespace Sys2Proof.Machine

open Reg

/-- Resets a range of lanes to a state; a retired lane stays retired (R339). -/
def resetLanes (lo n : Nat) (st : LaneSt) (s : State) : State :=
  { s with lanes := Vector.ofFn (fun i => if lo ≤ i.val ∧ i.val < lo + n then { lane0 st with retired := s.lanes[i].retired } else s.lanes[i]) }

/-- Wipes the lane-local memories of a group. -/
def clearLaneMem (g : Nat) (s : State) : State := s.wipe (laneMemAddr g 0 0) 0x100000

/-- The registers of a physical group that its own domain powers (R166). -/
def groupRegs (g b off : Nat) : Bool := (b == 3 || b == 4) && pacedGroup b off == some g

/-- A cluster loses its domain: its lanes, memories, dispatcher and registers. -/
def clusterReset (g : Nat) (s : State) : State :=
  let mine := s.tasks.filter (fun p => s.groupOf p.2.desc.cluster != g)
  let s := clearLaneMem g ((resetLanes (8 * g) 8 .off s).wipe (sramAddr g 0) 0x400000)
  let s := { clearRegs (groupRegs g) s with tasks := mine }
  if h : g < 5 then
    { s with tokens := s.tokens.set g [], dlogs := s.dlogs.set g ⟨0, false, false, 0, 0, 0⟩ }
  else s

/-- Registers of a block of PD_FAB that its power-down loses. Trip latches, contact states and arm bits, the TB PLL, the
debug-opened bit and the event log's views stay (R25, R392, R422, R454). -/
def fabRegs (b off : Nat) : Bool :=
  (b == 2 && off != 0x10) || b == 5 || b == 6 || b == 7 || (b == 8 && off != 0) || (b == 15 && decide (off < 0x1000)) ||
  (decide (16 ≤ b) && decide (b ≤ 19)) || (b == 20 && off != 4 && off != 8) || decide (21 ≤ b)

/-- Die F without SFE and always-on island. -/
def fabReset (s : State) : State :=
  let s := (clearRegs fabRegs s).fset LIFE_STAT_BOOTFAIL 0
  let s := clearLaneMem 8 ((resetLanes 40 4 .off s).wipe 0x4800000000 0x1800000)
  let s := lktPortReset s
  { s with keys := Vector.replicate 64 0, arbs := [], resv := Vector.replicate 8 0, vpis := Vector.replicate 64 vpi0,
           subs := [], tasks := [], fo := failover0, recs := Vector.replicate 32 rec0, io := io0,
           sec := { s.sec with chal := false, masks := Vector.replicate 64 0 } }

/-- The sample front end. -/
def sfeReset (s : State) : State := { clearRegs (fun b _ => b == 12) s with sfe := sfe0 }

/-- Die N. -/
def netReset (s : State) : State :=
  { (clearRegs (fun b _ => b == 10 || b == 11 || b == 14) s).modTb (fun t => { t with launch := Vector.replicate 13 [] }) with
    net := net0, clasp := clasp0, pubs := [], pubMem := [] }

/-- Die W; what die F discarded for it is still counted when the domain comes on (R302). -/
def wamsReset (s : State) : State :=
  let s := clearLaneMem 9 ((resetLanes 44 8 .off (clearRegs (fun b _ => b == 13) s)).wipe 0x5000000000 0x80000000)
  { s with wams := { wams0 with offDrop := s.wams.offDrop } }

/-- The contents a domain loses at OFF; PD_DRAM in RET keeps its contents. -/
def domReset (d : Nat) (s : State) : State :=
  if d < 5 then clusterReset d s
  else if d = 5 then fabReset s
  else if d = 6 then sfeReset s
  else if d = 7 then netReset s
  else if d = 8 then wamsReset s
  else s.wipe 0 0x400000000

/-! ### Wipes (R433, R434) -/

/-- Group 1: the key store, KEY_DATA and engine state. -/
def wipeKeys (s : State) : State :=
  { clearRegs (fun b off => b == 7 && (decide (0x100 ≤ off) || (decide (0x20 ≤ off) && decide (off < 0x40)))) s with
    keys := Vector.replicate 64 0, sec := { s.sec with masks := Vector.replicate 64 0 } }

/-- The register files of a bank. -/
def wipeBank (b : Bank) : Bank :=
  { b with g := Vector.replicate 32 0, v := Vector.replicate 16 0, ac := Vector.replicate 2 ⟨0, 0⟩ }

/-- Register files, translation buffer and pins of every lane; they and their memories read 0 already where the domain is
off. -/
def wipeLanes (s : State) : State :=
  let s := { s with lanes := s.lanes.map (fun (x : Lane) =>
    { x with f := wipeBank x.f, g := wipeBank x.g, tlb := [], pins := Vector.replicate 16 none }) }
  s.wipe 0x4100000000 0x1000000

/-- Configuration memories, buffers and stores of dies F, N and W. -/
def wipeTables (s : State) : State :=
  let t := s.sfe
  let n := s.net
  let w := s.wams
  let modals := w.modals.map (fun (p : Nat × Modal) => (p.1, { p.2 with hist := [] }))
  let s := { s with sfe := { t with inputs := [], groups := [], chans := [], phasors := [], coefs := [] },
                    vpis := s.vpis.map (fun (v : Vpi) => { v with ent := vpiEntry0 }), subs := [], pubs := [], pubMem := [] }
  let s := { s with net := { n with bufs := [], queues := Vector.replicate 120 [], resid := [], missq := [], cache := [],
                                    reserve := [], replayQ := [], arriving := [] } }
  let s := { s with clasp := { s.clasp with fwd := Vector.replicate 4 [], own := Vector.replicate 4 [] },
                    wams := { w with open_ := [], slots := [], modals := modals } }
  (s.modLkt (fun l => { l with feed := [] })).modTb (fun t => { t with launch := Vector.replicate 13 [] })

/-- Group 2. -/
def wipeGroup2 (s : State) : State :=
  let s := wipeTables (wipeLanes (s.wipe 0x4000000000 0x5000000))
  let s := (s.wipe 0x5000000000 0x80000000).wipe 0x4800000000 0x1800000
  { s with sec := { s.sec with pendWipe := [0, 1, 2, 3, 4, 6, 7, 8].filter (fun d => !s.domOn d) } }

/-- Group 3: retention memory, event log memory and queue. -/
def wipeGroup3 (s : State) : State := { s with retMem := [], log := eventLog0 }

/-- Starts the DRAM wipe (R435): every word reads 0 to its users from now on, since a request to a region not yet wiped is
held until it is. -/
def wipeDram (s : State) : State := ((s.wipe 0 0x400000000).fset LIFE_STAT_WIPE 1).fset LIFE_WIPED_N 0

/-- The wipe of a transition or of DBGOPEN. -/
def wipeAll (s : State) : State := wipeDram (wipeGroup3 (wipeGroup2 (wipeKeys s)))

end Sys2Proof.Machine
end

