-- ==== Sys2Proof/Machine/Security.lean ====
section
/-! DEFINITION. Keys, life cycle and fuses (spec file 16). The life-cycle reset itself stands in Boot.lean. -/
namespace Sys2Proof.Machine

open Reg

/-- Changes the fuses and what goes with them. -/
def State.modSec (f : Security → Security) (s : State) : State := { s with sec := f s.sec }

/-! ### Roots (R419) -/

/-- The fuse root may be a KDF parent. -/
def fuseRootOk (s : State) : Bool :=
  s.sec.fuseRoot.isSome && (s.sec.life == 1 || (s.sec.life == 2 && !s.fbit LIFE_STAT_DBG))

/-- The test root may be a KDF parent. -/
def testRootOk (s : State) : Bool := s.sec.life == 0 || s.sec.life == 1 || s.sec.life == 3

/-- The test root: a fused value the spec does not state. -/
def testRoot : Nat := Config.openFn Site.testRoot [] % 2 ^ 256

/-- `n` random bits of the noise source (R428). -/
def drawBits (n : Nat) (s : State) : Nat × State := s.draw Site.rng n

/-! ### Key store (R423 to R428) -/

/-- The key of a slot. -/
def State.key (s : State) (k : Nat) : Nat := if h : k < 64 then s.keys[k] else 0

/-- Writes a slot's key under a fresh mask. -/
def setKey (k v : Nat) (s : State) : State :=
  if h : k < 64 then
    let (m, s) := drawBits 256 s
    { s with keys := s.keys.set k v, sec := { s.sec with masks := s.sec.masks.set k m } }
  else s

/-- The bytes of `n` registers that hold 4 bytes each, lowest first. -/
def regBytes (f : Nat → Fld) (n : Nat) (s : State) : List Byte := (List.range n).flatMap (fun j => leBytes 4 (s.fget (f j)))

/-- KEY_NEWATTR is invalid: ALG 6 or 7 (R424). -/
def newAttrBad (s : State) : Bool := decide (6 ≤ s.fget KEY_NEWATTR_ALG)

/-- A slot takes a key with the attributes of KEY_NEWATTR. -/
def createKey (k v origin parent : Nat) (s : State) : State :=
  let s := setKey k v s
  let s := ((s.fset (KEY_ATTR_V k) 1).fset (KEY_ATTR_ORIGIN k) origin).fset (KEY_ATTR_PARENT k) parent
  let s := (s.fset (KEY_ATTR_ALG k) (s.fget KEY_NEWATTR_ALG)).fset (KEY_ATTR_UTX k) (s.fget KEY_NEWATTR_UTX)
  let s := (s.fset (KEY_ATTR_URX k) (s.fget KEY_NEWATTR_URX)).fset (KEY_ATTR_UKDF k) (s.fget KEY_NEWATTR_UKDF)
  ((s.fset (KEY_ATTR_TXNEXT k) 0).fset (KEY_ATTR_NEXT k) 0).fset (KEY_ATTR_NEXTV k) 0

/-- WRITE: its ERR and the state. -/
def keyWriteOp (k : Nat) (s : State) : Nat × State :=
  let e := firstErr [(1, s.fbit (KEY_ATTR_V k)), (4, newAttrBad s)]
  if e ≠ 0 then (e, s) else (0, createKey k (beVal (regBytes KEY_DATA_V 8 s)) 1 0x7F s)

/-- The key of a KDF parent, if it may be one (R425). -/
def parentKey (p : Nat) (s : State) : Option Nat :=
  if p < 64 then (if s.fbit (KEY_ATTR_V p) ∧ s.fbit (KEY_ATTR_UKDF p) then some (s.key p) else none)
  else if p = 64 then (if fuseRootOk s then s.sec.fuseRoot else none)
  else if p = 65 then (if testRootOk s then some testRoot else none)
  else none

/-- DERIVE (R426). -/
def keyDeriveOp (k p : Nat) (s : State) : Nat × State :=
  let pk := parentKey p s
  let e := firstErr [(1, s.fbit (KEY_ATTR_V k)), (2, pk.isNone), (4, newAttrBad s)]
  if e ≠ 0 then (e, s)
  else (0, createKey k (kdf (pk.getD 0) (regBytes KEY_LABEL_V 4 s) (regBytes KEY_CTX_V 4 s)) 2 p s)

/-- The slots whose PARENT chain reaches one of `l`, `l` included. -/
def descend (s : State) : Nat → List Nat → List Nat
  | 0, l => l
  | n + 1, l => descend s n ((List.range 64).filter (fun k =>
      l.contains k || (s.fbit (KEY_ATTR_V k) && l.contains (s.fget (KEY_ATTR_PARENT k)))))

/-- Clears a slot (R427). -/
def clearSlot (k : Nat) (s : State) : State :=
  let s := clearRegs (fun b off => b == 7 && off == 0x100 + 4 * k) s
  if h : k < 64 then
    { s with keys := s.keys.set k 0, sec := { s.sec with masks := s.sec.masks.set k 0 } }
  else s

/-- INVALIDATE. -/
def keyInvalidateOp (k : Nat) (s : State) : Nat × State :=
  let l := descend s 64 [k]
  if l.any (fun j => s.fbit (KEY_ATTR_LOCKED j)) then (3, s) else (0, s.each l clearSlot)

/-- SETLINK. -/
def keySetlinkOp (k : Nat) (s : State) : Nat × State :=
  let nx := s.fget KEY_NEWATTR_NEXT
  if s.fbit KEY_NEWATTR_NEXTV ∧ (¬ s.fbit (KEY_ATTR_V nx) ∨ nx = k) then (4, s)
  else
    (0, ((s.fset (KEY_ATTR_TXNEXT k) (s.fget KEY_NEWATTR_TXNEXT)).fset (KEY_ATTR_NEXT k) nx).fset (KEY_ATTR_NEXTV k)
      (s.fget KEY_NEWATTR_NEXTV))

/-- A write of KEY_CMD (R425, R438). Every command clears KEY_DATA. -/
def keyCmdOp (v : Nat) (s : State) : Rsp × State :=
  let op := bitsOf v 16 3
  let k := v % 64
  if s.fbit KEY_CMDSTAT_BUSY ∨ op = 0 ∨ 4 < op then (.denied, s)
  else
    let (e, s) :=
      if op = 1 then keyWriteOp k s
      else if op = 2 then keyDeriveOp k (bitsOf v 8 7) s
      else if op = 3 then keyInvalidateOp k s
      else keySetlinkOp k s
    let s := s.each (List.range 8) (fun j => State.fset (KEY_DATA_V j) 0)
    (.ok, (s.fset KEY_CMDSTAT_ERR e).fset KEY_CMDSTAT_BUSY 1)

/-- WRITE. -/
def execWriteKey (rq : Req) (v : Word) (s : State) : Result :=
  .next (s.regWriteAccess rq 0xF000070008 (keyCmdOp (withField v.toNat 16 3 1)))

/-- DERIVE. -/
def execDerive (rq : Req) (v : Word) (s : State) : Result :=
  .next (s.regWriteAccess rq 0xF000070008 (keyCmdOp (withField v.toNat 16 3 2)))

/-- INVALIDATE. -/
def execInvalidate (rq : Req) (v : Word) (s : State) : Result :=
  .next (s.regWriteAccess rq 0xF000070008 (keyCmdOp (withField v.toNat 16 3 3)))

/-- SETLINK. -/
def execSetlink (rq : Req) (v : Word) (s : State) : Result :=
  .next (s.regWriteAccess rq 0xF000070008 (keyCmdOp (withField v.toNat 16 3 4)))

/-- KEY_REMASK: every valid slot gets a fresh mask; no result changes (R428). -/
def execKeyRemask (s : State) : Result :=
  .next (if s.fbit KEY_STAT_RNGFAIL ∨ ¬ s.domOn 5 then s
    else s.each ((List.range 64).filter (fun k => s.fbit (KEY_ATTR_V k))) (fun k s => setKey k (s.key k) s))

/-- RNG_HEALTH_FAIL (R428). -/
def execRngHealthFail (s : State) : Result :=
  .next ((s.fset KEY_STAT_RNGFAIL 1).log' KEY_STAT_RNGFAIL true 6 0xFF [])

/-- A read of KEY_RNG: 32 random bits, or 0 while a health test has failed. -/
def keyRngOp (s : State) : Nat × State := if s.fbit KEY_STAT_RNGFAIL then (0, s) else drawBits 32 s

/-- KEY_RNG_READ. -/
def execKeyRngRead (rq : Req) (s : State) : Result := .next (s.regReadAccess rq 0xF000070060 keyRngOp)

/-- Reads of the KEY block. -/
def keyRead (off : Nat) (s : State) : Nat × State :=
  if off = 4 then (4 * s.fget KEY_STAT_RNGFAIL + 2 * b2n (testRootOk s) + b2n (fuseRootOk s), s)
  else if off = 0x60 then keyRngOp s
  else tableRead regsKEY (0xF000070000 + off) s

/-- Writes of the KEY block. -/
def keyWriteReg (off v : Nat) (s : State) : Rsp × State :=
  if off = 8 then keyCmdOp v s else tableWrite regsKEY (0xF000070000 + off) v s

/-- The interrupt condition of KEY_CTL. -/
def keyLine (s : State) : Bool := s.fbit KEY_CTL_IE && s.fbit KEY_STAT_RNGFAIL

/-- The slots that admission locks (R427): those of class-0 stream and publish entries, their NEXT slots, and every
ancestor of both. `ks` names the entries' slots. -/
def lockSet (s : State) (ks : List Nat) : List Nat :=
  let valid := fun (k : Nat) => decide (k < 64) && s.fbit (KEY_ATTR_V k)
  let l := ks.filter valid
  let l := l ++ (l.filter (fun k => s.fbit (KEY_ATTR_NEXTV k))).map (fun k => s.fget (KEY_ATTR_NEXT k))
  let up := fun (l : List Nat) => l ++ (l.map (fun k => s.fget (KEY_ATTR_PARENT k))).filter (fun k => valid k && !l.contains k)
  (Nat.repeat up 64 l).filter valid

/-- Locks key slots. -/
def lockKeys (ks : List Nat) (s : State) : State := s.each (lockSet s ks) (fun k => State.fset (KEY_ATTR_LOCKED k) 1)

/-- Unlocks them all. -/
def unlockKeys (s : State) : State := s.each (List.range 64) (fun k => State.fset (KEY_ATTR_LOCKED k) 0)

/-! ### Life cycle (R419 to R422, R432, R439) -/

/-- A VPI is not OFF. -/
def anyVpiOn (s : State) : Bool := s.vpis.toList.any (fun v => v.st != .off)

/-- ERR 2 of a transition (R420). -/
def lifeBusyErr (s : State) : Bool := s.adm || anyVpiOn s

/-- The response that R421 asks for. -/
def lifeResponse (op : Nat) (s : State) : Nat :=
  let auth := kdf testRoot ("LIFE-AUTH".toList.map (fun c => BitVec.ofNat 8 c.toNat) ++ zeroBytes 7) (zeroBytes 16)
  hmacSha256 (beBytes 32 auth) (regBytes LIFE_CHAL_V 4 s ++ regBytes LIFE_DIEID_V 2 s ++ leBytes 1 op)

/-- The check of R421: consumes the challenge; a wrong response counts and is logged. The second result says whether the
response was accepted. -/
def lifeCheck (op : Nat) (s : State) : Bool × State :=
  if 3 ≤ s.sec.wrong then (false, s)
  else
    let ok := s.sec.chal && beVal ((regBytes LIFE_RESP_V 12 s).take 32) == lifeResponse op s
    let s := s.each (List.range 4) (fun j => State.fset (LIFE_CHAL_V j) 0)
    let s := s.modSec (fun x => { x with chal := false })
    if ok then (true, s)
    else (false, (s.modSec (fun x => { x with wrong := x.wrong + 1 })).log' (LIFE_RESP_V 0) true 6 0xFF [op])

/-- An accepted transition: the wipe, then the fuses and the life-cycle reset (LIFE_CYCLE_RESET). -/
def transition (st : Nat) (s : State) : Nat × State := (0, (wipeAll s).modSec (fun x => { x with next := some st }))

/-- At least one boot-key entry is programmed and not revoked. -/
def bootKeyLive (s : State) : Bool := (List.range 4).any (fun i => bitOf s.sec.prog i && !bitOf s.sec.rev i)

/-- ADVANCE. -/
def advanceOp (s : State) : Nat × State :=
  let st := s.sec.life
  let e := firstErr [(1, st != 0 && st != 1), (2, lifeBusyErr s),
    (4, st == 1 && !(s.sec.fuseRoot.isSome && bootKeyLive s))]
  if e ≠ 0 then (e, s) else transition (st + 1) s

/-- RMA. -/
def rmaOp (s : State) : Nat × State :=
  let e := firstErr [(1, s.sec.life != 2), (2, lifeBusyErr s)]
  if e ≠ 0 then (e, s)
  else
    let (ok, s) := lifeCheck 2 s
    if ok then transition 3 s else (3, s)

/-- SCRAP. -/
def scrapOp (s : State) : Nat × State :=
  let e := firstErr [(1, s.sec.life == 4), (2, lifeBusyErr s)]
  if e ≠ 0 then (e, s) else transition 4 s

/-- DBGOPEN (R422). -/
def dbgopenOp (s : State) : Nat × State :=
  if s.sec.life ≠ 2 then (1, s)
  else
    let (ok, s) := lifeCheck 4 s
    if ok then (0, ((wipeAll s).fset LIFE_STAT_DBG 1).fset DEBUG_STAT_OPEN 1) else (3, s)

/-- PROGROOT. -/
def progrootOp (s : State) : Nat × State :=
  let e := firstErr [(1, s.sec.life != 1), (4, s.sec.fuseRoot.isSome), (5, s.fbit KEY_STAT_RNGFAIL)]
  if e ≠ 0 then (e, s)
  else
    let (k, s) := drawBits 256 s
    (0, s.modSec (fun x => { x with fuseRoot := some k }))

/-- SVNUP (R432). -/
def svnupOp (s : State) : Nat × State :=
  if s.sec.runSvn ≤ s.sec.svn then (7, s) else (0, s.modSec (fun x => { x with svn := x.runSvn }))

/-- CHALLENGE (R421). -/
def challengeOp (s : State) : Nat × State :=
  if s.fbit KEY_STAT_RNGFAIL then (5, s)
  else
    let s := s.each (List.range 4) (fun j s =>
      let (v, s) := drawBits 32 s
      s.fset (LIFE_CHAL_V j) v)
    (0, s.modSec (fun x => { x with chal := true }))

/-- PROGKEY of entry `i`. -/
def progkeyOp (i : Nat) (s : State) : Nat × State :=
  let e := firstErr [(1, s.sec.life != 1), (4, bitOf s.sec.prog i)]
  if e ≠ 0 then (e, s)
  else if h : i < 4 then
    let v := beVal (regBytes LIFE_RESP_V 12 s)
    (0, s.modSec (fun x => { x with bootKeys := x.bootKeys.set i v, prog := putBit x.prog i true }))
  else (0, s)

/-- REVOKE of entry `i`. -/
def revokeKeyOp (i : Nat) (s : State) : Nat × State :=
  let last := (List.range 4).all (fun j => j == i || !(bitOf s.sec.prog j && !bitOf s.sec.rev j))
  let e := firstErr [(4, !bitOf s.sec.prog i), (8, (last && !bitOf s.sec.rev i) || s.sec.runKey == i)]
  if e ≠ 0 then (e, s) else (0, s.modSec (fun x => { x with rev := putBit x.rev i true }))

/-- A write of LIFE_CMD (R439). LIFE_RESP is cleared after each command. -/
def lifeCmdOp (v : Nat) (s : State) : Rsp × State :=
  let op := bitsOf v 16 4
  let arg := v % 4
  if s.fbit LIFE_CMDSTAT_BUSY ∨ op = 0 ∨ 9 < op then (.denied, s)
  else
    let (e, s) :=
      match op with
      | 1 => advanceOp s
      | 2 => rmaOp s
      | 3 => scrapOp s
      | 4 => dbgopenOp s
      | 5 => progrootOp s
      | 6 => svnupOp s
      | 7 => challengeOp s
      | 8 => progkeyOp arg s
      | _ => revokeKeyOp arg s
    let s := s.each (List.range 12) (fun j => State.fset (LIFE_RESP_V j) 0)
    (.ok, (s.fset LIFE_CMDSTAT_ERR e).fset LIFE_CMDSTAT_BUSY 1)

/-- A write of LIFE_CMD with operation `op`. -/
def lifeWrite (op : Nat) (rq : Req) (v : Word) (s : State) : State :=
  s.regWriteAccess rq 0xF000080004 (lifeCmdOp (withField v.toNat 16 4 op))

/-- ADVANCE. -/
def execAdvance (rq : Req) (v : Word) (s : State) : Result := .next (lifeWrite 1 rq v s)

/-- RMA. -/
def execRma (rq : Req) (v : Word) (s : State) : Result := .next (lifeWrite 2 rq v s)

/-- SCRAP. -/
def execScrap (rq : Req) (v : Word) (s : State) : Result := .next (lifeWrite 3 rq v s)

/-- DBGOPEN. -/
def execDbgopen (rq : Req) (v : Word) (s : State) : Result := .next (lifeWrite 4 rq v s)

/-- PROGROOT. -/
def execProgroot (rq : Req) (v : Word) (s : State) : Result := .next (lifeWrite 5 rq v s)

/-- SVNUP. -/
def execSvnup (rq : Req) (v : Word) (s : State) : Result := .next (lifeWrite 6 rq v s)

/-- CHALLENGE. -/
def execChallenge (rq : Req) (v : Word) (s : State) : Result := .next (lifeWrite 7 rq v s)

/-- PROGKEY. -/
def execProgkey (rq : Req) (v : Word) (s : State) : Result := .next (lifeWrite 8 rq v s)

/-- REVOKE of a boot-key entry. -/
def execBootKeyRevoke (rq : Req) (v : Word) (s : State) : Result := .next (lifeWrite 9 rq v s)

/-- DRAM_WIPE_DONE: the last of 8 192 regions is wiped (R435). -/
def execDramWipeDone (s : State) : Result :=
  .next (if s.fbit LIFE_STAT_WIPE then (s.fset LIFE_STAT_WIPE 0).fset LIFE_WIPED_N 8192 else s)

/-- Reads of the LIFE block: fuses are read where they stand. -/
def lifeRead (off : Nat) (s : State) : Nat × State :=
  if off = 0 then
    (s.fget LIFE_STAT_BOOTFAIL * 2 ^ 31 + s.fget LIFE_STAT_DBG * 256 + s.fget LIFE_STAT_WIPE * 128 + s.sec.life, s)
  else if off = 0xC then (s.sec.svn, s)
  else if off = 0x10 then ((if s.sec.runKey < 4 then s.sec.runKey else 0) * 256 + s.sec.rev * 16 + s.sec.prog, s)
  else tableRead regsLIFE (0xF000080000 + off) s

/-- Writes of the LIFE block. -/
def lifeWriteReg (off v : Nat) (s : State) : Rsp × State :=
  if off = 4 then lifeCmdOp v s else tableWrite regsLIFE (0xF000080000 + off) v s

end Sys2Proof.Machine
end

