-- ==== Sys2Proof/Machine/Power.lean ====
section
/-! DEFINITION. The power controller (spec file 13): domain changes, the inrush governor, the energy and heat account,
retention, wake and supply, clocks from power-up and resource ownership. -/
namespace Sys2Proof.Machine

open Reg

/-- Changes the power controller. -/
def State.modPower (f : Power → Power) (s : State) : State := { s with power := f s.power }

/-- Sets the state of a domain. -/
def setDom (d st : Nat) (s : State) : State := s.fset (domField d) st

/-! ### Inrush governor (R360, R361) -/

/-- The stages of a power-up in mA. -/
def stagesFor (s : State) (item : Nat) : List Nat :=
  if item < 5 then List.replicate 8 5000 ++ [3000]
  else if item = 5 then List.replicate 12 5000 ++ [4000]
  else if item = 6 then List.replicate (if s.variant = .e then 3 else 6) 4000 ++ [2000]
  else if item < 9 then List.replicate 10 5000 ++ [3000]
  else [500]

/-- A queue entry behind every entry of its class or a better one. -/
def govInsert (r : GovReq) : List GovReq → List GovReq
  | [] => [r]
  | x :: l => if r.cls < x.cls then r :: x :: l else x :: govInsert r l

/-- Requests a power-up. -/
def govRequest (cls item : Nat) (s : State) : State :=
  s.modPower (fun p => { p with gov := govInsert ⟨cls, item, stagesFor s item⟩ p.gov })

/-- The stages granted in the preceding 20 µs. -/
def recentGrants (s : State) : List (Nat × Nat × Nat) := s.power.grants.filter (fun g => decide (s.now < g.1 + usUnits 20))

/-- The lane of a privileged unit: M1 to M3, then A0 to A7 (R359). -/
def unitLane (u : Nat) : Fin 52 := ⟨41 + u % 11, by omega⟩

/-- Grants stages as long as the head's next one fits; an item has at most one stage in 20 µs. A unit's wake is whole with
its stage. -/
def tryGrant : Nat → State → State
  | 0, s => s
  | n + 1, s =>
    match s.power.gov with
    | [] => s
    | r :: q =>
      let rec_ := recentGrants s
      match r.steps with
      | [] => tryGrant n (s.modPower (fun p => { p with gov := q }))
      | st :: rest =>
        if 6000 < (rec_.map (·.2.1)).sum + st ∨ rec_.any (fun g => g.2.2 == r.item) then s
        else
          let q' := if rest = [] then q else { r with steps := rest } :: q
          let s := s.modPower (fun p => { p with gov := q', grants := rec_ ++ [(s.now, st, r.item)] })
          let s := if rest = [] ∧ 16 ≤ r.item then s.modLane (unitLane (r.item - 16)) (fun x => { x with gated := false }) else s
          tryGrant n s

/-- The governor's evaluation at a stage completion or a new request. -/
def governor (s : State) : State := tryGrant 64 s

/-- PWR_GOVSTAT (R382). -/
def govStat (s : State) : Nat :=
  match s.power.gov with
  | [] => 0x1F
  | r :: _ => b2n (r.cls == 1) * 65536 + min s.power.gov.length 15 * 256 + r.item

/-- The governor still holds stages of an item. -/
def govHolds (s : State) (item : Nat) : Bool := s.power.gov.any (fun r => r.item == item)

/-! ### Domain commands (R356 to R358) -/

/-- A domain of an absent unit (R27). -/
def domAbsent (s : State) (d : Nat) : Bool := (decide (d < 5) && !s.clusterFitted d) || (d == 8 && !s.dieW)

/-- A VPI in RUN or FROZEN that a test selects. -/
def vpiActive (s : State) (p : Vpi → Bool) : Bool :=
  s.vpis.toList.any (fun v => (v.st == .run || v.st == .frozen) && p v)

/-- A group's lanes hold admitted slot entries. -/
def groupAdmitted (s : State) (g : Nat) : Bool :=
  s.adm && (List.range 8).any (fun l => (s.lane (clusterLane g l)).entries.any (·.v))

/-- ERR 3 of a change: a dependency of R357 is not met. -/
def domDepends (s : State) (d st : Nat) : Bool :=
  if d = 5 then st != 1 && (List.range 10).any (fun k => k != 5 && s.dom k != 0 && s.dom k != 2)
  else st == 1 && !s.domOn 5

/-- ERR 4: the conditions under which a domain may not leave ON. -/
def domBusy (s : State) (d : Nat) : Bool :=
  if d < 5 then
    groupAdmitted s d || (match s.roleOf d with
      | some c => vpiActive s (fun v => bitsOf v.ent.lanes (8 * c) 8 != 0)
      | none => false)
  else if d = 5 then anyVpiOn s
  else if d = 6 then s.adm
  else if d = 7 then s.adm || vpiActive s (fun _ => true)
  else if d = 8 then false
  else vpiActive s (fun _ => true) || s.fbit WAMS_CTL_EN

/-- The error of a domain command that R358 checks in step 4. -/
def dcmdErr (s : State) (d st : Nat) : Nat :=
  firstErr [(2, st == 2 && decide (d < 5)), (3, domDepends s d st), (4, s.domOn d && domBusy s d),
    (5, s.fbit FAILOVER_STAT_BUSY)]

/-- The class of a domain's power-up. -/
def domClass (d : Nat) : Nat := if d < 4 then 4 else if d = 8 then 5 else 3

/-- A domain starts towards ON. PD_DRAM has no stages. -/
def startOn (d : Nat) (s : State) : State :=
  let s := (setDom d 3 s).modPower (fun p => { p with target := ainsert d 1 p.target })
  if d = 9 then s else govRequest (domClass d) d s

/-- Retention banks of a domain (R368). -/
def domBanks (d : Nat) : List Nat :=
  if d = 5 then [0, 1, 2, 6, 7] else if d = 7 then [3] else if d = 6 then [4] else if d = 8 then [5] else []

/-- Registers of a bank. -/
def bankRegs (b blk off : Nat) : Bool :=
  if b = 0 then (blk == 2 && off != 0x10) || blk == 5 || blk == 18 || blk == 19 || blk == 20 || blk == 21
  else if b = 3 then blk == 10 || blk == 11 || blk == 14
  else if b = 4 then blk == 12
  else if b = 5 then blk == 13
  else if b = 6 then (blk == 15 && decide (off < 0x1000)) || blk == 16 || blk == 17
  else false

/-- What a bank of the module takes. -/
def bankImage (s : State) (b : Nat) : RetImage :=
  { regs := s.regs.filter (fun p => bankRegs b (regBlock (p.1 / 32)).1 (regBlock (p.1 / 32)).2),
    ctxs := if b = 1 then (List.range 4).map (fun i => let x := s.lane ⟨40 + i % 4, by omega⟩; (x.f, x.k, x.sr)) else [],
    held := if b = 1 then (List.range 4).map (fun i => (s.lane ⟨40 + i % 4, by omega⟩).st == .reset) else [],
    vlans := if b = 3 then s.net.vlans else [],
    routes := if b = 3 then s.clasp.routes else [],
    wouts := if b = 5 then s.wams.outputs else [] }

/-- The words of a bank that its signature covers. -/
def imageWords (x : RetImage) : List Nat :=
  x.regs.flatMap (fun p => [p.1, p.2]) ++ x.vlans.flatMap (fun p => [p.1, p.2.1, p.2.2]) ++
    x.routes.flatMap (fun p => [p.1, p.2]) ++ x.wouts.flatMap (fun p => p.1 :: p.2.idcode :: p.2.tpl.map (·.toNat)) ++
    x.ctxs.flatMap (fun c => c.1.pc.toNat :: c.1.g.toList.map (·.toNat) ++ c.1.v.toList.map (·.toNat))

/-- The image a bank holds. -/
def heldImage (s : State) (b : Nat) : RetImage := if h : b < 7 then s.power.images[b] else retImage0

/-- The CRC-32C of a bank: of the window for bank 7; the layout of the others is the module's own, so it is a free function
of what they hold (R369). -/
def bankSig (s : State) (b : Nat) : Nat :=
  if b = 7 then crc32c (memRead s.retMem 0 32768) else Config.openFn Site.retSig (b :: imageWords (heldImage s b)) % 2 ^ 32

/-- Saves a bank (R369). -/
def saveBank (b : Nat) (s : State) : State :=
  let img := bankImage s b
  let s := if h : b < 7 then s.modPower (fun p => { p with images := p.images.set b img }) else s
  (s.fset (PWR_RETSIG_SIG b) (bankSig s b)).fset PWR_RETVALID_B (putBit (s.fget PWR_RETVALID_B) b true)

/-- Puts a bank's contents back. -/
def restoreBank (b : Nat) (s : State) : State :=
  let x := heldImage s b
  let s := { s with regs := x.regs.foldl (fun l p => ainsert p.1 p.2 l) s.regs }
  if b = 1 then
    s.each ((List.range 4).zip x.ctxs) (fun c s => s.modLane ⟨40 + c.1 % 4, by omega⟩ (fun y =>
      { y with f := c.2.1, k := c.2.2.1, sr := c.2.2.2,
               st := if (x.held[c.1]?).getD false then .reset else .waiting }))
  else if b = 3 then { s with net := { s.net with vlans := x.vlans }, clasp := { s.clasp with routes := x.routes } }
  else if b = 5 then { s with wams := { s.wams with outputs := x.wouts } }
  else s

/-- Checks a bank on wake: on a match it is restored, on a mismatch it is skipped, noted and logged (R370). The valid bit
clears. The result says whether the bank was restored. -/
def wakeBank (b : Nat) (s : State) : Bool × State :=
  if ¬ bitOf (s.fget PWR_RETVALID_B) b then (false, s)
  else
    let s := s.fset PWR_RETVALID_B (putBit (s.fget PWR_RETVALID_B) b false)
    if bankSig s b = s.fget (PWR_RETSIG_SIG b) then (true, restoreBank b s)
    else
      let s := if b = 7 then { s with retMem := memClear s.retMem 0 32768 } else s
      (false, (s.fset PWR_RETFAIL_B (putBit (s.fget PWR_RETFAIL_B) b true)).log' PWR_RETFAIL_B false 5 0xFF [b])

/-- A domain starts away from ON: isolated now, its banks saved on the way to RET. -/
def startOff (d st : Nat) (s : State) : State :=
  let s := if st = 2 then s.each (domBanks d) saveBank else s
  (setDom d 3 s).modPower (fun p => { p with target := ainsert d st p.target })

/-- A write of PWR_DCMD (R358). -/
def dcmdOp (v : Nat) (s : State) : Rsp × State :=
  let d := v % 16
  let st := bitsOf v 4 2
  if s.fbit PWR_DCMDSTAT_BUSY ∨ 9 < d ∨ st = 3 then (.denied, s)
  else
    let fail := fun (e : Nat) => (Rsp.ok, (s.fset PWR_DCMDSTAT_ERR e).log' PWR_DCMDSTAT_ERR false 4 0xFF [d, st, e])
    if domAbsent s d then fail 1
    else if d = 4 then fail 2
    else if s.dom d = st then (.ok, s.fset PWR_DCMDSTAT_ERR 0)
    else
      let e := dcmdErr s d st
      if e ≠ 0 then fail e
      else
        let s := ((s.fset PWR_DCMDSTAT_ERR 0).fset PWR_DCMDSTAT_BUSY 1).modPower (fun p => { p with cmd := some d })
        if d = 5 ∧ st = 2 then (.ok, s.modPower (fun p => { p with standby := .wait }))
        else if st = 1 then (.ok, startOn d s)
        else (.ok, startOff d st s)

/-- DOMAIN_COMMAND. -/
def execDomainCommand (rq : Req) (v : Word) (s : State) : Result :=
  .next (s.regWriteAccess rq 0xF000010008 (dcmdOp v.toNat))

/-- The PWR_DCMD in progress ends, if it concerns domain `d`. -/
def dcmdDone (d : Nat) (s : State) : State :=
  if s.power.cmd = some d then (s.fset PWR_DCMDSTAT_BUSY 0).modPower (fun p => { p with cmd := none }) else s

/-- A domain whose stage does not confirm is isolated and left OFF (R362). -/
def powerFail (d : Nat) (s : State) : State :=
  let mine := s.power.cmd == some d
  let s := s.modPower (fun p => { p with gov := p.gov.filter (fun r => r.item != d), target := aerase d p.target })
  let s := setDom d 0 s
  let s := if mine then dcmdDone d (s.fset PWR_DCMDSTAT_ERR 7) else s
  s.log' PWR_DCMDSTAT_ERR false 4 0xFF [d, 1, 7]

/-- The capacity of a cluster's account in nJ (R363). -/
def acctCap (s : State) (c : Nat) : Int := (s.fget (PWR_ACC_CAP c) * 1000 : Nat)

/-- A_c. -/
def acctOf (s : State) (c : Nat) : Int := if h : c < 5 then s.power.acct[c] else 0

/-- Writes A_c. -/
def setAcct (c : Nat) (v : Int) (s : State) : State :=
  if h : c < 5 then s.modPower (fun p => { p with acct := p.acct.set c v }) else s

/-- The budget-state field of a cluster. -/
def bstField (c : Nat) : Fld := ⟨0xF000040008, 2 * c, 2, .ro, 0, .any⟩

/-- Every cluster is held in budget state 3 (R367, R374). -/
def budgetHeld (s : State) : Bool := s.power.hot || (s.fbit PWR_CTL_SFWSHED && s.fbit PWR_STAT_SFW)

/-- A cluster's domain has come on: its lanes are idle and its account is full. -/
def clusterOn (g : Nat) (s : State) : State :=
  let s := resetLanes (8 * g) 8 .idle s
  (setAcct g (acctCap s g) s).fset (bstField g) (if budgetHeld s then 3 else 0)

/-! ### Privileged units (R359) -/

/-- UNIT_IDLE_GATE. -/
def execUnitIdleGate (u : Fin 11) (s : State) : Result :=
  .next (
    let x := s.lane (unitLane u)
    let idle := if u.val < 3 then x.st == .waiting else x.ticket.isNone && x.st == .idle
    if s.fget (PWR_IDLE_T u) = 0 ∨ ¬ idle then s else s.modLane (unitLane u) (fun x => { x with gated := true }))

/-- UNIT_WAKE: one governor stage of 0.5 A. -/
def execUnitWake (u : Fin 11) (s : State) : Result :=
  .next (
    if ¬ (s.lane (unitLane u)).gated ∨ govHolds s (16 + u) then s else governor (govRequest 2 (16 + u) s))

/-! ### Energy and heat (R363 to R367) -/

/-- Highest temperature a domain's die may have before classes 1 to 3 are derated, and k (R363). -/
def derate (s : State) : Int :=
  let kmin : Int := if s.fget PWR_THERM_KMIN = 0 then 256 else (s.fget PWR_THERM_KMIN : Nat)
  let soft : Int := (s.fget PWR_THERM_TSOFT : Nat)
  if s.power.th ≤ soft then 256 else max kmin (256 - (s.fget PWR_THERM_TDER : Nat) * (s.power.th - soft))

/-- The funding of a role (R365). -/
def fundOf (s : State) (r : Nat) : Int :=
  if bitOf (s.fget PWR_FUNDSTAT_F) r then (s.fget (PWR_C0FUND_MW r) : Nat) else 0

/-- The funding of the role a group holds. -/
def groupFund (s : State) (g : Nat) : Int :=
  match s.roleOf g with
  | some r => fundOf s r
  | none => 0

/-- Whether A_c has fallen below a threshold given in 1/256 of CAP_c. -/
def belowTh (s : State) (c th : Nat) : Bool := decide (acctOf s c * 256 < acctCap s c * (th : Nat))

/-- Steps from a state towards better ones while the threshold plus the hysteresis is reached (R364). -/
def betterState (s : State) (c : Nat) : Nat → Nat
  | 0 => 0
  | k + 1 =>
    let th := if k = 0 then s.fget PWR_ATH_TH1 else if k = 1 then s.fget PWR_ATH_TH2 else s.fget PWR_ATH_TH3
    if belowTh s c (th + s.fget PWR_ATH_HYS) then k + 1 else betterState s c k

/-- The budget state of a cluster after a tick. -/
def nextBudget (s : State) (c : Nat) : Nat :=
  let cur := s.fget (bstField c)
  let w := if belowTh s c (s.fget PWR_ATH_TH3) then 3 else if belowTh s c (s.fget PWR_ATH_TH2) then 2
    else if belowTh s c (s.fget PWR_ATH_TH1) then 1 else 0
  if budgetHeld s then 3 else if cur ≤ w then w else betterState s c cur

/-- One cluster's tick. -/
def acctTick (rest sumW : Int) (p : List Nat) (c : Nat) (s : State) : State :=
  if ¬ s.domOn c then s
  else
    let credit := groupFund s c + rest * (s.fget (PWR_ACC_W c) : Nat) / sumW
    let a := clampInt (-(acctCap s c)) (acctCap s c) (acctOf s c + (credit - (nth p c : Nat)) * 10)
    let s := setAcct c a s
    s.fset (bstField c) (nextBudget s c)

/-- The 1 ms average of each cluster's power. -/
def pmeasTick (p : List Nat) (s : State) : State :=
  let w := s.power
  let sums := Vector.ofFn (fun (c : Fin 5) => w.sums[c] + nth p c)
  if w.ticks < 99 then s.modPower (fun x => { x with sums := sums, ticks := w.ticks + 1 })
  else
    let s := s.each (List.range 5) (fun c => State.fset (PWR_ACCPMEAS_PMEAS c) (min (sums.toList.getD c 0 / 100) 65535))
    s.modPower (fun x => { x with sums := Vector.replicate 5 0, ticks := 0 })

/-- ACCOUNT_TICK: `energy` is what each domain's sensor read, 0 to 8, in nJ (R363). -/
def execAccountTick (energy : List Nat) (s : State) : Result :=
  .next (
    let p := (List.range 9).map (fun d => nth energy d / 10)
    let uncore := nth p 5 + nth p 6 + nth p 7 + nth p 8
    let avail : Int := (s.fget PWR_PBUDGET_P * 10 : Nat) * derate s / 256 - (uncore : Nat)
    let sumF := ((List.range 5).map (fundOf s)).sum
    let rest := max 0 (avail - sumF)
    let on := (List.range 5).filter s.domOn
    let sumW : Int := ((on.map (fun c => s.fget (PWR_ACC_W c))).sum : Nat)
    pmeasTick p (s.each on (acctTick rest sumW p)))

/-- A temperature as a signed byte; above 127 °C it stays at 127. -/
def tempByte (t : Int) : Nat := wrapTo 8 (clampInt (-128) 127 t)

/-- TEMPERATURE_READING (R363, R367). -/
def execTemperatureReading (c f n w cp : Int) (s : State) : Result :=
  .next (
    let s := (s.fset PWR_TJ_C (tempByte c)).fset PWR_TJ_F (tempByte f)
    let s := s.fset PWR_TJ_N (if s.domOn 7 then tempByte n else 0x80)
    let s := (s.fset PWR_TJ_W (if s.domOn 8 then tempByte w else 0x80)).fset PWR_TCP_T (wrapTo 16 cp)
    let th := max (max c f) (if s.domOn 8 then (if s.domOn 7 then max n w else w) else if s.domOn 7 then n else c)
    let was := s.power.th
    let soft : Int := (s.fget PWR_THERM_TSOFT : Nat)
    let s := s.modPower (fun p => { p with th := th, hot := (p.hot || decide (125 < th)) && decide (soft < th) })
    let s := s.fsetB PWR_STAT_THOT (decide (soft < th))
    let s := if 125 < th ∧ was ≤ 125 then (s.fset PWR_STAT_TOVER 1).log' PWR_STAT_TOVER false 7 0xFF [tempByte th] else s
    let s := s.each ((List.range 5).filter s.domOn) (fun c s => s.fset (bstField c) (nextBudget s c))
    if th < 130 then s
    else
      let s := s.each (List.range 11) (fun u s => s.modLane (unitLane u) (fun x =>
        { x with gated := x.gated || x.st != .off }))
      if s.domOn 8 then startOff 8 0 s else s)

/-- Class-0 funding at admission for the roles that hold used slot entries (R365): none when it fails. -/
def fundAdmit (roles : List Nat) (s : State) : Option State :=
  let kmin := if s.fget PWR_THERM_KMIN = 0 then 256 else s.fget PWR_THERM_KMIN
  let mws := roles.map (fun r => s.fget (PWR_C0FUND_MW r))
  if mws.contains 0 ∨ s.fget PWR_PBUDGET_P * 10 * kmin / 256 < mws.sum + s.fget PWR_UNCORE_MW then none
  else some (s.fset PWR_FUNDSTAT_F ((roles.map (fun r => 2 ^ r)).sum))

/-! ### Wake and supply (R372 to R374) -/

/-- WAKE_SOURCE: an enabled source is latched; in standby the domains of PWR_WAKEDOM are powered, PD_FAB first. -/
def execWakeSource (src : Fin 10) (s : State) : Result :=
  .next (
    if ¬ bitOf (s.fget PWR_WAKEEN_EN) src then s
    else
      let s := s.fset PWR_WAKESRC_SRC (putBit (s.fget PWR_WAKESRC_SRC) src true)
      if s.power.standby ≠ .asleep then s
      else
        let want := [5, 7, 6, 9, 0, 1, 2, 3, 8].filter (fun d =>
          (d == 5 || bitOf (s.fget PWR_WAKEDOM_D) d) && !domAbsent s d && !s.domOn d)
        governor ((s.each want startOn).modPower (fun p => { p with standby := .waking })))

/-- STANDBY_ENTRY: M0 is in wait and M1 to M3 are gated, in wait or still in reset (R373). -/
def execStandbyEntry (s : State) : Result :=
  .next (
    let quiet := fun (i : Fin 52) => (s.lane i).st == .waiting || (s.lane i).gated || (s.lane i).st == .reset
    if s.power.standby ≠ .wait ∨ (s.lane 40).st ≠ .waiting ∨ ¬ (quiet 41 ∧ quiet 42 ∧ quiet 43) then s
    else
      let s := fabReset (s.each (domBanks 5) saveBank)
      dcmdDone 5 ((setDom 5 2 s).modPower (fun p => { p with standby := .asleep })))

/-- STANDBY_TIMEOUT: ERR 6 (R373). -/
def execStandbyTimeout (s : State) : Result :=
  .next (
    if s.power.standby ≠ .wait then s
    else
      let s := dcmdDone 5 ((s.fset PWR_DCMDSTAT_ERR 6).modPower (fun p => { p with standby := .no }))
      s.log' PWR_DCMDSTAT_ERR false 4 0xFF [5, 2, 6])

/-- SUPPLY_INPUT_CHANGE: with neither input in range the hold-up runs (R374). -/
def execSupplyInputChange (a b : Bool) (s : State) : Result :=
  .next (
    let running := s.fbit PWR_STAT_HOLDUP
    let s := (s.fsetB PWR_STAT_INA a).fsetB PWR_STAT_INB b
    if a || b then (s.fset PWR_STAT_HOLDUP 0).modPower (fun p => { p with finalLogged := false })
    else if running then s
    else
      let s := ((s.fset PWR_STAT_HOLDUP 1).fset PWR_STAT_SFW 1).fset PWR_STAT_SFWL 1
      let s := s.log' PWR_STAT_SFW false 2 0xFF [1]
      if budgetHeld s then s.each ((List.range 5).filter s.domOn) (fun c => State.fset (bstField c) 3) else s)

/-- HOLDUP_UPDATE. -/
def execHoldupUpdate (t : Nat) (s : State) : Result :=
  .next (
    if ¬ s.fbit PWR_STAT_HOLDUP then s
    else
      let s := s.fset PWR_HOLDUP_T t
      if t < 20 ∧ ¬ s.power.finalLogged then
        (s.modPower (fun p => { p with finalLogged := true })).log' PWR_HOLDUP_T false 7 0xFF [t]
      else s)

/-- SFW_CLEAR: an input has been back in range for 10 ms. -/
def execSfwClear (s : State) : Result :=
  .next (if s.fbit PWR_STAT_INA ∨ s.fbit PWR_STAT_INB then s.fset PWR_STAT_SFW 0 else s)

/-! ### Clocks (R375 to R377) -/

/-- OCXO_ACTIVE. -/
def execOcxoActive (s : State) : Result := .next (s.fset CLK_STAT_OCXOACT 1)

/-- The LOCK, LOSS and EN fields of a PLL. -/
def pllLock (n : Nat) : Fld := if n = 0 then CLK_PLL0_LOCK else CLK_PLL_LOCK (n - 1)
def pllLoss (n : Nat) : Fld := if n = 0 then CLK_PLL0_LOSS else CLK_PLL_LOSS (n - 1)
def pllEn (n : Nat) : Fld := if n = 0 then CLK_PLL0_EN else CLK_PLL_EN (n - 1)

/-- A PLL locks; FIC is measured against the TB PLL from then on, and its frequency is free within ±8 % (R21, R383). -/
def pllLocked (n : Nat) (s : State) : State :=
  let s := s.fset (pllLock n) 1
  if n = 0 then
    let (k, s) := s.draw Site.fic 32
    s.fset CLK_FIC_KHZ (184000 + k % 32001)
  else s

/-- PLL_LOCK. -/
def execPllLock (n : Fin 6) (s : State) : Result :=
  .next (if s.fbit (pllEn n) ∧ s.fbit CLK_STAT_OCXOACT then pllLocked n s else s)

/-- A PLL loses its reference: it holds its control value (R22, R376). -/
def pllLost (n : Nat) (s : State) : State := (s.fset (pllLoss n) 1).log' (pllLoss n) false 5 0xFF [n]

/-- PLL_REFERENCE_LOSS. -/
def execPllReferenceLoss (n : Fin 6) (s : State) : Result := .next (pllLost n s)

/-- BEAT_PLL_REFERENCE_LOSS (R22). -/
def execBeatPllReferenceLoss (s : State) : Result := .next (pllLost 1 s)

/-- A write of CLK_CMD (R377, R140). -/
def clkCmdOp (v : Nat) (s : State) : Rsp × State :=
  match v % 8 with
  | 1 =>
    if s.fbit BEZEL_STAT_SRC ∨ ¬ s.fbit (pllLock 1) then (.denied, s)
    else
      let s := (s.fset BEZEL_STAT_SRC 1).fset CLK_STAT_BEATSRC 1
      (.ok, { s with bezel := { s.bezel with rate := 125 + 25 * s.fget BEZEL_BEAT_RATE } })
  | 2 => if s.fbit CLK_STAT_MGTSRC ∨ ¬ s.fbit (pllLock 4) then (.denied, s) else (.ok, s.fset CLK_STAT_MGTSRC 1)
  | _ => (.denied, s)

/-- MOVEBEAT. -/
def execMovebeat (rq : Req) (s : State) : Result := .next (s.regWriteAccess rq 0xF000020004 (clkCmdOp 1))

/-- MOVEMGT. -/
def execMovemgt (rq : Req) (s : State) : Result := .next (s.regWriteAccess rq 0xF000020004 (clkCmdOp 2))

/-- Writes of the CLK block: a PLL in use stays enabled; a disabled PLL is not locked. -/
def clkWrite (off v : Nat) (s : State) : Rsp × State :=
  if off = 4 then clkCmdOp v s
  else if 0x14 ≤ off ∧ off < 0x28 then
    let n := (off - 0x10) / 4
    if ¬ bitOf v 0 ∧ ((n = 1 ∧ s.fbit CLK_STAT_BEATSRC) ∨ (n = 4 ∧ s.fbit CLK_STAT_MGTSRC)) then (.denied, s)
    else
      let (r, s) := tableWrite regsCLK (0xF000020000 + off) v s
      (r, if bitOf v 0 then s else s.fset (pllLock n) 0)
  else tableWrite regsCLK (0xF000020000 + off) v s

/-- Reads of the CLK block. -/
def clkRead (off : Nat) (s : State) : Nat × State := tableRead regsCLK (0xF000020000 + off) s

/-! ### Ownership (R378, R379) -/

/-- A code that may claim. -/
def claimant (o : Nat) : Bool := (decide (1 ≤ o) && decide (o ≤ 5)) || (decide (0x40 ≤ o) && decide (o < 0x80))

/-- What a release leaves behind. -/
def releaseEffect (r : Nat) (s : State) : State :=
  if h : r < 8 then
    (s.fset (TB_TDCCTL_EDGE r) 0).modTdc ⟨r, h⟩ (fun c => { c with results := [] })
  else if 28 ≤ r ∧ r < 40 then launchDiscard (r - 28) s
  else s

/-- Ends an ownership command. -/
def ownDone (res r : Nat) (s : State) : State := (s.fset PWR_OWNSTAT_RES res).fset PWR_OWNSTAT_CUR (s.owner r)

/-- Sets an owner; the TDC channel's own OWNER field follows. -/
def setOwner (r o : Nat) (s : State) : State :=
  let s := s.fset (PWR_OWN_OWNER r) o
  if r < 8 then s.fset (TB_TDCCTL_OWNER r) o else s

/-- A write of PWR_OWNCMD. -/
def ownCmdOp (v : Nat) (s : State) : Rsp × State :=
  let o := bitsOf v 16 8
  let r := bitsOf v 8 6
  let op := v % 4
  if op ≠ 1 ∧ op ≠ 2 then (.denied, s)
  else if 43 < r then (.ok, s.fset PWR_OWNSTAT_RES 3)
  else if op = 1 ∧ ¬ claimant o then (.ok, ownDone 3 r s)
  else if op = 2 then (.ok, ownDone 1 r (setOwner r 0 (releaseEffect r s)))
  else
    let cur := s.owner r
    if cur = 0 ∨ cur = o then (.ok, ownDone 1 r (setOwner r o s))
    else
      let s := ((s.fset PWR_STAT_OWNREF 1).bump PWR_OWNREFCNT_N).log' PWR_OWNREFCNT_N false 4 0xFF [r, cur, o]
      (.ok, ownDone 2 r s)

/-- CLAIM. -/
def execClaim (rq : Req) (idx owner : Nat) (s : State) : Result :=
  .next (s.regWriteAccess rq 0xF000010200 (ownCmdOp (1 + idx % 64 * 256 + owner % 256 * 65536)))

/-- RELEASE. -/
def execOwnershipRelease (rq : Req) (idx owner : Nat) (s : State) : Result :=
  .next (s.regWriteAccess rq 0xF000010200 (ownCmdOp (2 + idx % 64 * 256 + owner % 256 * 65536)))

/-! ### Registers of the PWR block (R382) -/

/-- A_c in µJ; how a fraction rounds is free. -/
def acctLevel (s : State) (c : Nat) : Nat :=
  let a := acctOf s c
  wrapTo 32 (if a % 1000 = 0 then a / 1000 else a / 1000 + (Config.openFn Site.levelRound [c, (a + 65535000).toNat] % 2 : Nat))

/-- Reads of the PWR block. -/
def pwrRead (off : Nat) (s : State) : Nat × State :=
  if 0x84 ≤ off ∧ off < 0xD0 ∧ off % 16 = 4 then (acctLevel s ((off - 0x84) / 16), s)
  else if 0x100 ≤ off ∧ off < 0x12C then
    let u := (off - 0x100) / 4
    (b2n (s.lane (unitLane u)).gated * 2 ^ 31 + s.fget (PWR_IDLE_T u), s)
  else if off = 0x140 then (govStat s, s)
  else if 0x8000 ≤ off then (leVal (memRead s.retMem (off - 0x8000) 4), s)
  else tableRead regsPWR (0xF000010000 + off) s

/-- Writes of the PWR block. -/
def pwrWrite (off v : Nat) (s : State) : Rsp × State :=
  if off = 8 then dcmdOp v s
  else if off = 0x40 ∧ (bitsOf v 24 8 ≤ bitsOf v 16 8 ∨ bitsOf v 16 8 ≤ bitsOf v 8 8) then (.denied, s)
  else if off = 0x200 then ownCmdOp v s
  else if 0x8000 ≤ off then (.ok, { s with retMem := memWrite s.retMem (off - 0x8000) (leBytes 4 v) })
  else tableWrite regsPWR (0xF000010000 + off) v s

/-- The conditions of POWER that the PWR block gives (R372, R382). -/
def pwrLine (s : State) : Bool :=
  (s.fbit PWR_CTL_OWNIE && s.fbit PWR_STAT_OWNREF) || (s.fbit PWR_CTL_RETIE && s.fget PWR_RETFAIL_B != 0) ||
  (s.fbit PWR_CTL_THIE && (s.fbit PWR_STAT_THOT || s.fbit PWR_STAT_TOVER)) ||
  (s.fbit PWR_CTL_SFWIE && s.fbit PWR_STAT_SFWL) || (s.fget PWR_WAKESRC_SRC &&& s.fget PWR_WAKEEN_EN) != 0

end Sys2Proof.Machine
end

