-- ==== Sys2Proof/Machine/LaneMem.lean ====
section
/-! DEFINITION. Memory accesses of lanes and other requesters (R91, R102, R343, R472, R497), and the stores that wait in a
bank's store buffer. -/
namespace Sys2Proof.Machine

open Reg

/-- Changes the failover engine. -/
def State.modFo (f : Failover → Failover) (s : State) : State := { s with fo := f s.fo }

/-- Writes of the checkpoint memory that are refused while a configuration is admitted (R342): the role header, the
slot-table copy, the pin images and the task directory. -/
def ckptDenied (s : State) (a n : Nat) : Bool :=
  match regionOf a with
  | .checkpoint off =>
    let o := off % 0x600000
    let hits := fun (lo len : Nat) => decide (o < lo + len) && decide (lo < o + n)
    s.adm && (hits 0x500000 0x980 || hits 0x502000 0x800 || hits 0x510000 0x40000)
  | _ => false

/-- A corrected error in a memory of a physical group is counted; an event says when the count reaches the policy within
1 s (check 10 of R339). -/
def countCecc (a n : Nat) (s : State) : State :=
  let hits := s.cecc.any (fun w => decide (w * 8 < a + n) && decide (a < w * 8 + 8))
  let g := match regionOf a with
    | .sram w _ => w
    | .laneMem g _ _ => g
    | _ => 5
  if h : g < 5 then
    if ¬ hits then s
    else
      let l := (s.fo.ceccAt[g].filter (fun t => decide (s.now < t + secUnits))) ++ [s.now]
      let s := (s.bump (FAILOVER_CECC_N g)).modFo (fun f => { f with ceccAt := f.ceccAt.set g l })
      if l.length = s.fget FAILOVER_POL_CECC then s.log' (FAILOVER_CECC_N g) false 5 0xFF [g] else s
  else s

/-- Reads `n` bytes of memory for a requester, as a number; the alignment window shows a closed slot of the store (R281). -/
def memReadAcc (rq : Req) (a n : Nat) (kind : AccKind) (s : State) : Rsp × Nat × State :=
  let g := s.gate rq.vmid a n false
  if g.rsp ≠ .ok then (g.rsp, 0, s.recordFault rq a kind g.rsp g.dom 0)
  else
  match regionOf a with
  | .rom o => (.ok, leVal ((List.range n).map (fun i => BitVec.ofNat 8 (Config.openFn Site.rom [o + i]))), s)
  | .align o =>
    match alignTarget s o with
    | none => (.denied, 0, s.recordFault rq a kind .denied 0xF 0)
    | some d => if s.eccHit d n then (.ecc, 0, s.recordFault rq a kind .ecc 0xF 0) else (.ok, s.rdN d n, s)
  | _ =>
    if s.eccHit (s.canon a) n then (.ecc, 0, s.recordFault rq a kind .ecc 0xF 0)
    else (.ok, s.rdN (s.canon a) n, countCecc (s.canon a) n s)

/-- Writes bytes of memory for a requester; the alignment window takes none (R281). -/
def memWriteAcc (rq : Req) (a : Nat) (bs : List Byte) (kind : AccKind) (s : State) : Rsp × State :=
  let g := s.gate rq.vmid a bs.length true
  if g.rsp ≠ .ok then (g.rsp, s.recordFault rq a kind g.rsp g.dom 0)
  else if ckptDenied s a bs.length ∨ (0x5000000000 ≤ a ∧ a < 0x5080000000) then
    (.denied, s.recordFault rq a kind .denied 0xF 0)
  else if s.eccPartial (s.canon a) bs.length then (.ecc, s.recordFault rq a kind .ecc 0xF 0)
  else (.ok, s.wr (s.canon a) bs)

/-- The requester of a lane's bank (R473). -/
def laneReq (l : Fin 52) (inG : Bool) (vmid : Nat) : Req := ⟨laneIdOf l, vmid, inG⟩

/-- The ordering region of R91 a physical address belongs to: DRAM, one cluster's SRAM, one lane's memory, checkpoint. -/
def orderRegion (s : State) (a : Nat) : Nat :=
  match regionOf (s.canon a) with
  | .dram _ => 0
  | .sram w _ => 1 + w
  | .laneMem g l _ => 16 + 8 * g + l
  | .checkpoint _ => 200
  | _ => 201

/-- A buffered store reaches its target: its response and the new state. -/
def storeOut (l : Fin 52) (inG : Bool) (b : BufStore) (s : State) : Rsp × State :=
  memWriteAcc (laneReq l inG b.vmid) b.pa b.bytes .write s

/-- Removes entry `i` of a bank's store buffer. -/
def dropBuf (l : Fin 52) (inG : Bool) (i : Nat) (s : State) : State :=
  s.modLane l (fun x =>
    if inG then { x with g := { x.g with sbuf := x.g.sbuf.eraseIdx i } }
    else { x with f := { x.f with sbuf := x.f.sbuf.eraseIdx i } })

/-- Keeps a posted-store error of a lane until its exception is taken (R102). -/
def notePosted (l : Fin 52) (pa : Nat) (r : Rsp) (s : State) : State :=
  s.modLane l (fun x => { x with posted := x.posted ++ [(pa, rspCode r)] })

/-- Every buffered store of a bank reaches its target, oldest first. -/
def drainBuf (l : Fin 52) (inG : Bool) (s : State) : State :=
  let bs := if inG then (s.lane l).g.sbuf else (s.lane l).f.sbuf
  let s := s.modLane l (fun x => if inG then { x with g := { x.g with sbuf := [] } } else { x with f := { x.f with sbuf := [] } })
  s.each bs (fun b s =>
    let (r, s) := storeOut l inG b s
    if r = .ok then s else notePosted l b.pa r s)

/-- The bytes a lane's bank sees at a physical address: memory with the bank's buffered stores over it (R90). -/
def seenByte (s : State) (buf : List BufStore) (a : Nat) : Byte :=
  buf.foldl (fun v b => if b.pa ≤ a ∧ a < b.pa + b.bytes.length then b.bytes.getD (a - b.pa) 0 else v) (memGet s.mem (s.canon a))

/-- Whether buffered stores cover every byte of a range. -/
def coveredBy (buf : List BufStore) (a n : Nat) : Bool :=
  (List.range n).all (fun i => buf.any (fun b => decide (b.pa ≤ a + i) && decide (a + i < b.pa + b.bytes.length)))

/-- A lane's read of normal memory: buffered stores of the bank are seen first (R90). -/
def laneRead (l : Fin 52) (inG : Bool) (a n : Nat) (kind : AccKind) (s : State) : Rsp × Nat × State :=
  let x := s.lane l
  let b := if inG then x.g else x.f
  if coveredBy b.sbuf a n then (.ok, leVal ((List.range n).map (fun i => seenByte s b.sbuf (a + i))), s)
  else
    let (r, v, s) := memReadAcc (laneReq l inG b.vmid.toNat) a n kind s
    if r ≠ .ok ∨ b.sbuf = [] then (r, v, s)
    else (r, leVal ((List.range n).map (fun i => seenByte s b.sbuf (a + i))), s)

end Sys2Proof.Machine
end

