-- ==== Sys2Proof/Machine/Desc.lean ====
section
/-! DEFINITION. Task descriptors and what the dispatchers do with them (spec file 06): the checks of take-up, the input
latch, forces, the output copy and the checkpoint record. -/
namespace Sys2Proof.Machine

open Reg

/-! ### Descriptors (R171, R173, R190, R344) -/

/-- The fields of a 64-byte descriptor. -/
def parseDesc (b : List Byte) : Desc :=
  { gen := leAt b 0 2, en := bitOf (leAt b 2 1) 6, cls := leAt b 2 1 % 4, cluster := bitsOf (leAt b 3 1) 4 3,
    lane := leAt b 3 1 % 8, flim := leAt b 4 1, fact := bitOf (leAt b 5 1) 0, omapn := leAt b 6 1, pc := leAt b 8 4,
    sp := leAt b 0xC 4, arg := leAt b 0x10 4, imgI := leAt b 0x14 4, imgQ := leAt b 0x18 4, imgM := leAt b 0x1C 4,
    stg := leAt b 0x20 2, lsize := leAt b 0x22 2, frcOfs := leAt b 0x24 4 % 2 ^ 22, frcCap := leAt b 0x27 1,
    omap := leAt b 0x28 4 % 2 ^ 22, safe := leAt b 0x2C 4 % 2 ^ 22, chkSize := leAt b 0x30 4, period := leAt b 0x34 4,
    deadline := leAt b 0x38 4, mine := leAt b 0x3C 4, raw := b }

/-- The base of an image area in data memory (R78). -/
def areaBase (w : Nat) : Nat := w % 65536

/-- The size of an image area (R78). -/
def areaSize (w : Nat) : Nat := bitsOf w 16 15

/-- The image descriptor of area 0 I, 1 Q, 2 M. -/
def Desc.area (d : Desc) (a : Nat) : Nat := if a = 0 then d.imgI else if a = 1 then d.imgQ else d.imgM

/-- The largest size of an image area (R103). -/
def areaMax (a : Nat) : Nat := if a = 1 then 0x2000 else 0x4000

/-- An image descriptor word within the layout of R78 and the limits of R103. -/
def areaOk (a w : Nat) : Bool :=
  !bitOf w 31 && areaBase w % 8 == 0 && areaSize w % 8 == 0 && decide (areaSize w ≤ areaMax a) &&
    decide (areaBase w + areaSize w ≤ 65536)

/-- Two ranges of a memory do not overlap; an empty range overlaps nothing. -/
def apart (a n b m : Nat) : Bool := n == 0 || m == 0 || decide (a + n ≤ b) || decide (b + m ≤ a)

/-- Ranges no two of which overlap. -/
def allApart : List (Nat × Nat) → Bool
  | [] => true
  | r :: l => l.all (fun q => apart r.1 r.2 q.1 q.2) && allApart l

/-- A task the dispatchers hold: one that has been taken up and not dropped. -/
def Task.held (t : Task) : Bool := t.st != .idle

/-- Tasks of a role with a class test. -/
def roleTasks (s : State) (c : Nat) (p : Nat → Bool) : List (Nat × Task) :=
  s.tasks.filter (fun x => x.2.held && x.2.desc.cluster == c && p x.2.desc.cls)

/-- The bytes a class-0 task counts against the checkpoint budget (R190). -/
def chkCost (d : Desc) : Nat := d.chkSize + areaSize d.imgQ + 32

/-- The bytes its record body takes (R344). -/
def bodySize (d : Desc) : Nat := (chkCost d + 63) / 64 * 64

/-- Descriptor fields that break R171 or R173 by themselves. -/
def taskDescBad (b : List Byte) (gen : Nat) : Bool :=
  let d := parseDesc b
  let cls0 := d.cls == 0
  !bitOf (leAt b 2 1) 7 || d.gen != gen || bitsOf (leAt b 2 1) 2 4 != 0 || bitOf (leAt b 3 1) 7 || bitOf (leAt b 3 1) 3 ||
  decide (1 < leAt b 5 1) || decide (32 < d.omapn) || leAt b 7 1 != 0 || bitsOf (leAt b 0x24 4) 22 2 != 0 ||
  leAt b 0x28 4 / 2 ^ 22 != 0 || leAt b 0x2C 4 / 2 ^ 22 != 0 ||
  !areaOk 0 d.imgI || !areaOk 1 d.imgQ || !areaOk 2 d.imgM || d.stg % 8 != 0 || d.lsize % 8 != 0 ||
  decide (65536 < d.stg + d.lsize) ||
  !allApart [(areaBase d.imgI, areaSize d.imgI), (areaBase d.imgQ, areaSize d.imgQ), (areaBase d.imgM, areaSize d.imgM),
    (d.stg, d.lsize)] ||
  decide (areaSize d.imgI < 32 + d.lsize) || decide (128 < d.frcCap) || d.frcOfs % 16 != 0 ||
  decide (0x400000 < d.frcOfs + 16 * d.frcCap) || d.omap % 16 != 0 || decide (0x400000 < d.omap + 16 * d.omapn) ||
  d.safe % 8 != 0 || decide (0x400000 < d.safe + areaSize d.imgQ) ||
  (cls0 && (decide (8192 < d.lsize) || d.omapn == 0)) || d.chkSize % 8 != 0 || decide (1048576 < d.chkSize) ||
  (!cls0 && d.chkSize != 0) ||
  (if d.cls = 1 then decide (d.period < 10) || decide (10000000 < d.period) || decide (d.deadline < 10) ||
      decide (d.period < d.deadline)
   else d.period != 0 || d.deadline != 0 || d.mine != 0)

/-- The body ranges of a role's records that must stay, apart from those of task `t`; a task whose exchange is not sealed
keeps its old body (R344). -/
def bodies (s : State) (c t : Nat) : List (Nat × Nat) :=
  (roleTasks s c (· == 0)).flatMap (fun x =>
    (if x.1 = t then [] else [(x.2.bofs, bodySize x.2.desc)]) ++ (x.2.oldBofs.map (fun o => (o.1, o.2))).toList)

/-- The first place at which a body of `n` bytes fits in a half (R344). -/
def firstFit (used : List (Nat × Nat)) (n : Nat) : Option Nat :=
  let starts := 0 :: used.map (fun r => r.1 + r.2)
  let ok := fun (o : Nat) => decide (o + n ≤ 0x200000) && used.all (fun r => apart o n r.1 r.2)
  let fits := starts.filter ok
  match fits with
  | [] => none
  | o :: l => some (l.foldl min o)

/-- The lowest directory entry of a role region that no class-0 task holds. -/
def freeDir (s : State) (c : Nat) : Nat :=
  let used := (roleTasks s c (· == 0)).map (fun x => x.2.dir)
  ((List.range 256).find? (fun d => !used.contains d)).getD 255

/-- What take-up reports for a descriptor: 0, or the lowest code of R199 that applies. `old` is the task that the
descriptor replaces in an exchange. -/
def descErr (s : State) (t gen : Nat) (b : List Byte) : Nat :=
  let d := parseDesc b
  let v := t / 256
  let e := (s.vpi v).ent
  let others := s.tasks.filter (fun x => x.2.held && x.1 != t)
  let caps := ((others.filter (fun x => x.1 / 256 == v)).map (fun x => x.2.desc.frcCap)).sum + d.frcCap
  let used := ((roleTasks s d.cluster (· == 0)).filter (fun x => x.1 != t)).map (fun x => chkCost x.2.desc)
  let kept := (bodies s d.cluster t).map (·.2)
  firstErr [(1, taskDescBad b gen || decide (4096 < caps) || !e.v || decide (4 < d.cluster) ||
      (decide (d.cluster < 4) && !bitOf e.lanes (8 * d.cluster + d.lane))),
    (2, d.cluster == 4 || (decide (d.cluster < 4) && !s.domOn (s.groupOf d.cluster))),
    (8, d.cls == 0 && (decide (0x200000 < used.sum + chkCost d) || decide (0x200000 < kept.sum + bodySize d) ||
      (firstFit (bodies s d.cluster t) (bodySize d)).isNone))]

/-- The descriptor of task `t` in its VPI's task table, read by the dispatcher. -/
def readDesc (t : Nat) (s : State) : List Byte × State :=
  s.engRead 21 0xFF ((s.vpi (t / 256)).ent.ttab * 4096 + 64 * (t % 256)) 64

/-! ### Data memory -/

/-- The flat number of the lane a task is placed on. -/
def taskLane (s : State) (d : Desc) : Fin 52 := clusterLane (s.groupOf d.cluster) d.lane

/-- The address of a data-memory byte of a task's lane. -/
def taskData (s : State) (d : Desc) (off : Nat) : Nat := dataAddr (s.groupOf d.cluster) d.lane off

/-- The address of a byte of a task's cluster SRAM. -/
def taskSram (s : State) (d : Desc) (off : Nat) : Nat := sramAddr (s.groupOf d.cluster) off

/-! ### Forces (R185 to R189) -/

/-- A force entry as read: valid and usable, its area, width in bytes (0: a bit), offset, bit, value, tag. -/
structure Force where
  idx : Nat
  area : Nat
  nb : Nat
  ofs : Nat
  bit : Nat
  val : Nat
  tag : Nat
  deriving DecidableEq, Repr

/-- The width in bytes of a force's width code. -/
def forceWidth (w : Nat) : Nat := if w = 0 then 0 else 2 ^ (w - 1)

/-- Entry `i` of a task's force list: nothing while V = 0; `false` marks an entry that is ignored with a warning, one
outside its area included. -/
def readForce (s : State) (d : Desc) (i : Nat) : Option (Bool × Force) :=
  let b := s.rd (taskSram s d (d.frcOfs + 16 * i)) 16
  let aw := leAt b 4 1
  if ¬ bitOf aw 7 then none
  else
    let w := bitsOf aw 4 3
    let a := aw % 4
    let ofs := leAt b 6 2
    let nb := forceWidth w
    let ok := decide (w < 5) && decide (a < 3) && bitsOf aw 2 2 == 0 && (nb == 0 || ofs % nb == 0) &&
      decide (ofs + max nb 1 ≤ areaSize (d.area a))
    some (ok, ⟨i, a, nb, ofs, if w = 0 then leAt b 5 1 % 8 else 0, leAt b 8 8, leAt b 0 4⟩)

/-- The force list as read at one moment. -/
def readForces (s : State) (d : Desc) : List (Bool × Force) := (List.range d.frcCap).filterMap (readForce s d)

/-- A forced value put into the bytes of its area. -/
def Force.put (f : Force) (area : List Byte) : List Byte :=
  if f.nb = 0 then
    let b := (area.getD f.ofs 0).toNat
    putAt area f.ofs [BitVec.ofNat 8 (putBit b f.bit (bitOf f.val 0))]
  else putAt area f.ofs (leBytes f.nb f.val)

/-- Applies forces to an area of a lane's data memory. -/
def applyForces (d : Desc) (fs : List Force) (a : Nat) (s : State) : State :=
  let mine := fs.filter (fun f => f.area == a)
  if mine = [] then s
  else
    let base := taskData s d (areaBase (d.area a))
    let bytes := s.rd base (areaSize (d.area a))
    s.wr base (mine.foldl (fun b f => f.put b) bytes)

/-- Logs entries that become or cease to be valid, with TAG and area, and keeps the valid set (R189); a bad entry is
logged once per take-up (R185). -/
def logForces (t : Nat) (fs : List (Bool × Force)) (s : State) : State :=
  match s.task t with
  | none => s
  | some x =>
    let cur := (fs.filter (·.1)).map (fun f => (f.2.idx, f.2.tag, f.2.area))
    let gone := x.forced.filter (fun f => !cur.contains f)
    let new := cur.filter (fun f => !x.forced.contains f)
    let bad := fs.any (fun f => !f.1) && !x.warned
    let s := s.modTask t (fun x => { x with forced := cur, warned := x.warned || bad })
    let s := s.each (gone ++ new) (fun f s => s.log' VPI_TRUN_STATE true 6 (t / 256) [f.2.1, f.2.2])
    if bad then s.log' VPI_TRUN_STATE false 2 (t / 256) [t] else s

/-! ### Input latch (R175 to R177) -/

/-- The cycle header. -/
def cycleHeader (cycle nper flags time sq : Nat) : List Byte :=
  leBytes 8 cycle ++ leBytes 4 nper ++ leBytes 2 flags ++ [0, 0] ++ tripleBytes time ++ leBytes 4 sq

/-- Latches the image of task `t` (R176): its header, the staging copy, the forces of all areas. `time` is the header's
time triple; `old` says which message time counts as stale. -/
def latchImage (t time sq : Nat) (old : Nat → Bool) (s : State) : List Byte × State :=
  match s.task t with
  | none => ([], s)
  | some x =>
    let d := x.desc
    let fs := readForces s d
    let valid := (fs.filter (·.1)).map (·.2)
    let s := logForces t fs s
    let stale := (s.lane (taskLane s d)).cgroups.any (fun g => !apart g.off g.len d.stg d.lsize && old g.time)
    let nper := if d.cls < 2 then 1 + x.nskip else 1
    let cycle := (x.cycle + 1) % 2 ^ 64
    let flags := b2n x.first + 2 * b2n x.restored + 4 * b2n (valid != []) + 8 * b2n stale
    let h := cycleHeader cycle nper flags time sq
    let i := taskData s d (areaBase d.imgI)
    let s := s.wr i (h ++ s.rd (taskData s d d.stg) d.lsize)
    let s := applyForces d valid 2 (applyForces d valid 1 (applyForces d valid 0 s))
    (h, s.modTask t (fun x => { x with cycle := cycle, nskip := 0, nper := nper, first := false, restored := false }))

/-! ### Output copy (R178 to R180, R184) -/

/-- A used output-map entry. -/
structure OutEntry where
  qofs : Nat
  len : Nat
  kind : Nat
  dest : Nat
  daddr : Nat
  deriving DecidableEq, Repr

/-- The used entries of a task's output map whose fields are valid and whose range lies in the Q area. -/
def readOmap (s : State) (d : Desc) : List OutEntry :=
  (List.range d.omapn).filterMap (fun i =>
    let b := s.rd (taskSram s d (d.omap + 16 * i)) 16
    let e : OutEntry := ⟨leAt b 0 2, leAt b 2 2, leAt b 4 1, leAt b 6 2, leAt b 8 4⟩
    let ok := bitOf (leAt b 5 1) 7 && decide (e.kind < 4) && decide (1 ≤ e.len) && decide (e.len ≤ 1024) &&
      (e.kind != 0 || e.len == 1) && decide (e.qofs + e.len ≤ areaSize d.imgQ)
    if ok then some e else none)

/-- The last entry of its unit: no later entry has its kind and destination (R179). -/
def unitEnds (e : OutEntry) (later : List OutEntry) : Bool := !later.any (fun f => f.kind == e.kind && f.dest == e.dest)

/-- Delivers the entries that are not kind 0, each unit when its last entry has been written (R179). -/
def deliverUnits (t : Nat) (d : Desc) (q : List Byte) (all : List OutEntry) : List OutEntry → State → State
  | [], s => s
  | e :: l, s =>
    let v := t / 256
    let bytes := (all.filter (fun f => f.kind == e.kind && f.dest == e.dest)).flatMap (fun f => sliceOf q f.qofs f.len)
    let s :=
      if e.kind = 3 then
        (if e.daddr % 8 = 0 ∧ e.daddr + e.len ≤ 0x400000 then s.wr (taskSram s d e.daddr) (sliceOf q e.qofs e.len) else s)
      else if ¬ unitEnds e l then s
      else if e.kind = 1 then pubDeliver v e.dest (d.cls == 0) bytes s
      else if e.kind = 2 then ioDeliver v e.dest bytes s
      else s
    deliverUnits t d q all l s

/-- Performs the output copy of task `t`, from the safe image when `safe`; answers the Q area as copied (R179, R184). -/
def outputCopy (t : Nat) (safe : Bool) (s : State) : List Byte × State :=
  match s.task t with
  | none => ([], s)
  | some x =>
    let d := x.desc
    let fs := ((readForces s d).filter (·.1)).map (·.2)
    let qn := areaSize d.imgQ
    let s := if safe then s else applyForces d fs 1 s
    let q := if safe then (fs.filter (fun f => f.area == 1)).foldl (fun b f => f.put b) (s.rd (taskSram s d d.safe) qn)
      else s.rd (taskData s d (areaBase d.imgQ)) qn
    let m := readOmap s d
    let s := s.each (m.filter (fun e => e.kind == 0)) (fun e s =>
      dtripCommand (t / 256) t (e.dest % 256) (bitOf (q.getD e.qofs 0).toNat 0) s)
    (q, deliverUnits t d q m m s)

/-! ### Checkpoint records (R342 to R345) -/

/-- The address of a byte of a role's checkpoint region. -/
def ckpt (c off : Nat) : Nat := 0x4800000000 + 0x600000 * c + off

/-- The address of a byte of a directory entry. -/
def dirAddr (c dir off : Nat) : Nat := ckpt c (0x510000 + 0x400 * dir + off)

/-- CUR of a directory entry: the half that holds the sealed record, or 0. -/
def dirCur (s : State) (c dir : Nat) : Nat := s.rdN (dirAddr c dir 0) 4 % 4

/-- The half an activation writes: the one CUR does not name (R344). -/
def nextHalf (s : State) (c dir : Nat) : Nat := if dirCur s c dir = 1 then 2 else 1

/-- The address of a body. -/
def bodyAddr (c half bofs off : Nat) : Nat := ckpt c (0x200000 * (half - 1) + bofs + off)

/-- A dispatcher write of checkpoint memory; the answer says whether it completed with an error response (check 9). -/
def chkWrite (g a : Nat) (bs : List Byte) (s : State) : Bool × State :=
  let rq := engineReq 0x04 0xFF
  let gt := s.gate 0xFF a 8 true
  if gt.rsp ≠ .ok then (true, s.recordFault rq a .engineWrite gt.rsp gt.dom g)
  else if s.eccPartial a bs.length then (true, s.recordFault rq a .engineWrite .ecc 0xF g)
  else (false, s.wr a bs)

/-- The open edge-init entries of a task on its lane. -/
def openEdges (s : State) (t : Nat) (d : Desc) : List Nat :=
  ((s.lane (taskLane s d)).edges.filter (fun e => e.1 == t)).map (·.2)

/-- The record header (R343). -/
def recordHeader (x : Task) (t : Nat) (items : List ChkItem) (edges : List Nat) (q body : List Byte) : List Byte :=
  let itemWords := items.flatMap (fun i => leBytes 4 ((i.bytes.length / 8 - 1) * 65536 + i.src))
  let edgeWords := edges.flatMap (fun e => leBytes 4 (2 ^ 31 + e))
  leBytes 4 x.cycle ++ leBytes 2 t ++ leBytes 2 x.desc.gen ++ leBytes 1 items.length ++ leBytes 1 edges.length ++
    leBytes 2 q.length ++ leBytes 4 (items.map (fun i => i.bytes.length)).sum ++ leBytes 4 x.bofs ++
    leBytes 4 (crc32c body) ++ zeroBytes 8 ++ padTo 64 x.desc.raw ++ padTo 64 edgeWords ++ padTo 96 itemWords

/-- Steps 1 and 2 of sealing (R344) for an activation's items and copied Q area. `true` answers an error response. -/
def writeRecord (t : Nat) (run : C0Run) (q : List Byte) (s : State) : Bool × State :=
  match s.task t with
  | none => (false, s)
  | some x =>
    let c := x.desc.cluster
    let edges := openEdges s t x.desc
    if 24 < run.items.length ∨ 16 < edges.length then (false, s.log' VPI_TRUN_STATE true 6 (t / 256) [t])
    else
      let half := nextHalf s c x.dir
      let body := run.header ++ q ++ run.items.flatMap (·.bytes)
      let h := recordHeader x t run.items edges q body
      let (e1, s) := chkWrite x.desc.cluster (bodyAddr c half x.bofs 0) body s
      let (e2, s) := chkWrite x.desc.cluster (dirAddr c x.dir (0x100 * half)) (padTo 256 h) s
      (e1 || e2, s.modTask t (fun x => { x with unsealed := some (half, x.oldBofs.isSome) }))

end Sys2Proof.Machine
end

