-- ==== Sys2Proof/Machine/Irq.lean ====
section
/-! DEFINITION. The interrupt sources of a lane (R97, R101): which IP bits are 1 and where each is routed. -/
namespace Sys2Proof.Machine

open Reg

/-- The interrupt condition of each register block, by block number; PWR and SYS raise POWER instead. Conditions that a
rule names only as an instant ("on each overrun") have no level and show in no IP bit (assumption 31). -/
def blockLine (s : State) (b : Nat) : Bool :=
  match b with
  | 3 => (s.fbit BEZEL_CTL_RATEIE && s.fbit BEZEL_STAT_RATEREF) || (s.fbit BEZEL_CTL_HOTIE && s.fbit BEZEL_STAT_HOTL) ||
      (s.fbit BEZEL_CTL_SLACKIE && s.fbit BEZEL_STAT_SLACKUP)
  | 6 => (s.fbit FAILOVER_CTL_DONEIE && s.fbit FAILOVER_STAT_DONE) || (s.fbit FAILOVER_CTL_LOSTIE && s.fbit FAILOVER_STAT_LOST)
  | 7 => keyLine s
  | 9 => (s.fbit TB_CTL_REFIE && s.fbit TB_STAT_REFLOSTL) || (s.fbit TB_CTL_TSQIE && decide (12 ≤ s.tb.tsq.length)) ||
      (s.fbit TB_CTL_STEPIE && s.fbit TB_STAT_STEPREF)
  | 10 => netLine s
  | 12 => sfeLine s
  | 13 => wamsLine s
  | 14 => s.fbit CLASP_CTL_TTIE && s.fbit CLASP_STAT_TTNEW
  | 15 => (s.fbit EVREC_CTL_FULLIE && s.fbit EVREC_STAT_FULLP) || (s.fbit EVREC_CTL_DROPIE && s.fbit EVREC_STAT_DROPQ)
  | 16 => s.fbit ACQ_CTL_DONEIE && s.fbit ACQ_STAT_DONE
  | 18 => ioLine s
  | 21 => (s.fbit VPI_CTL_RSTIE && s.fbit VPI_STAT_RSTDONE) ||
      (s.fbit VPI_TXSTAT_IE && (s.fbit VPI_TXSTAT_DONE || s.fget VPI_TXSTAT_ERR != 0))
  | 22 => lktLine s
  | _ => false

/-- The lowest block whose interrupt condition holds: the line number of EVENT on the management lanes (assumption 31). -/
def eventLine (s : State) : Option Nat := (List.range 24).find? (blockLine s)

/-- The conditions of POWER (R339, R372, R473, R474). -/
def powerCond (s : State) : Bool :=
  pwrLine s || (s.fbit SYS_STAT_FIE && s.fbit SYS_FSYND0_VALID) || (s.fbit SYS_STAT_WDIE && s.power.wdHalf) ||
    s.power.retireNote

/-- Entries of a dirty log that software has not read (R86). -/
def DirtyLog.unread (d : DirtyLog) : Nat := (d.head + 2 ^ d.size - d.tail % 2 ^ d.size) % 2 ^ d.size

/-- DLOGCTL.HALF (R80). -/
def DirtyLog.half (d : DirtyLog) : Bool := decide (2 ^ d.size ≤ 2 * d.unread) && decide (0 < d.size)

/-- The dirty log of a cluster lane. -/
def laneDlog (s : State) (l : Fin 52) : DirtyLog := if h : l.val / 8 < 5 then s.dlogs[l.val / 8] else ⟨0, false, false, 0, 0, 0⟩

/-- A lane is a management lane. -/
def isMgmt (l : Fin 52) : Bool := decide (40 ≤ l.val) && decide (l.val < 44)

/-- A lane is an analytic lane. -/
def isAnalytic (l : Fin 52) : Bool := decide (44 ≤ l.val)

/-- A lane belongs to a cluster. -/
def isCluster (l : Fin 52) : Bool := decide (l.val < 40)

/-- IP (R72, R101). TIMER, DISPATCH and DEBUG have no source that the spec names (assumption 31). -/
def ipBits (s : State) (l : Fin 52) : Nat :=
  let x := s.lane l
  b2n (bitOf x.g0cause.toNat 31) * 2 + b2n (isMgmt l && (eventLine s).isSome) * 8 + b2n x.ipi.isSome * 16 +
    b2n (isMgmt l && powerCond s) * 32 +
    b2n (isCluster l && ((laneDlog s l).half || (laneDlog s l).ovf)) * 64

/-- A lane hosts an instance kernel: the context of one runs there or is held there. -/
def hostsKernel (x : Lane) : Bool :=
  (match x.cur with
   | some (v, none) => decide (v < 64)
   | _ => false) || x.ctxs.any (fun c => c.task.isNone)

/-- Interrupt `n` of a lane goes to K (R97). -/
def routesK (x : Lane) (n : Nat) : Bool := decide (n < 4) && hostsKernel x

/-- An interrupt is pending and enabled by KIE or SIE according to its routing (R130). -/
def enabledPending (s : State) (l : Fin 52) (k : KRegs) (n : Nat) : Bool :=
  let x := s.lane l
  bitOf (ipBits s l) n && (if routesK x n then bitOf k.kie.toNat n else bitOf x.sr.sie.toNat n)

/-- Some interrupt is pending and enabled: what completes a wait (R130). -/
def waitOver (s : State) (l : Fin 52) (k : KRegs) : Bool := (List.range 8).any (enabledPending s l k)

/-- The interrupt a lane takes at an instruction boundary: the lowest code whose conditions hold (R97, R101). -/
def takeable (s : State) (l : Fin 52) : Option Nat :=
  let x := s.lane l
  let st := x.f.status
  (List.range 8).find? (fun n => enabledPending s l x.k n && st.ie && !st.exl && !x.inG &&
    !(routesK x n && st.mode == .s))

end Sys2Proof.Machine
end

