-- ==== Sys2Proof/Machine/BankF.lean ====
section
/-! DEFINITION. Bank F contexts and the dispatch decision (R147 to R149, R320), with the exchange step of R194. -/
namespace Sys2Proof.Machine

open Reg

/-! ### Deficit arbitration (R165) -/

/-- The weight of a ticket index (R164). -/
def ticketWeight (s : State) (v : Nat) : Nat := if v = 64 then s.fget FAB_SUPW_W else max 1 (s.vpi v).ent.w

/-- The algorithm of R165: `cost v` is the COST in units of the oldest request with index `v`, if one waits. The loop ends
within four passes over the 65 indices. -/
def deficitGrant (w : Nat → Nat) (cost : Nat → Option Nat) : Nat → Deficit → Option Nat × Deficit
  | 0, d => (none, d)
  | n + 1, d =>
    let v := d.cursor
    let next := fun (x : Nat) => deficitGrant w cost n ⟨d.deficit.set v x, (v + 1) % 65⟩
    match cost v with
    | some c => if c ≤ nth d.deficit v then (some v, ⟨d.deficit.set v (nth d.deficit v - c), v⟩) else next (nth d.deficit v + w v)
    | none => next 0

/-- A grant with enough passes for every cost up to 4. -/
def grantOf (w : Nat → Nat) (cost : Nat → Option Nat) (d : Deficit) : Option Nat × Deficit := deficitGrant w cost 400 d

/-! ### Exchange step (R194, R195) -/

/-- One transfer of an exchange of task `t` on its lane. -/
def xferStep (t : Nat) (o n : Desc) (e : Xfer) (s : State) : State :=
  let src := taskData s o (areaBase (o.area e.srcArea) + e.src)
  let dst := taskData s o (areaBase (n.area e.dstArea) + e.dst)
  if e.kind = 0 then s.wr dst (s.rd src e.len)
  else if e.kind = 1 then s.wrN dst 1 (putBit (s.rdN dst 1) e.dstBit (bitOf (s.rdN src 1) e.srcBit))
  else if e.kind = 2 then
    let et := s.rdN src 4
    let et := if n.cls = 1 ∧ o.period ≠ n.period then et * o.period / n.period % 2 ^ 32 else et
    (s.wrN dst 4 et).wr (dst + 8) (s.rd (src + 8) 4)
  else
    let bit := e.dstArea * 2 ^ 17 + e.dst * 8 + e.dstBit
    s.modLane (taskLane s o) (fun x => { x with edges := x.edges ++ [(t, bit)] })

/-- Frees the edge-init entries of a task. -/
def freeEdges (t : Nat) (d : Desc) (s : State) : State :=
  s.modLane (taskLane s d) (fun x => { x with edges := x.edges.filter (fun e => e.1 != t) })

/-- The exchange step at the boundary of task `t`: transfers, logged releases, the new descriptor, FIRST (R194). -/
def exchangeStep (t : Nat) (s : State) : State :=
  match s.task t with
  | none => s
  | some x =>
    match x.exch with
    | none => s
    | some e =>
      let s := freeEdges t x.desc s
      let s := s.each e.xfers (xferStep t x.desc e.newDesc)
      let s := s.each e.rels (fun r s => s.log' VPI_TXSTAT_DONE true 6 (t / 256) [r])
      let old := if x.desc.cls = 0 then some (x.bofs, bodySize x.desc) else none
      let s := s.modTask t (fun x => { x with desc := e.newDesc, exch := none, first := true, warned := false,
                                              bofs := e.bofs, oldBofs := old,
                                              gens := if x.desc.gen = e.newDesc.gen then x.gens else x.gens + 1 })
      (s.fset VPI_TXSTAT_PEND 0).fset VPI_TXSTAT_DONE 1

/-! ### Contexts -/

/-- A register word. -/
def word (n : Nat) : Word := BitVec.ofNat 32 n

/-- STATUS of a bank F activation of a task: mode T, interrupts of K and S may be taken (assumption 32). -/
def taskStatus : Status := { xoff := false, timed := false, mode := .t, exl := false, bet := false, ie := true }

/-- The bank an activation of a task starts with (R66): PC, g30, g1, the image descriptors, VMID. -/
def taskBank (t : Nat) (d : Desc) : Bank :=
  let b := (bank0.setReg 30 (word d.sp)).setReg 1 (word d.arg)
  { b with pc := word d.pc, imgI := word d.imgI, imgQ := word d.imgQ, imgM := word d.imgM,
           vmid := BitVec.ofNat 8 (t / 256), status := taskStatus }

/-- The context of a VPI's kernel as START creates it (R320); `mark` is g2. -/
def kernelCtx (v mark : Nat) (e : VpiEntry) : Ctx :=
  let b := ((bank0.setReg 30 (word e.ksp)).setReg 1 (word v)).setReg 2 (word mark)
  { vmid := v, task := none, cls := 2, started := true, waiting := false, deadline := 0,
    bank := { b with pc := word e.kpc, vmid := BitVec.ofNat 8 v,
                     status := { xoff := false, timed := false, mode := .k, exl := false, bet := false, ie := false } },
    k := { kregs0 with st1root := word e.kst1 } }

/-- The lowest-numbered lane of LANES, as the flat number of the lane that holds that role now. -/
def kernelLane (s : State) (e : VpiEntry) : Option (Fin 52) :=
  ((List.range 32).find? (bitOf e.lanes)).map (fun i => clusterLane (s.groupOf (i / 8)) (i % 8))

/-- A context of a task whose next activation has not begun. -/
def freshCtx (t cls deadline : Nat) : Ctx :=
  { vmid := t / 256, task := some t, cls := cls, started := false, waiting := false, deadline := deadline, bank := bank0,
    k := kregs0 }

/-- Adds a context to a lane. -/
def addCtx (l : Fin 52) (c : Ctx) (s : State) : State :=
  s.modLane l (fun x => { x with ctxs := x.ctxs.filter (fun d => !(d.vmid == c.vmid && d.task == c.task)) ++ [c] })

/-- Removes the contexts of a lane that a test selects, the running one included: the lane then has none (R329). -/
def dropCtxs (l : Fin 52) (p : Nat → Option Nat → Bool) (s : State) : State :=
  let x := s.lane l
  let mine := match x.cur with
    | some (v, t) => p v t
    | none => false
  let s := if mine then drainBuf l false s else s
  s.modLane l (fun x =>
    let x := { x with ctxs := x.ctxs.filter (fun c => !p c.vmid c.task) }
    if mine then { x with cur := none, out := none, posted := [], st := if x.st = .stopped ∨ x.inG then x.st else .idle }
    else x)

/-- The running context as it is kept when another takes its place. -/
def runningCtx (s : State) (x : Lane) : Option Ctx :=
  x.cur.map (fun c =>
    let task := c.2.bind s.task
    { vmid := c.1, task := c.2, cls := (task.map (fun t => t.desc.cls)).getD 2, started := true, waiting := x.st == .waiting,
      deadline := (task.map (fun t => t.dlAt)).getD 0, bank := x.f, k := x.k })

/-- The budget state of a lane's cluster (R148); 0 where there is none. -/
def laneBudget (s : State) (l : Fin 52) : Nat := if isCluster l then s.fget (bstField (laneGroup l)) else 0

/-- A class is held by a budget state (R148); class 1 is limited in state 3 to its declared minimum energy (R366). -/
def ctxHeld (s : State) (l : Fin 52) (c : Ctx) : Bool :=
  let b := laneBudget s l
  if c.cls = 3 then decide (1 ≤ b)
  else if c.cls = 2 then decide (2 ≤ b)
  else match c.task.bind s.task with
    | some t => decide (3 ≤ b) && decide (t.desc.mine ≤ t.energy)
    | none => false

/-- A context that a dispatch decision may choose: of a VPI in RUN, not held, not in an unfinished wait; an activation that
has not begun needs its task in RUN. -/
def ctxReady (s : State) (l : Fin 52) (c : Ctx) : Bool :=
  (s.vpi c.vmid).st == .run && !ctxHeld s l c && (!c.waiting || waitOver s l c.k) &&
  (match c.task with
   | some t => c.started || (match s.task t with
     | some x => x.st == .run
     | none => false)
   | none => true)

/-- The class-1 context of earliest deadline; ties go to the lower VMID (R147). -/
def earliest : List Ctx → Option Ctx
  | [] => none
  | c :: l =>
    match earliest l with
    | none => some c
    | some d => if d.deadline < c.deadline ∨ (d.deadline = c.deadline ∧ d.vmid < c.vmid) then some d else some c

/-- The ticket index of a VMID. -/
def ticketIndex (v : Nat) : Nat := if v < 64 then v else 64

/-- The oldest context of a class with a ticket index. -/
def oldestOf (cs : List Ctx) (cls v : Nat) : Option Ctx := cs.find? (fun c => c.cls == cls && ticketIndex c.vmid == v)

/-- The choice of R147 among ready contexts, with the deficits of the lane moved on. -/
def chooseCtx (s : State) (l : Fin 52) (cs : List Ctx) : Option Ctx × State :=
  let x := s.lane l
  match earliest (cs.filter (fun c => c.cls == 1)) with
  | some c => (some c, s)
  | none =>
    let cls := if cs.any (fun c => c.cls == 2) then 2 else 3
    let (v, d) := grantOf (ticketWeight s) (fun v => (oldestOf cs cls v).map (fun _ => 1)) (if cls = 2 then x.arb2 else x.arb3)
    match v with
    | none => (none, s)
    | some v => (oldestOf cs cls v, s.modLane l (fun x => if cls = 2 then { x with arb2 := d } else { x with arb3 := d }))

/-- K's registers that a task's first activation on a lane starts with: those of its VPI's kernel there, or its KST1 alone
(assumption 32). -/
def taskKregs (s : State) (x : Lane) (v : Nat) : KRegs :=
  let base := { kregs0 with st1root := word (s.vpi v).ent.kst1 }
  match x.ctxs.find? (fun c => c.vmid == v && c.task.isNone) with
  | some c => { c.k with kcause := 0, kepc := 0, keval := 0, kestatus := 0 }
  | none => base

/-- An activation of a class-1 to class-3 task begins: exchange step, latch, registers (R170, R194). Class 1 takes its
exchange step at its release. -/
def startCtx (l : Fin 52) (c : Ctx) (s : State) : Ctx × State :=
  match c.task with
  | none => (c, s)
  | some t =>
    if c.started then (c, s)
    else
      let s := if c.cls = 1 then s else exchangeStep t s
      match s.task t with
      | none => (c, s)
      | some x =>
        let time := if x.desc.cls = 1 then x.relAt else s.now
        let limit := if x.desc.cls = 1 then usUnits x.desc.period else usUnits 1000000
        let s := (latchImage t time 0 (fun g => decide (g + limit < time)) s).2
        let s := s.modTask t (fun x => { x with active := true, actGens := if c.cls = 1 then x.actGens else x.gens })
        ({ c with started := true, bank := taskBank t x.desc, k := taskKregs s (s.lane l) c.vmid }, s)

/-- Puts a context on the lane: its bank and K's registers, with ST2ROOT from the VPI's entry (R320). XOFF is the lane's:
it stays as supervisor software left it (R89). -/
def loadCtx (l : Fin 52) (c : Ctx) (s : State) : State :=
  let (c, s) := startCtx l c s
  s.modLane l (fun x => { x with
    f := { c.bank with status := { c.bank.status with xoff := x.f.status.xoff } }, k := { c.k with st2root := word (s.vpi c.vmid).ent.st2 }, cur := some (c.vmid, c.task),
    st := if c.waiting then .waiting else .running, winBeats := 0 })

/-- A lane that the dispatcher can give to a context: powered, not stopped, halted or in bank G, with no access of bank F
outstanding. -/
def dispatchable (x : Lane) : Bool :=
  (x.st == .idle || x.st == .running || x.st == .waiting) && !x.halted && !x.retired && !x.inG && x.out.isNone

/-- The dispatch decision of a lane (R147). With `offer`, the running context gives way to any other that is ready, and
runs on at once when none is (R130). -/
def dispatch (l : Fin 52) (offer : Bool) (s : State) : State :=
  let x := s.lane l
  if ¬ isCluster l ∨ ¬ dispatchable x then s else
  let mine := runningCtx s x
  let others := x.ctxs.filter (ctxReady s l)
  let pool := if offer then others else others ++ (mine.filter (ctxReady s l)).toList
  match chooseCtx s l pool with
  | (none, s) => s
  | (some c, s) =>
    if x.cur = some (c.vmid, c.task) then s
    else
      let s := drainBuf l false s
      let s := s.modLane l (fun x =>
        { x with ctxs := (x.ctxs.filter (fun d => !(d.vmid == c.vmid && d.task == c.task))) ++ mine.toList })
      loadCtx l c s

/-- A lane with nothing to run takes up what has become ready. -/
def dispatchIdle (l : Fin 52) (s : State) : State := if (s.lane l).st = .idle then dispatch l false s else s

/-! ### Task states (R184, R199) -/

/-- Copies the safe image once when the descriptor asks for it (R184). -/
def safeCopy (t : Nat) (s : State) : State :=
  match s.task t with
  | some x => if x.desc.fact then (outputCopy t true s).2 else s
  | none => s

/-- A task leaves RUN for STOPPED or FAULTED: state, output action, class-P event (R184). -/
def haltTask (t : Nat) (st : TaskSt) (s : State) : State :=
  let s := s.modTask t (fun x => { x with st := st, stopReq := false })
  (safeCopy t s).log' VPI_TRUN_STATE true 6 (t / 256) [t, if st = .faulted then 3 else 2]

/-- Removes the dispatcher's copy of a task (R199): its counters stay readable, its directory entry holds no record. -/
def forgetTask (t : Nat) (s : State) : State :=
  match s.task t with
  | none => s
  | some x =>
    let s := freeEdges t x.desc s
    let s := dropCtxs (taskLane s x.desc) (fun _ u => u == some t) s
    let s := if x.desc.cls = 0 then s.wrN (dirAddr x.desc.cluster x.dir 0) 4 0 else s
    s.modTask t (fun x => { x with st := .idle, exch := none, stopReq := false, dropReq := false, active := false,
                                   unsealed := none, oldBofs := none, after := none })

/-- STOP and DROP that waited for the end of an activation take effect. -/
def endRequests (t : Nat) (s : State) : State :=
  match s.task t with
  | none => s
  | some x =>
    let s := if x.stopReq ∧ x.st = .run then haltTask t .stopped s else s
    if x.dropReq then forgetTask t s else s

/-- A task in RUN of class 2 or 3 is ready again at once (R174). -/
def readyAgain (t : Nat) (s : State) : State :=
  match s.task t with
  | some x => if x.st = .run ∧ 2 ≤ x.desc.cls ∧ ¬ x.active then addCtx (taskLane s x.desc) (freshCtx t x.desc.cls 0) s else s
  | none => s

/-- The running bank F activation of a lane ends at yield: output copy, then the next decision (R130, R170). -/
def endActivationF (l : Fin 52) (t : Nat) (s : State) : State :=
  let s := drainBuf l false s
  let s := s.modLane l (fun x => { x with cur := none, st := .idle })
  let s := (outputCopy t false s).2
  let s := endRequests t (s.modTask t (fun x => { x with active := false }))
  dispatch l false (readyAgain t s)

/-- QUANTUM_EXPIRY (R147). -/
def execQuantumExpiry (l : Fin 52) (s : State) : Result := .next (dispatch l false s)

end Sys2Proof.Machine
end

