-- ==== Sys2Proof/Machine/Failover.lean ====
section
/-! DEFINITION. Self-diagnosis, relinquish, the takeover of a role by the spare cluster, its failure, and RESYNC
(spec file 12), with revocation (R158), which a takeover may delay (R351). -/
namespace Sys2Proof.Machine

open Reg

/-- The physical group in the spare role. -/
def spareGroup (s : State) : Nat := s.groupOf 4

/-! ### Revocation (R158) -/

/-- Revocation: releases stop, funding returns, the locks open, an event is logged. -/
def revokeNow (s : State) : State :=
  let s := { s with lanes := s.lanes.map (fun (x : Lane) =>
    { x with srcs := Vector.replicate 4 ⟨false, 0, 0⟩, entries := [], waits := Vector.replicate 4 none }) }
  let s := unlockKeys ((s.fset PWR_FUNDSTAT_F 0).fset SCHED_STAT_ADM 0)
  s.log' SCHED_STAT_ADM false 3 0xFF [0]

/-! ### Pin images (R342); their 16 bytes are the module's own layout (assumption 33) -/

/-- The image of a pin. -/
def pinBytes (p : Option Pin) : List Byte :=
  match p with
  | none => zeroBytes 16
  | some p => leBytes 4 (1 + 2 * b2n p.r + 4 * b2n p.w + 8 * b2n p.x + 16 * b2n p.dev + 32 * b2n p.big + 256 * p.vmid) ++
      leBytes 4 p.page ++ leBytes 4 p.ppage ++ zeroBytes 4

/-- The pin of an image. -/
def parsePin (b : List Byte) : Option Pin :=
  let f := leAt b 0 4
  if ¬ bitOf f 0 then none
  else some { vmid := bitsOf f 8 8, page := leAt b 4 4, big := bitOf f 5, ppage := leAt b 8 4, r := bitOf f 1, w := bitOf f 2,
              x := bitOf f 3, dev := bitOf f 4 }

/-! ### Slot tables (R150) -/

/-- The source words of a lane block. -/
def parseSrcs (b : List Byte) : Vector SlotSrc 4 :=
  Vector.ofFn (fun i => let w := leAt b (4 * i.val) 4; ⟨bitOf w 31, bitsOf w 12 12, w % 2048⟩)

/-- The entries of a lane block. -/
def parseEntries (b : List Byte) : List SlotEntry :=
  (List.range 16).map (fun i =>
    let o := 16 + 16 * i
    ⟨bitOf (leAt b (o + 2) 1) 7, leAt b o 2 % 2 ^ 14, leAt b (o + 2) 1 % 4, leAt b (o + 4) 4⟩)

/-- Gives a lane an admitted lane block. -/
def loadBlock (l : Fin 52) (b : List Byte) (s : State) : State :=
  s.modLane l (fun x => { x with srcs := parseSrcs b, entries := parseEntries b, waits := Vector.replicate 4 none })

/-! ### Restore (R346) -/

/-- Copies checkpoint bytes; `false` when the read gets an error response. -/
def ckptCopy (src dst n : Nat) (r : Bool × State) : Bool × State :=
  if r.2.eccHit src n then (false, r.2.recordFault (engineReq 6 0xFF) src .engineRead .ecc 0xF 0)
  else (r.1, r.2.wr dst (r.2.rd src n))

/-- One region-list entry (R345). -/
def regionCopy (c g i : Nat) (r : Bool × State) : Bool × State :=
  let b := r.2.rd (ckpt c (0x501000 + 16 * i)) 16
  let w := leAt b 0 4
  let m := leAt b 4 4
  let n := leAt b 8 4
  let o := w % 2 ^ 22
  if ¬ bitOf (leAt b 0xC 4) 31 then r
  else if o % 8 ≠ 0 ∨ m % 8 ≠ 0 ∨ n % 8 ≠ 0 ∨ 0xC0000 < m + n ∨ (if bitOf w 31 then 0x10000 else 0x400000) < o + n then
    (r.1, r.2.log' FAILOVER_STAT_PHASE false 2 0xFF [c, i])
  else ckptCopy (ckpt c (0x440000 + m)) (if bitOf w 31 then dataAddr g (bitsOf w 24 3) o else sramAddr g o) n r

/-- The open edge-init entries of a header. -/
def headerEdges (h : List Byte) (t : Nat) : List (Nat × Nat) :=
  ((List.range 16).map (fun i => leAt h (0x60 + 4 * i) 4)).filterMap (fun w =>
    if bitOf w 31 then some (t, w % 2 ^ 19) else none)

/-- Writes the committed items of a record back to data memory. -/
def restoreItems (d : Desc) : List Nat → List Byte → State → State
  | [], _, s => s
  | w :: ws, b, s =>
    let n := (bitsOf w 16 13 + 1) * 8
    restoreItems d ws (b.drop n) (s.wr (taskData s d (w % 65536)) (b.take n))

/-- A task in the state a take-up gives it (R173, R174, R320). -/
def newTask (s : State) (t : Nat) (d : Desc) (bofs dir : Nat) : Task :=
  let old := s.task t
  { desc := d, st := if d.en ∧ (s.vpi (t / 256)).st ≠ .ready then .run else .stopped, cflt := 0,
    cycle := (old.map (·.cycle)).getD 0, skip := (old.map (·.skip)).getD 0, dmiss := (old.map (·.dmiss)).getD 0,
    ovr := (old.map (·.ovr)).getD 0, abt := (old.map (·.abt)).getD 0, nskip := 0, first := true, restored := false,
    forced := [], warned := false, exch := none, stopReq := false, dropReq := false, active := false,
    gens := (old.map (fun x => if x.desc.gen = d.gen then x.gens else x.gens + 1)).getD 0, actGens := 0, nper := 1,
    relAt := s.now,
    dlAt := 0, missed := false, energy := 0, bofs := bofs, unsealed := none, oldBofs := none, after := none, dir := dir }

/-- Restores the record of one directory entry of role `c` (R346): whether the entry holds a record, and whether its check
code matches. -/
def restoreEntry (c dir : Nat) (r : Nat × Nat × State) : Nat × Nat × State :=
  let (have_, good, s) := r
  let cur := dirCur s c dir
  if cur = 0 ∨ cur = 3 then r
  else
    let h := s.rd (dirAddr c dir (0x100 * cur)) 256
    let qs := leAt h 0xA 2
    let n := 32 + qs + leAt h 0xC 4
    let body := s.rd (bodyAddr c cur (leAt h 0x10 4) 0) n
    let t := leAt h 4 2 % 2 ^ 14
    let d := parseDesc (sliceOf h 0x20 64)
    let x := newTask s t d (leAt h 0x10 4) dir
    if crc32c body ≠ leAt h 0x14 4 then
      (have_ + 1, good, (s.setTask t { x with st := .faulted }).log' VPI_TRUN_STATE true 6 (t / 256) [t, 3])
    else
      let words := (List.range (leAt h 8 1)).map (fun i => leAt h (0xA0 + 4 * i) 4)
      let s := s.setTask t { x with restored := true, cycle := leAt body 0 8,
                                    after := some (timeOfTriple (leAt body 0x10 4) (leAt body 0x14 4) (leAt body 0x18 4)) }
      let s := s.wr (taskData s d (areaBase d.imgM)) (zeroBytes (areaSize d.imgM))
      let s := s.wr (taskData s d (areaBase d.imgQ)) (sliceOf body 32 qs)
      let s := restoreItems d words (body.drop (32 + qs)) s
      let s := s.modLane (taskLane s d) (fun y => { y with edges := y.edges ++ headerEdges h t })
      (have_ + 1, good + 1, s)

/-- Creates the kernel contexts of every VPI in RUN or FROZEN whose kernel lane lies in role `c`, marked by g2 = 1. -/
def restoreKernels (c : Nat) (s : State) : State :=
  s.each (List.range 64) (fun v s =>
    let x := s.vpi v
    match (List.range 32).find? (bitOf x.ent.lanes) with
    | some i =>
      if i / 8 = c ∧ (x.st = .run ∨ x.st = .frozen) then
        let l := clusterLane (s.groupOf c) (i % 8)
        dispatchIdle l (addCtx l (kernelCtx v 1 x.ent) s)
      else s
    | none => s)

/-- Restores role `c` onto the group that holds it: mirrors, slot table, pins, records (R346). `false`: a copy met an error
or no record passes. -/
def restoreRole (c : Nat) (s : State) : Bool × State :=
  let g := s.groupOf c
  let r := (List.range 8).foldl (fun r l => ckptCopy (ckpt c (0x400000 + 0x8000 * l)) (laneMemAddr g l 0) 0x8000 r) (true, s)
  let (ok, s) := (List.range 256).foldl (fun r i => regionCopy c g i r) r
  let s := s.fset (SCHED_STBASE_OFS g) (s.rdN (ckpt c 0x500000) 4)
  let s := s.each (List.range 8) (fun l s =>
    let pins := Vector.ofFn (fun (i : Fin 16) => parsePin (s.rd (ckpt c (0x502000 + 256 * l + 16 * i.val)) 16))
    (loadBlock (clusterLane g l) (s.rd (ckpt c (0x500100 + 272 * l)) 272) s).modLane (clusterLane g l)
      (fun x => { x with pins := pins }))
  let (_, good, s) := (List.range 256).foldl (fun r dir => restoreEntry c dir r) (0, 0, s)
  (ok && decide (0 < good), restoreKernels c s)

/-! ### Isolation and loss (R341, R350) -/

/-- A cluster is isolated and its supply switch opened. -/
def isolate (g : Nat) (s : State) : State :=
  let s := s.modPower (fun p => { p with gov := p.gov.filter (fun r => r.item != g), target := aerase g p.target })
  setDom g 0 (clusterReset g s)

/-- A takeover, drill or RESYNC has ended: a revocation that waited takes effect (R351). -/
def foEnd (s : State) : State :=
  let s := ((s.fset FAILOVER_STAT_BUSY 0).fset FAILOVER_STAT_PHASE 0).fset FAILOVER_STAT_DRILL 0
  if s.fo.revokePend then revokeNow (s.modFo (fun f => { f with revokePend := false })) else s

/-- Role `c` is lost (R350). -/
def loseRole (c : Nat) (s : State) : State :=
  let lost := roleTasks s c (· == 0)
  let ending := s.fbit FAILOVER_STAT_BUSY && s.fget FAILOVER_STAT_CL == c
  let s := isolate (s.groupOf c) s
  let s := if ending ∧ s.dom (spareGroup s) ≠ 0 then isolate (spareGroup s) s else s
  let s := s.each lost (fun p s =>
    let f := FAILOVER_LOST_BITS (p.1 / 256 / 32)
    (s.setTask p.1 { p.2 with st := .faulted, active := false, exch := none, unsealed := none }).fset f
      (putBit (s.fget f) (p.1 / 256 % 32) true))
  let s := (s.fset FAILOVER_STAT_LOST 1).log' FAILOVER_STAT_LOST true 7 0xFF s.syndrome
  if ending then foEnd s else s

/-! ### Takeover (R337, R346, R353) -/

/-- A duration in units of 0.1 µs. -/
def tenths (t0 t1 : Nat) : Nat := min ((t1 - t0) * 10 / usUnits 1) 65535

/-- The last step has ended: DONE, or the drill's result (R346, R353). -/
def takeoverDone (s : State) : State :=
  let c := s.fget FAILOVER_STAT_CL
  let s := s.fset FAILOVER_TTOT_T (tenths s.fo.tDecide s.now)
  if s.fbit FAILOVER_STAT_DRILL then
    if s.groupOf c = s.fo.failed then foEnd (s.log' FAILOVER_CNT_DRILLS true 6 0xFF [c, 1])
    else
      let s := isolate s.fo.failed ((s.fset FAILOVER_STAT_DONE 1).bump FAILOVER_CNT_DRILLS)
      foEnd (s.log' FAILOVER_CNT_DRILLS true 6 0xFF [c, 0])
  else foEnd (((s.fset FAILOVER_STAT_DONE 1).bump FAILOVER_CNT_TAKE).log' FAILOVER_STAT_DONE true 6 0xFF [c])

/-- A lane of the role has begun the output copy of a live activation (step 6). -/
def foLaneLive (lane : Nat) (s : State) : State :=
  if s.fget FAILOVER_STAT_PHASE ≠ 5 then s
  else
    let left := s.fo.liveLeft.filter (· != lane)
    let s := s.modFo (fun f => { f with liveLeft := left })
    if left = [] then takeoverDone s else s

/-- Delivery for the role has moved to the live context (step 5): the lanes with used entries still have to act. -/
def foLive (s : State) : State :=
  if s.fget FAILOVER_STAT_PHASE ≠ 4 ∨ s.sfe.replay.isSome then s
  else
    let g := s.groupOf (s.fget FAILOVER_STAT_CL)
    let left := (List.range 8).filter (fun l => (s.lane (clusterLane g l)).entries.any (·.v))
    let s := (s.fset FAILOVER_TREP_T (tenths s.fo.tReplay s.now)).fset FAILOVER_STAT_PHASE 5
    let s := s.modFo (fun f => { f with liveLeft := left })
    if left = [] then takeoverDone s else s

/-- The replay start: the oldest TIME in a current body's header, less the lead (R346). -/
def replayFrom (c : Nat) (s : State) : Nat :=
  let times := (List.range 256).filterMap (fun dir =>
    let cur := dirCur s c dir
    if cur = 0 ∨ cur = 3 then none
    else
      let b := s.rd (bodyAddr c cur (s.rdN (dirAddr c dir (0x100 * cur + 0x10)) 4) 0) 32
      some (timeOfTriple (leAt b 0x10 4) (leAt b 0x14 4) (leAt b 0x18 4)))
  match times with
  | [] => s.now
  | t :: l => l.foldl min t - usUnits (s.fget FAILOVER_PRE_US)

/-- Writes the replay start registers and starts the replay (R222, R346). -/
def foReplay (c t : Nat) (s : State) : State :=
  let s := ((s.fset NETSW_RPT_NS_V (nsWord t)).fset NETSW_RPT_SECLO_V (secLoWord t)).fset NETSW_RPT_SECHI_V (secHiWord t)
  if s.domOn 7 then replayStart c t s else s

/-- Swaps roles: role `c` to group `g`, the spare role to group `f`. -/
def swapRoles (c g f : Nat) (s : State) : State := (s.fset (roleField c) g).fset (roleField 4) f

/-- Class-0 tasks and others of a role leave the dispatcher before it is restored. -/
def clearRole (c : Nat) (s : State) : State :=
  { s with tasks := s.tasks.filter (fun p => p.2.desc.cluster != c) }

/-- A drill has failed: cluster S is powered down and the role returns to the old cluster, restored from its own region
(R353). -/
def drillReturn (c : Nat) (s : State) : State :=
  let f := s.fo.failed
  let spare := if s.groupOf c = f then spareGroup s else s.groupOf c
  let s := swapRoles c f spare (isolate spare s)
  let s := (resetLanes (8 * f) 8 .idle (clearRole c (s.fset FAILOVER_STAT_SPARE 0))).fset FAILOVER_STAT_PHASE 3
  let (ok, s) := restoreRole c (foReplay c s.fo.tDecide s)
  if ok then foLive ((s.fset FAILOVER_STAT_PHASE 4).modFo (fun x => { x with tReplay := s.now })) else loseRole c s

/-- A takeover fails (R350). -/
def takeoverFail (s : State) : State :=
  let c := s.fget FAILOVER_STAT_CL
  let s := s.fset FAILOVER_STAT_SPARE 0
  if s.fbit FAILOVER_STAT_DRILL ∧ ¬ s.groupOf c = s.fo.failed then drillReturn c s
  else if s.fbit FAILOVER_STAT_DRILL ∧ s.fget FAILOVER_STAT_PHASE < 3 then drillReturn c s
  else loseRole c s

/-- The spare is powered first of every queued request (R346). -/
def powerSpare (s : State) : State :=
  let d := spareGroup s
  let s := (setDom d 3 (s.fset FAILOVER_STAT_PHASE 2)).modPower (fun p => { p with target := ainsert d 1 p.target })
  governor (govRequest 1 d (s.modFo (fun f => { f with tDecide := s.now })))

/-- Writes FAILOVER_SYND. -/
def setSynd (c g lane info check : Nat) (s : State) : State :=
  (((((s.fset FAILOVER_SYND_VALID 1).fset FAILOVER_SYND_CL c).fset FAILOVER_SYND_GROUP g).fset FAILOVER_SYND_LANE lane).fset
    FAILOVER_SYND_INFO info).fset FAILOVER_SYND_CHECK check

/-- Physical group `g` relinquishes (R340, R341, R350); lane 0xF when none applies. -/
def relinquish (g check lane info : Nat) (s : State) : State :=
  match s.roleOf g with
  | none => s
  | some c =>
    if ¬ s.domOn g then s
    else
      let phase := s.fget FAILOVER_STAT_PHASE
      let s := (setSynd c g lane info check s).log' FAILOVER_SYND_CHECK true 6 0xFF s.syndrome
      if 1 ≤ phase ∧ phase ≤ 5 then (if c = s.fget FAILOVER_STAT_CL then takeoverFail s else loseRole c s)
      else if ¬ s.fbit FAILOVER_CTL_EN ∨ ¬ s.fbit FAILOVER_STAT_SPARE then
        (if phase = 6 then loseRole c s else loseRole c ((s.fset FAILOVER_STAT_BUSY 1).fset FAILOVER_STAT_CL c))
      else
        let s := ((s.fset FAILOVER_STAT_BUSY 1).fset FAILOVER_STAT_DRILL 0).fset FAILOVER_STAT_CL c
        powerSpare (isolate g (s.modFo (fun f => { f with failed := g })))

/-- A lane is retired (R339): it stops, its bank F contexts end, a class-P event is logged, POWER is raised. -/
def retireLane (l : Fin 52) (s : State) : State :=
  let s := dropCtxs l (fun _ _ => true) s
  let s := s.modLane l (fun x => { x with st := .stopped, retired := true, run := none, inG := false, out := none })
  (s.modPower (fun p => { p with retireNote := true })).log' FAILOVER_STAT_LOST true 6 0xFF s.syndrome

/-- The lane holds class-0 entries. -/
def laneC0 (s : State) (l : Fin 52) : Bool := s.adm && (s.lane l).entries.any (·.v)

/-- Check 2 or 3 on a cluster lane (R339): relinquish where class-0 state is held, otherwise retire. -/
def laneFault (l : Fin 52) (check info : Nat) (c0 : Bool) (s : State) : State :=
  if c0 then relinquish (laneGroup l) check (l.val % 8) info s else retireLane l s

/-- Check 5 (R339): enough lane timing faults within 100 ms relinquish. -/
def timingFault (g lane : Nat) (s : State) : State :=
  if h : g < 5 then
    let l := (s.fo.ovrAt[g].filter (fun t => decide (s.now ≤ t + usUnits 100000))) ++ [s.now]
    let s := s.modFo (fun f => { f with ovrAt := f.ovrAt.set g l })
    if s.fget FAILOVER_POL_OVR ≤ l.length then relinquish g 5 lane 0 s else s
  else s

/-! ### Commands -/

/-- HEARTBEAT_MISSING (check 7). -/
def execHeartbeatMissing (g : Fin 5) (s : State) : Result := .next (relinquish g 7 0xF 0 s)

/-- BEATCNT_MISMATCH (check 6). -/
def execBeatcntMismatch (l : Fin 52) (s : State) : Result :=
  .next (if isCluster l then relinquish (laneGroup l) 6 (l.val % 8) 0 s else s)

/-- VCOMP_FAULT (check 8). -/
def execVcompFault (g : Fin 5) (s : State) : Result := .next (relinquish g 8 0xF 0 s)

/-- SPARE_POWER_UP_DONE (R346): steps 4 to 6 of R337 begin. -/
def execSparePowerUpDone (s : State) : Result :=
  .next (
    let d := spareGroup s
    if s.fget FAILOVER_STAT_PHASE ≠ 2 ∨ govHolds s d then s
    else
      let c := s.fget FAILOVER_STAT_CL
      let f := s.groupOf c
      let s := clusterOn d (setDom d 1 (s.modPower (fun p => { p with target := aerase d p.target })))
      let s := (s.fset FAILOVER_TPWR_T (tenths s.fo.tDecide s.now)).fset FAILOVER_STAT_PHASE 3
      let t0 := s.now
      let s := foReplay c (replayFrom c s) s
      let s := swapRoles c d f (s.fset FAILOVER_STAT_SPARE 0)
      let s := (clearRole c s).fset (FAB_VC0RES_UNITS d) (s.fget (FAB_VC0RES_UNITS f))
      let (ok, s) := restoreRole c s
      let s := (s.fset FAILOVER_TRST_T (tenths t0 s.now)).modFo (fun x => { x with tReplay := s.now })
      if ok then foLive (s.fset FAILOVER_STAT_PHASE 4) else takeoverFail s)

/-- SPARE_POWER_TIMEOUT (R350). -/
def execSparePowerTimeout (s : State) : Result :=
  .next (if s.fget FAILOVER_STAT_PHASE = 2 then takeoverFail s else s)

/-- An exchange is pending on role `c`. -/
def exchPending (s : State) (c : Nat) : Bool := s.tasks.any (fun p => p.2.desc.cluster == c && p.2.exch.isSome)

/-- No class-0 activation of role `c` runs and no release waits (R353). -/
def atBoundary (s : State) (c : Nat) : Bool :=
  (List.range 8).all (fun l =>
    let x := s.lane (clusterLane (s.groupOf c) l)
    x.run.isNone && x.waits.toList.all (·.isNone))

/-- A write of FAILOVER_CMD (R353 to R355). -/
def foCmd (v : Nat) (s : State) : Rsp × State :=
  let op := bitsOf v 16 3
  let c := v % 8
  let busy := s.fbit FAILOVER_STAT_BUSY
  if op = 1 then
    if 3 < c ∨ ¬ s.clusterFitted (s.groupOf c) ∨ ¬ s.fbit FAILOVER_STAT_SPARE ∨ busy ∨ exchPending s c then (.denied, s)
    else (.ok, (((s.fset FAILOVER_STAT_BUSY 1).fset FAILOVER_STAT_PHASE 7).fset FAILOVER_STAT_CL c).modFo
      (fun f => { f with failed := s.groupOf c }))
  else if op = 2 then
    if busy ∨ s.fbit FAILOVER_STAT_SPARE then (.denied, s)
    else
      let s := (s.fset FAILOVER_STAT_BUSY 1).fset FAILOVER_STAT_PHASE 6
      (.ok, governor (startOn (spareGroup s) s))
  else if op = 3 then (.ok, if s.fget FAILOVER_STAT_PHASE = 7 then foEnd s else s)
  else (.denied, s)

/-- DRILL. -/
def execDrill (rq : Req) (v : Word) (s : State) : Result :=
  .next (s.regWriteAccess rq 0xF000060008 (foCmd (0x10000 + v.toNat % 8)))

/-- DRILL_BOUNDARY (R353): the planned relinquish, with the old cluster powered and its lanes halted. -/
def execDrillBoundary (s : State) : Result :=
  .next (
    let c := s.fget FAILOVER_STAT_CL
    if s.fget FAILOVER_STAT_PHASE ≠ 7 ∨ ¬ atBoundary s c then s
    else
      let g := s.groupOf c
      let s := (setSynd c g 0xF 0 11 s).log' FAILOVER_SYND_CHECK true 6 0xFF s.syndrome
      let s := s.each (List.range 8) (fun l s => s.modLane (clusterLane g l) (fun x => { x with st := .stopped }))
      powerSpare ((s.fset FAILOVER_STAT_DRILL 1).modFo (fun f => { f with failed := g })))

/-- CANCEL. -/
def execCancel (rq : Req) (s : State) : Result := .next (s.regWriteAccess rq 0xF000060008 (foCmd 0x30000))

/-- RESYNC. -/
def execResync (rq : Req) (s : State) : Result := .next (s.regWriteAccess rq 0xF000060008 (foCmd 0x20000))

/-- The end of RESYNC (R354): the cluster is wiped and powered down; on a pass its lanes serve again. -/
def resyncEnd (pass : Bool) (test : Nat) (s : State) : State :=
  let g := spareGroup s
  let s := isolate g s
  let s := foEnd s
  if pass then
    (s.each (List.range 8) (fun l s => s.modLane (clusterLane g l) (fun x => { x with retired := false }))).fset
      FAILOVER_STAT_SPARE 1
  else ((s.fset FAILOVER_STAT_RSFAIL 1).fset FAILOVER_STAT_SPARE 0).log' FAILOVER_STAT_RSFAIL false 5 0xFF [g, test]

/-- RESYNC_DONE. -/
def execResyncDone (pass : Bool) (test : Nat) (s : State) : Result :=
  .next (if s.fget FAILOVER_STAT_PHASE = 6 then resyncEnd pass test s else s)

/-- GOVERNOR_GRANT (R361, R362): the governor's evaluation; a stage whose supply does not confirm ends its power-up. -/
def execGovernorGrant (confirmed : Bool) (s : State) : Result :=
  .next (
    if confirmed then governor s
    else
      match (match s.power.gov with
        | r :: _ => some r.item
        | [] => (s.power.target.find? (fun p => p.2 == 1)).map (·.1)) with
      | none => s
      | some d =>
        if 10 ≤ d then s
        else if d = spareGroup s ∧ s.fget FAILOVER_STAT_PHASE = 2 then takeoverFail (powerFail d s)
        else if d = spareGroup s ∧ s.fget FAILOVER_STAT_PHASE = 6 then resyncEnd false 0 (powerFail d s)
        else governor (powerFail d s))

/-- Writes of the FAILOVER block. -/
def foWrite (off v : Nat) (s : State) : Rsp × State :=
  if off = 8 then foCmd v s else tableWrite regsFAILOVER (0xF000060000 + off) v s

/-- Reads of the FAILOVER block. -/
def foRead (off : Nat) (s : State) : Nat × State := tableRead regsFAILOVER (0xF000060000 + off) s

end Sys2Proof.Machine
end

