-- ==== Sys2Proof/Machine/Tasks.lean ====
section
/-! DEFINITION. Class-0 releases and activations in bank G, class-1 releases, and the task commands of VPI_TXCMD
(spec files 05 and 06). -/
namespace Sys2Proof.Machine

open Reg

/-! ### Bank G (R65, R66, R152) -/

/-- STATUS of bank G (R74). -/
def bankGStatus : Status := { xoff := false, timed := true, mode := .t, exl := false, bet := false, ie := false }

/-- Bank G as a release sets it up from the descriptor (R66); the registers it does not name keep their values. -/
def setupG (t : Nat) (d : Desc) (b : Bank) : Bank :=
  { taskBank t d with status := bankGStatus, lastResp := b.lastResp, snap := b.snap }

/-- The lane goes to bank G; beats of the switch count in the lane's BEATCNT, and a count outside timed windows is open
(assumption 34). -/
def enterG (l : Fin 52) (t : Nat) (d : Desc) (s : State) : State :=
  let (n, s) := s.draw Site.beats 32
  s.modLane l (fun x =>
    let beats := if x.inG ∨ x.f.status.timed then x.beatcnt + 6 else BitVec.ofNat 32 n
    { x with inG := true, st := .running, g := setupG t d x.g, beatcnt := beats })

/-- The lane goes back to bank F: the 2-beat switch counts in an open window (R128), an abandoned wait starts again
(R130). -/
def leaveG (l : Fin 52) (s : State) : State :=
  let s := s.modLane l (fun x =>
    { x with inG := false, run := none, beatcnt := x.beatcnt + 2,
             winBeats := if x.f.status.timed then x.winBeats + 2 else x.winBeats,
             st := if x.st = .stopped ∨ x.st = .off then x.st else if x.cur.isSome then .running else .idle })
  dispatchIdle l s

/-- A task that a completion may release: class 0, in RUN, and the tag later than its restored record (R174, R346). -/
def releasable (s : State) (tok : Token) (t : Nat) : Bool :=
  match s.task t with
  | some x => x.desc.cls == 0 && x.st == .run && (match x.after with
    | some a => decide (a < tok.tag)
    | none => true)
  | none => false

/-- Used entries of a source from entry `i` on that the completion may release, with their numbers. -/
def liveEntries (s : State) (l : Fin 52) (src i : Nat) (tok : Token) : List (Nat × SlotEntry) :=
  ((List.range 16).zip (s.lane l).entries).filter (fun p =>
    decide (i ≤ p.1) && p.2.v && p.2.src == src && releasable s tok p.2.task)

/-- Whether a message time is older than a task period of the source, against the sample set's tag (R177). -/
def tooOld (div : Nat) (tok : Token) (g : Nat) : Bool :=
  decide (div * tok.rateD * secUnits < (tok.tag - g) * tok.rateN)

/-- Seals the record a task has written (R344): CUR names its half. -/
def sealRecord (t : Nat) (s : State) : State :=
  match s.task t with
  | none => s
  | some x =>
    match x.unsealed with
    | none => s
    | some (half, newGen) =>
      let c := x.desc.cluster
      let (err, s) := chkWrite c (dirAddr c x.dir 0) (leBytes 4 half) s
      if err then relinquish (s.groupOf c) 9 (x.desc.lane) 0 s
      else
        let s := s.modTask t (fun x => { x with unsealed := none, oldBofs := none })
        if newGen then s.fset VPI_TXSTAT_SEALED 1 else s

/-- CHECKPOINT_SEAL. -/
def execCheckpointSeal (task : Nat) (s : State) : Result := .next (sealRecord task s)

/-- Starts entry `i` of a sequence: exchange step, latch, bank G (R152, R170). -/
def startEntry (l : Fin 52) (src i : Nat) (e : SlotEntry) (tok : Token) (s : State) : State :=
  let s := exchangeStep e.task (sealRecord e.task s)
  match s.task e.task with
  | none => s
  | some x =>
    let div := if h : src < 4 then (s.lane l).srcs[src].div else 1
    let (hd, s) := latchImage e.task tok.tag tok.sq (tooOld div tok) s
    let s := enterG l e.task x.desc (s.modTask e.task (fun x => { x with active := true, actGens := x.gens }))
    let nper := match s.task e.task with
      | some y => y.nper
      | none => 1
    s.modLane l (fun x => { x with
      run := some ⟨src, i, e.task, e.budget, 0, [], hd, nper, tok⟩ })

/-- The sequence goes on with its next entry, or ends (R152, R154). -/
def nextEntry (l : Fin 52) (src i : Nat) (tok : Token) (s : State) : State :=
  if ¬ s.adm then leaveG l s
  else
    match liveEntries s l src i tok with
    | (k, e) :: _ => startEntry l src k e tok s
    | [] => leaveG l s

/-- A source of a lane that can run class-0 code releases its sequence. -/
def startSource (l : Fin 52) (src : Nat) (tok : Token) (s : State) : State :=
  match liveEntries s l src 0 tok with
  | (k, e) :: _ => startEntry l src k e tok s
  | [] => s

/-! ### Releases (R152, R153) -/

/-- The dropped release of a collision: counts, SCHED_LAST, the skipped cycle of each task (R152, R182). -/
def collide (g : Nat) (l : Fin 52) (src : Nat) (tok : Token) (s : State) : State :=
  let s := s.bump (SCHED_COLL_COLL g)
  let s := ((((s.fset (SCHED_LAST_KIND g) 0).fset (SCHED_LAST_LANE g) (l.val % 8)).fset (SCHED_LAST_SRC g) src).fset
    (SCHED_LAST_ENTRY g) 0).log' (SCHED_COLL_COLL g) false 2 0xFF [l.val % 8, src]
  s.each (liveEntries s l src 0 tok) (fun p s =>
    (s.modTask p.2.task (fun x => { x with skip := satInc 16 x.skip, nskip := x.nskip + 1 })).log' VPI_TCNT_SKIP true 6
      (p.2.task / 256) [p.2.task])

/-- Source `src` of lane `l` fires (R152). -/
def fireSource (g : Nat) (l : Fin 52) (tok : Token) (src : Nat) (s : State) : State :=
  if h : src < 4 then
    let x := s.lane l
    if liveEntries s l src 0 tok = [] ∨ x.st = .stopped ∨ x.st = .off ∨ x.halted then s
    else
      let running := match x.run with
        | some r => r.src == src
        | none => false
      if (running || x.waits[src].isSome) = true then collide g l src tok s
      else
        let s := s.bump (SCHED_REL_REL g)
        if (x.run.isSome || x.waits.toList.any (·.isSome)) = true then
          s.modLane l (fun x => { x with waits := x.waits.set src (some tok) })
        else startSource l src tok s
  else s

/-- The output index of a completion (R153). -/
def outputIndex (tok : Token) : Nat := tok.tag * tok.rateN / (tok.rateD * secUnits)

/-- The sources of a lane that a completion fires. -/
def firing (s : State) (l : Fin 52) (tok : Token) : List Nat :=
  (List.range 4).filter (fun i => if h : i < 4 then
    let r := (s.lane l).srcs[i]
    r.v && r.group == tok.group && r.div != 0 && outputIndex tok % r.div == 0
  else false)

/-- SOURCE_FIRE: the event controller of physical group `c` takes its oldest completion token (R153). -/
def execSourceFire (c : Fin 5) (s : State) : Result :=
  .next (
    match s.tokens[c] with
    | [] => s
    | tok :: rest =>
      let s := { s with tokens := s.tokens.set c rest }
      if ¬ s.adm ∨ ¬ s.domOn c then s
      else
        s.each (List.range 8) (fun i s =>
          let l := clusterLane c i
          s.each (firing s l tok) (fireSource c l tok)))

/-- WAITING_RELEASE_START (R152): source 0 first. -/
def execWaitingReleaseStart (l : Fin 52) (s : State) : Result :=
  .next (
    let x := s.lane l
    if x.run.isSome ∨ ¬ s.adm ∨ x.st = .stopped ∨ x.st = .off then s
    else
      match (List.finRange 4).find? (fun i => x.waits[i].isSome) with
      | none => s
      | some i =>
        match x.waits[i] with
        | none => s
        | some tok => startSource l i tok (s.modLane l (fun x => { x with waits := x.waits.set i none })))

/-! ### Ends of class-0 activations (R180, R183, R184) -/

/-- A faulted activation of a task is counted; at FLIM the task becomes FAULTED (R184). -/
def countFault (t : Nat) (overrun : Bool) (s : State) : State :=
  let s := s.modTask t (fun x => { x with
    cflt := satInc 8 x.cflt, ovr := if overrun then satInc 16 x.ovr else x.ovr, abt := if overrun then x.abt else satInc 16 x.abt,
    active := false })
  let s := s.log' (if overrun then VPI_TFLT_OVR else VPI_TFLT_ABT) true 6 (t / 256) [t]
  match s.task t with
  | some x => if x.desc.flim ≠ 0 ∧ x.desc.flim ≤ x.cflt ∧ x.st = .run then haltTask t .faulted s else s
  | none => s

/-- Lane `l` still runs the activation `r`: no relinquish or retirement has ended it meanwhile. -/
def stillRuns (s : State) (l : Fin 52) (r : C0Run) : Bool := (s.lane l).run == some r

/-- After an activation has ended: requests that waited for it, then the next entry of its sequence. -/
def afterRun (l : Fin 52) (r : C0Run) (s : State) : State :=
  let s := endRequests r.task s
  if stillRuns s l r then nextEntry l r.src (r.entry + 1) r.tok s else s

/-- Bank G executes yield: output copy, record, next entry (R130, R170, R344). -/
def finishRun (l : Fin 52) (s : State) : State :=
  match (s.lane l).run with
  | none => s
  | some r =>
    let (q, s) := outputCopy r.task false s
    let s := if ¬ r.tok.replay ∧ s.groupOf (s.fget FAILOVER_STAT_CL) = laneGroup l then foLaneLive (l.val % 8) s else s
    let (err, s) := writeRecord r.task r q s
    let s := s.modTask r.task (fun x => { x with cflt := 0, active := false, after := none })
    let s := if err then relinquish (laneGroup l) 9 (l.val % 8) 0 s else s
    afterRun l r s

/-- An abort under R100 ends the activation; no output copy, no record. -/
def abortRun (l : Fin 52) (s : State) : State :=
  match (s.lane l).run with
  | none => leaveG l s
  | some r => afterRun l r (countFault r.task false s)

/-- CLASS0_OVERRUN (R154, R183). -/
def execClass0Overrun (l : Fin 52) (s : State) : Result :=
  .next (
    match (s.lane l).run with
    | none => s
    | some r =>
      let g := laneGroup l
      let s := s.bump (SCHED_COLL_OVR g)
      let s := (((s.fset (SCHED_LAST_KIND g) 1).fset (SCHED_LAST_LANE g) (l.val % 8)).fset (SCHED_LAST_SRC g) r.src).fset
        (SCHED_LAST_ENTRY g) r.entry
      afterRun l r (timingFault g (l.val % 8) (countFault r.task true s)))

/-! ### Class 1 (R174, R181, R366) -/

/-- CLASS1_RELEASE: PERIOD has elapsed on the task's grid. -/
def execClass1Release (task : Nat) (s : State) : Result :=
  .next (
    match s.task task with
    | none => s
    | some x =>
      if x.desc.cls ≠ 1 ∨ x.st ≠ .run ∨ (s.vpi (task / 256)).st ≠ .run then s
      else if x.active then
        let s := s.modTask task (fun x => { x with skip := satInc 16 x.skip, nskip := x.nskip + 1, energy := 0 })
        dispatchIdle (taskLane s x.desc) (s.log' VPI_TCNT_SKIP false 2 (task / 256) [task])
      else
        let s := exchangeStep task s
        match s.task task with
        | none => s
        | some x =>
          let dl := s.now + usUnits x.desc.deadline
          let s := s.modTask task (fun x => { x with
            active := true, actGens := x.gens, relAt := s.now, dlAt := dl, missed := false, energy := 0 })
          let l := taskLane s x.desc
          dispatchIdle l (addCtx l (freshCtx task 1 dl) s))

/-- CLASS1_DEADLINE_MISS (R181). -/
def execClass1DeadlineMiss (task : Nat) (s : State) : Result :=
  .next (
    match s.task task with
    | some x =>
      if x.desc.cls = 1 ∧ x.active ∧ ¬ x.missed then
        (s.modTask task (fun x => { x with missed := true, dmiss := satInc 16 x.dmiss })).log' VPI_TCNT_DMISS false 2
          (task / 256) [task]
      else s
    | none => s)

/-- CLASS1_MINE_HOLD: the activation has drawn `energy` nJ, at least MINE, in budget state 3; it is held until its next
release (R366). -/
def execClass1MineHold (task : Nat) (energy : Nat) (s : State) : Result :=
  .next (
    match s.task task with
    | some x =>
      let l := taskLane s x.desc
      if x.desc.cls = 1 ∧ x.active ∧ x.desc.mine ≤ energy ∧ laneBudget s l = 3 then
        let s := s.modTask task (fun x => { x with energy := energy })
        if (s.lane l).cur = some (task / 256, some task) ∧ dispatchable (s.lane l) then
          let y := s.lane l
          let s := drainBuf l false s
          let s := s.modLane l (fun x => { x with ctxs := x.ctxs ++ (runningCtx s y).toList, cur := none, st := .idle })
          dispatch l false s
        else s
      else s
    | none => s)

/-! ### Task commands (R198, R199) -/

/-- A failover is in progress on role `c` (R351). -/
def foOnRole (s : State) (c : Nat) : Bool := s.fbit FAILOVER_STAT_BUSY && s.fget FAILOVER_STAT_CL == c

/-- A role's cluster is not fitted, or not on: what ERR 2 reports. -/
def roleDown (s : State) (c : Nat) : Bool := decide (3 < c) || !s.clusterFitted (s.groupOf c) || !s.domOn (s.groupOf c)

/-- The code of R199 for a command about a held task's cluster. -/
def placeErr (s : State) (x : Task) : Nat := firstErr [(2, roleDown s x.desc.cluster), (10, foOnRole s x.desc.cluster)]

/-- Takes up a checked descriptor: body and directory entry for class 0, dispatch for classes 2 and 3. -/
def takeUp (t : Nat) (b : List Byte) (restart : Bool) (s : State) : State :=
  let d := parseDesc b
  let old := s.task t
  let c0 := d.cls == 0
  let keep := match old with
    | some x => x.held && x.desc.cls == 0 && c0 && x.desc.cluster == d.cluster && bodySize x.desc == bodySize d
    | none => false
  let bofs := if keep then (old.map (·.bofs)).getD 0 else if c0 then (firstFit (bodies s d.cluster t) (bodySize d)).getD 0 else 0
  let dir := if keep then (old.map (·.dir)).getD 0 else if c0 then freeDir { s with tasks := aerase t s.tasks } d.cluster else 0
  let s := match old with
    | some x => if restart then s else freeEdges t x.desc (dropCtxs (taskLane s x.desc) (fun _ u => u == some t) s)
    | none => s
  let s := if c0 && !keep then s.wrN (dirAddr d.cluster dir 0) 4 0 else s
  let x := newTask s t d bofs dir
  let s := if restart then
      let act := (old.map (·.active)).getD false
      s.setTask t { x with st := .run, active := act, actGens := (old.map (·.actGens)).getD 0, relAt := (old.map (·.relAt)).getD 0, dlAt := (old.map (·.dlAt)).getD 0,
                           forced := (old.map (·.forced)).getD [] }
    else s.setTask t x
  dispatchIdle (taskLane s d) (readyAgain t s)

/-- TAKEUP of task `t` (R173, R199): its error code and the state. -/
def takeupOp (t gen : Nat) (s : State) : Nat × State :=
  let named := s.adm && s.lanes.toList.any (fun x => x.entries.any (fun e => e.v && e.task == t))
  let (b, s) := readDesc t s
  let d := parseDesc b
  let e := firstErr [(3, named), (10, foOnRole s d.cluster), (descErr s t gen b, descErr s t gen b != 0)]
  if e ≠ 0 then (e, s) else (0, takeUp t b false s)

/-- RESTART: the descriptor is read again, fault count 0, RUN, FIRST (R199). -/
def restartOp (t gen : Nat) (s : State) : Nat × State :=
  match s.task t with
  | none => (1, s)
  | some x =>
    if ¬ x.held then (1, s)
    else
      let (b, s) := readDesc t s
      let e := firstErr [(descErr s t gen b, descErr s t gen b != 0), (placeErr s x, placeErr s x != 0)]
      if e ≠ 0 then (e, s) else (0, takeUp t b true s)

/-- An activation of the task is in progress. -/
def inActivation (s : State) (t : Nat) (x : Task) : Bool :=
  let y := s.lane (taskLane s x.desc)
  (match y.run with
   | some r => r.task == t
   | none => false) || y.cur == some (t / 256, some t) || y.ctxs.any (fun c => c.task == some t && c.started)

/-- Cancels the pending exchange with an error code. -/
def cancelExchange (e : Nat) (s : State) : State :=
  if ¬ s.fbit VPI_TXSTAT_PEND then s
  else
    let s := { s with tasks := s.tasks.map (fun (p : Nat × Task) => (p.1, { p.2 with exch := none })) }
    (s.fset VPI_TXSTAT_PEND 0).fset VPI_TXSTAT_ERR e

/-- STOP of a task (R184): at the end of an activation in progress. -/
def stopNow (t : Nat) (s : State) : State :=
  match s.task t with
  | none => s
  | some x =>
    if ¬ x.held then s
    else
      let s := freeEdges t x.desc s
      if x.st = .faulted then s.modTask t (fun x => { x with st := .stopped })
      else if x.st ≠ .run then s
      else if inActivation s t x then s.modTask t (fun x => { x with stopReq := true })
      else
        let s := haltTask t .stopped (s.modTask t (fun x => { x with active := false }))
        dropCtxs (taskLane s x.desc) (fun _ u => u == some t) s

/-- STOP. -/
def stopOp (t : Nat) (s : State) : Nat × State :=
  match s.task t with
  | none => (0, s)
  | some x => if x.held ∧ placeErr s x ≠ 0 then (placeErr s x, s) else (0, stopNow t s)

/-- DROP (R199). -/
def dropOp (t : Nat) (s : State) : Nat × State :=
  match s.task t with
  | none => (0, s)
  | some x =>
    if ¬ x.held then (0, s)
    else if placeErr s x ≠ 0 then (placeErr s x, s)
    else
      let s := stopNow t s
      if inActivation s t x then (0, s.modTask t (fun x => { x with dropReq := true })) else (0, forgetTask t s)

/-- A write of VPI_TXCMD (R198, R199). -/
def txCmd (v : Nat) (s : State) : Rsp × State :=
  let op := v % 8
  if op = 0 ∨ 5 < op ∨ (op ≠ 3 ∧ (s.fbit VPI_TXSTAT_BUSY ∨ s.fbit VPI_TXSTAT_PEND)) then (.denied, s)
  else
    let t := s.fget VPI_TXARG_TASK
    let gen := s.fget VPI_TXARG_GEN
    let s := ((s.fset VPI_TXSTAT_ERR 0).fset VPI_TXSTAT_BUSY 1).fset VPI_TXCMD_CMD op
    let done := fun (r : Nat × State) => (Rsp.ok, if r.1 = 0 then r.2 else r.2.fset VPI_TXSTAT_ERR r.1)
    if op = 1 then done (takeupOp t gen s)
    else if op = 2 then (.ok, s)
    else if op = 3 then done (stopOp t (cancelExchange 11 s))
    else if op = 4 then done (restartOp t gen s)
    else done (dropOp t s)

/-- TAKEUP. -/
def execTakeup (rq : Req) (s : State) : Result := .next (s.regWriteAccess rq 0xF000158000 (txCmd 1))

/-- EXCHANGE. -/
def execExchange (rq : Req) (s : State) : Result := .next (s.regWriteAccess rq 0xF000158000 (txCmd 2))

/-- STOP. -/
def execStopTask (rq : Req) (s : State) : Result := .next (s.regWriteAccess rq 0xF000158000 (txCmd 3))

/-- RESTART. -/
def execRestart (rq : Req) (s : State) : Result := .next (s.regWriteAccess rq 0xF000158000 (txCmd 4))

/-- DROP. -/
def execDropTask (rq : Req) (s : State) : Result := .next (s.regWriteAccess rq 0xF000158000 (txCmd 5))

/-- The task command in progress completes (R499); an exchange completes by EXCHANGE_VALIDATED. -/
def txComplete (s : State) : State :=
  if ¬ s.fbit VPI_TXSTAT_BUSY ∨ s.fget VPI_TXCMD_CMD = 2 then s
  else
    let s := s.fset VPI_TXSTAT_BUSY 0
    if s.fget VPI_TXSTAT_ERR = 0 then s.fset VPI_TXSTAT_DONE 1 else s

/-! ### Exchange validation (R192, R193, R196) -/

/-- A transfer entry. -/
def parseXfer (b : List Byte) : Xfer :=
  { kind := leAt b 0 1, len := leAt b 1 1 + 1, src := leAt b 2 2, dst := leAt b 4 2, srcArea := leAt b 6 1 % 4,
    dstArea := bitsOf (leAt b 6 1) 4 2, srcBit := leAt b 7 1 % 8, dstBit := bitsOf (leAt b 7 1) 4 3 }

/-- A transfer entry is well formed and inside its areas. -/
def xferOk (o n : Desc) (b : List Byte) : Bool :=
  let e := parseXfer b
  let area := fun (a : Nat) => a == 1 || a == 2
  let size := if e.kind = 0 then e.len else if e.kind = 2 then 16 else 1
  let dst := area e.dstArea && decide (e.dst + size ≤ areaSize (n.area e.dstArea))
  let src := area e.srcArea && decide (e.src + size ≤ areaSize (o.area e.srcArea))
  let used := bitsOf (leAt b 6 1) 2 2 == 0 && bitsOf (leAt b 6 1) 6 2 == 0 && !bitOf (leAt b 7 1) 3 && !bitOf (leAt b 7 1) 7
  used && dst && (if e.kind = 3 then leAt b 1 1 == 0 && e.src == 0
    else decide (e.kind < 3) && src && (e.kind == 0 || leAt b 1 1 == 0) &&
      (e.kind != 2 || (e.src % 16 == 0 && e.dst % 16 == 0)))

/-- The error code of an exchange block, or the exchange to hold. -/
def checkExchange (s : State) (hd : List Byte) (ofs cl : Nat) (b : List Byte) : Nat × Option Exchange :=
  let t := leAt hd 0 2 % 2 ^ 14
  let gen := leAt hd 2 2
  let nx := leAt hd 4 2
  let nr := leAt hd 6 2
  match s.task t with
  | none => (1, none)
  | some x =>
    let o := x.desc
    let n := parseDesc b
    let at_ := fun (k len : Nat) => s.rd (sramAddr (s.groupOf cl) (ofs + k)) len
    let counts := decide (nx ≤ 512) && decide (nr ≤ 128)
    let raws := if counts then (List.range nx).map (fun k => at_ (32 + 8 * k) 8) else []
    let rels := if counts then (List.range nr).map (fun k => leVal (at_ (32 + 8 * nx + 4 * k) 4)) else []
    let xs := raws.map parseXfer
    let range := counts && leAt hd 0 2 / 2 ^ 14 == 0 && leAt hd 8 4 / 2 == 0 && allZero (sliceOf hd 12 20) && ofs % 32 == 0 &&
      decide (ofs + 32 + 8 * nx + 4 * nr ≤ 0x400000) && cl == o.cluster && raws.all (xferOk o n)
    let oldF := ((readForces s o).filter (·.1)).map (·.2)
    let newTags := ((readForces s n).filter (·.1)).map (fun f => f.2.tag)
    let gone := oldF.filter (fun f => !newTags.contains f.tag)
    let relq := bitOf (leAt hd 8 4) 0
    let edgesNew := (xs.filter (fun e => e.kind == 3)).length
    let others := (s.lane (taskLane s o)).edges.filter (fun e => e.1 != t)
    let e := firstErr [(if x.held then descErr s t gen b else 1, !x.held || descErr s t gen b != 0), (2, roleDown s cl),
      (4, o.cls != n.cls || o.cluster != n.cluster || o.lane != n.lane || o.stg != n.stg || o.lsize != n.lsize),
      (5, !relq && gone.any (fun f => f.area == 1 && rels.contains f.tag)),
      (6, gone.any (fun f => !rels.contains f.tag)),
      (7, decide (128 < others.length + edgesNew) || (o.cls == 0 && decide (16 < edgesNew))),
      (9, !range), (10, foOnRole s o.cluster)]
    let bofs := if n.cls = 0 then (firstFit (bodies (s.modTask t (fun x => { x with oldBofs := some (x.bofs, bodySize x.desc) }))
      n.cluster t) (bodySize n)).getD 0 else 0
    (e, some ⟨n, xs, rels, bofs⟩)

/-- EXCHANGE_VALIDATED (R193): PEND and the exchange, or the refusal; a task that is not in RUN is at its boundary. -/
def execExchangeValidated (s : State) : Result :=
  .next (
    if ¬ s.fbit VPI_TXSTAT_BUSY ∨ s.fget VPI_TXCMD_CMD ≠ 2 then s
    else
      let s := (s.fset VPI_TXSTAT_BUSY 0).fset VPI_TXCMD_CMD 0
      let cl := s.fget VPI_TXBLK_CL
      let ofs := s.fget VPI_TXBLK_OFS
      if roleDown s cl then s.fset VPI_TXSTAT_ERR 2
      else
        let (hd, s) := s.engRead 21 0xFF (sramAddr cl ofs) 32
        let t := leAt hd 0 2 % 2 ^ 14
        let (b, s) := readDesc t s
        match checkExchange s hd ofs cl b with
        | (0, some e) =>
          let s := (s.modTask t (fun x => { x with exch := some e })).fset VPI_TXSTAT_PEND 1
          let s := if e.newDesc.cls = 0 then s.fset VPI_TXTIME_X (60 + 2 * e.xfers.length + e.rels.length) else s
          (match s.task t with
           | some x => if x.st = .run then s else exchangeStep t s
           | none => s)
        | (e, _) => s.fset VPI_TXSTAT_ERR (if e = 0 then 1 else e))

/-! ### Registers (R199) -/

/-- The task that VPI_TSEL selects. -/
def selTask (s : State) : Option Task := s.task (s.fget VPI_TSEL_TASK)

/-- VPI_TRUN of a task. -/
def trunWord (x : Task) : Nat :=
  let st := match x.st with
    | .idle => 0
    | .run => 1
    | .stopped => 2
    | .faulted => 3
  x.desc.gen * 65536 + x.cflt * 256 + st

/-- Reads of the task-control registers. -/
def txRead (off : Nat) (s : State) : Nat × State :=
  let sel := s.fget VPI_TSEL_TASK
  if off = 0x8024 then ((match selTask s with
    | some x => trunWord x
    | none => 0), s)
  else if off = 0x8028 then
    (match selTask s with
     | some x => (x.skip * 65536 + x.dmiss, s.modTask sel (fun x => { x with skip := 0, dmiss := 0 }))
     | none => (0, s))
  else if off = 0x802C then
    (match selTask s with
     | some x => (x.ovr * 65536 + x.abt, s.modTask sel (fun x => { x with ovr := 0, abt := 0 }))
     | none => (0, s))
  else tableRead regsVPI (0xF000150000 + off) s

/-- Writes of the task-control registers. -/
def txWrite (off v : Nat) (s : State) : Rsp × State :=
  if off = 0x8000 then txCmd v s else tableWrite regsVPI (0xF000150000 + off) v s

end Sys2Proof.Machine
end

