-- ==== Sys2Proof/Machine/Paced.lean ====
section
/-! DEFINITION. The Bezel and its operating points, admission, the VC0 reservations and the arbiters on VC2
(spec file 05). -/
namespace Sys2Proof.Machine

open Reg

/-! ### Beat rate and operating points (R140 to R145) -/

/-- Changes the Bezel. -/
def State.modBezel (f : Bezel → Bezel) (s : State) : State := { s with bezel := f s.bezel }

/-- A RATE code in MHz (R140). -/
def rateMhz (r : Nat) : Nat := 125 + 25 * r

/-- The highest beat rate of an operating point (R141). -/
def opMax (p : Nat) : Nat := nth [200, 325, 450, 550, 650] p

/-- The rate the Bezel goes to: RATE once beats come from the beat PLL (R140). -/
def rateGoal (s : State) : Nat := if s.fbit BEZEL_STAT_SRC then rateMhz (s.fget BEZEL_BEAT_RATE) else s.bezel.rate

/-- The beat rate that the order of changes goes by: within a glide, the faster of its ends (assumption 35). -/
def rateNow (s : State) : Nat := max s.bezel.rate (rateGoal s)

/-- OPPEND follows OPTGT and OPCUR (R167). -/
def setOppend (s : State) : State := s.fsetB BEZEL_STAT_OPPEND (s.fget BEZEL_OPTGT_OP != s.fget BEZEL_STAT_OPCUR)

/-- Whether a ramp to OPTGT may start (R142): up at once unless OP4 waits for the cold plate, down once the beat rate
allows the target. -/
def rampReady (s : State) (rate : Nat) : Bool :=
  let cur := s.fget BEZEL_STAT_OPCUR
  let tgt := s.fget BEZEL_OPTGT_OP
  s.bezel.ramp.isNone && (if cur < tgt then !(tgt == 4 && s.fbit BEZEL_STAT_HOT) else decide (tgt < cur) && decide (rate ≤ opMax tgt))

/-- Starts a ramp to OPTGT: the current point is the lower end and a glide pauses (R142, R143). -/
def rampGo (s : State) : State :=
  let tgt := s.fget BEZEL_OPTGT_OP
  let s := s.modBezel (fun b => { b with ramp := some tgt })
  (s.fset BEZEL_STAT_SLEW 0).fset BEZEL_STAT_OPCUR (min (s.fget BEZEL_STAT_OPCUR) tgt)

/-- Starts the ramp if it may start now; OPPEND follows. -/
def rampTry (s : State) : State := setOppend (if rampReady s (rateNow s) then rampGo s else s)

/-- A glide towards RATE begins, is redirected, or waits for the end of a ramp (R143). -/
def glideTo (r : Nat) (s : State) : State :=
  let was := s.fbit BEZEL_STAT_SLEW
  let s := s.modBezel (fun b => { b with rate := rateNow s })
  let s := s.fset BEZEL_BEAT_RATE r
  s.fsetB BEZEL_STAT_SLEW (s.fbit BEZEL_STAT_SRC && s.bezel.ramp.isNone && (was || rateGoal s != s.bezel.rate))

/-- A write of BEZEL_BEAT (R142). -/
def rateOp (v : Nat) (s : State) : Rsp × State :=
  let r := v % 32
  if 21 < r then (.denied, s)
  else if opMax (s.fget BEZEL_STAT_OPCUR) < rateMhz r ∨
      (s.adm = true ∧ s.fget BEZEL_FLOOR_FLOOR < 0x1F ∧ r < s.fget BEZEL_FLOOR_FLOOR) then
    (.denied, ((s.fset BEZEL_STAT_RATEREF 1).bump BEZEL_CNT_RATEREF).log' BEZEL_STAT_RATEREF false 4 0xFF [r])
  else (.ok, glideTo r s)

/-- RATE_WRITE. -/
def execRateWrite (rq : Req) (v : Word) (s : State) : Result := .next (s.regWriteAccess rq 0xF000030008 (rateOp v.toNat))

/-- GLIDE_COMPLETE (R143). -/
def execGlideComplete (s : State) : Result :=
  .next (
    if ¬ s.fbit BEZEL_STAT_SLEW then s
    else (s.modBezel (fun b => { b with rate := rateGoal s })).fset BEZEL_STAT_SLEW 0)

/-- A write of BEZEL_OPTGT (R142). -/
def optgtOp (v : Nat) (s : State) : Rsp × State :=
  let p := v % 8
  if 4 < p ∨ (p = 0 ∧ ¬ s.fbit BEZEL_STAT_SRC) then (.denied, s) else (.ok, rampTry (s.fset BEZEL_OPTGT_OP p))

/-- OPTGT_WRITE. -/
def execOptgtWrite (rq : Req) (v : Word) (s : State) : Result := .next (s.regWriteAccess rq 0xF00003000C (optgtOp v.toNat))

/-- RAMP_START: the beat rate has fallen to the maximum of the target, possibly within a glide, or the cold plate has
cooled (R142). -/
def execRampStart (s : State) : Result :=
  .next (
    let m := opMax (s.fget BEZEL_OPTGT_OP)
    let down := s.fget BEZEL_OPTGT_OP < s.fget BEZEL_STAT_OPCUR
    let s := if s.fbit BEZEL_STAT_SLEW ∧ down ∧ rateGoal s ≤ m ∧ s.bezel.ramp.isNone then
        s.modBezel (fun b => { b with rate := min b.rate m })
      else s
    rampTry s)

/-- The power controller leaves OP4 (R144). -/
def leaveOp4 (s : State) : State :=
  let s := if s.fbit BEZEL_STAT_SRC ∧ 17 < s.fget BEZEL_BEAT_RATE then glideTo 17 s else s
  let s := ((s.fset BEZEL_OPTGT_OP 3).fset BEZEL_STAT_HOTL 1).log' BEZEL_STAT_HOTL false 4 0xFF []
  rampTry s

/-- RAMP_COMPLETE (R143): the point is reached, a glide that paused goes on, and what waits for the ramp may start. -/
def execRampComplete (s : State) : Result :=
  .next (
    match s.bezel.ramp with
    | none => s
    | some p =>
      let s := (s.modBezel (fun b => { b with ramp := none })).fset BEZEL_STAT_OPCUR p
      let s := s.fsetB BEZEL_STAT_SLEW (rateGoal s != s.bezel.rate)
      if p = 4 ∧ s.fbit BEZEL_STAT_HOT then leaveOp4 s else rampTry s)

/-- OP4_HOT_EXIT: the cold plate rises above 55 °C; at OP4 the point is left (R144). -/
def execOp4HotExit (s : State) : Result :=
  .next (
    let s := s.fset BEZEL_STAT_HOT 1
    if s.fget BEZEL_STAT_OPCUR = 4 then leaveOp4 s else s)

/-- HOT_CLEAR (R144). -/
def execHotClear (s : State) : Result := .next (s.fset BEZEL_STAT_HOT 0)

/-- SLACK_READING: the lowest slack of cluster `c` is `slack` (units of 0.5 %) at lane `lane` (R145). -/
def execSlackReading (c : Fin 5) (lane : Fin 8) (slack : Nat) (s : State) : Result :=
  .next (
    if ¬ s.domOn c then s
    else
      let now := min slack 255
      let s := ((s.fset (BEZEL_SLACK_NOW c) now).fset (BEZEL_SLACK_LANE c) lane).fset (BEZEL_SLACK_MIN c)
        (min now (s.fget (BEZEL_SLACK_MIN c)))
      let cur := s.fget BEZEL_STAT_OPCUR
      if 30 ≤ now ∨ s.bezel.ramp.isSome then s
      else if cur = 4 ∨ (cur = 3 ∧ s.fbit BEZEL_STAT_HOT) then relinquish c 4 lane 0 s
      else
        let s := ((s.fset BEZEL_OPTGT_OP (cur + 1)).fset BEZEL_STAT_SLACKUP 1).bump BEZEL_CNT_SLACKUP
        rampTry (s.log' BEZEL_STAT_SLACKUP false 4 0xFF [c.val * 16 + lane.val]))

/-- A read of BEZEL_SLACKc: the word, then MIN reloaded with NOW (R167). -/
def slackReadOp (c : Nat) (s : State) : Nat × State :=
  let now := s.fget (BEZEL_SLACK_NOW c)
  (s.fget (BEZEL_SLACK_LANE c) * 65536 + now * 256 + s.fget (BEZEL_SLACK_MIN c), s.fset (BEZEL_SLACK_MIN c) now)

/-- BEZEL_SLACK_READ. -/
def execBezelSlackRead (rq : Req) (c : Fin 5) (s : State) : Result :=
  .next (s.regReadAccess rq (0xF000030020 + 4 * c) (slackReadOp c))

/-- Reads of the BEZEL block. -/
def bezelRead (off : Nat) (s : State) : Nat × State :=
  if 0x20 ≤ off ∧ off < 0x34 then slackReadOp ((off - 0x20) / 4) s else tableRead regsBEZEL (0xF000030000 + off) s

/-- Writes of the BEZEL block. -/
def bezelWrite (off v : Nat) (s : State) : Rsp × State :=
  if off = 8 then rateOp v s else if off = 0xC then optgtOp v s else tableWrite regsBEZEL (0xF000030000 + off) v s

/-! ### Admission (R157, R158) -/

/-- The bytes of a lane block in the slot table of group `g` (R150); what lies past the SRAM or cannot be read is ones. -/
def laneBlock (s : State) (g l : Nat) : List Byte :=
  let o := 256 * s.fget (SCHED_STBASE_OFS g) + 272 * l
  if 0x400000 < o + 272 ∨ s.eccHit (sramAddr g o) 272 then List.replicate 272 0xFF else s.rd (sramAddr g o) 272

/-- The slot tables of the clusters that are ON, by group and lane. -/
def slotTables (s : State) : List (Nat × Nat × List Byte) :=
  ((List.range 5).filter (fun g => s.clusterFitted g && s.domOn g)).flatMap (fun g =>
    (List.range 8).map (fun l => (g, l, laneBlock s g l)))

/-- Check 3 on a lane block (R157). -/
def blockBad (s : State) (b : List Byte) : Bool :=
  let srcs := (List.range 4).map (fun i => leAt b (4 * i) 4)
  let srcBad := srcs.any (fun w => bitOf w 31 && (bitsOf w 24 7 != 0 || bitOf w 11 || bitsOf w 12 12 == 0))
  let entBad := fun (i : Nat) =>
    let e := sliceOf b (16 + 16 * i) 16
    let ctl := leAt e 2 1
    let t := leAt e 0 2
    let c0 := match s.task t with
      | some x => x.held && x.desc.cls == 0
      | none => false
    bitOf ctl 7 && (!c0 || !bitOf (nth srcs (ctl % 4)) 31 || bitsOf ctl 2 5 != 0 || leAt e 3 1 != 0 || leAt e 4 4 == 0 ||
      decide (0xFFFFF < leAt e 4 4) || !allZero (sliceOf e 8 8))
  srcBad || (List.range 16).any entBad

/-- A lane block holds a used entry. -/
def blockUsed (b : List Byte) : Bool := (parseEntries b).any (·.v)

/-- The reservations of a link direction exceed 256 units (R161). -/
def vc0Over (s : State) : Bool :=
  let u := fun (n : Nat) => s.fget (FAB_VC0RES_UNITS n)
  decide (256 < ((List.range 5).map u).sum) || decide (256 < u 5) || decide (256 < u 6) || decide (256 < u 7)

/-- The checks of R157 in their order: the code with cluster and lane of the first failure, or the funded state. -/
def admitCheck (s : State) : (Nat × Nat × Nat) × State :=
  let tabs := slotTables s
  let fl := s.fget BEZEL_FLOOR_FLOOR
  let used := tabs.filter (fun p => blockUsed p.2.2)
  let roles := (List.range 4).filter (fun c => used.any (fun p => p.1 == s.groupOf c))
  if ¬ s.fbit BEZEL_STAT_SRC then ((1, 7, 0), s)
  else if 17 < fl ∨ s.fget BEZEL_BEAT_RATE < fl then ((2, 7, 0), s)
  else
    match tabs.find? (fun p => blockBad s p.2.2) with
    | some p => ((3, p.1, p.2.1), s)
    | none =>
      match fundAdmit roles s with
      | none => ((4, ((roles.find? (fun c => s.fget (PWR_C0FUND_MW c) == 0)).map s.groupOf).getD 7, 0), s)
      | some t =>
        if vc0Over s then ((5, 7, 0), s)
        else
          match used.find? (fun p => p.1 == s.groupOf 4) with
          | some p => ((6, p.1, p.2.1), s)
          | none => if s.adm then ((7, 7, 0), s) else ((0, 0, 0), t)

/-- The key slots that class-0 entries name (R427). -/
def c0Keys (s : State) : List Nat :=
  ((s.net.cache.filter (fun e => seV e.raw && seC0 e.raw)).map (fun e => seKs e.raw)) ++
    ((s.pubs.filter (fun p => p.2.v && p.2.c0)).map (fun p => p.2.ks))

/-- The dispatchers copy their slot tables, and the module keeps each role's header and table copy (R158, R342). -/
def installTables (s : State) : State :=
  let s := s.each (slotTables s) (fun p s => loadBlock (clusterLane p.1 p.2.1) p.2.2 s)
  s.each ((List.range 4).filter (fun c => s.domOn (s.groupOf c))) (fun c s =>
    let g := s.groupOf c
    let hd := leBytes 4 (s.fget (SCHED_STBASE_OFS g)) ++ leBytes 4 (s.fget (FAB_VC0RES_UNITS g)) ++
      leBytes 4 (s.fget BEZEL_FLOOR_FLOOR)
    (s.wr (ckpt c 0x500000) (padTo 256 hd)).wr (ckpt c 0x500100) ((List.range 8).flatMap (laneBlock s g)))

/-- The first admission after a reset (R462). -/
def protectionReady (s : State) : State :=
  if s.fbit SYS_STAT_PREADY then s else (s.fset SYS_STAT_PREADY 1).fset SYS_TREADY_MS (s.since / 250000)

/-- A write of 1 to SCHED_CTL.ADMIT. -/
def admitOp (s : State) : State :=
  match admitCheck s with
  | ((0, _, _), t) =>
    let t := lockKeys (c0Keys t) (installTables t)
    protectionReady ((t.fset SCHED_STAT_ERR 0).fset SCHED_STAT_ADM 1)
  | ((e, c, l), _) =>
    (((s.fset SCHED_STAT_ERR e).fset SCHED_STAT_CL c).fset SCHED_STAT_LANE l).log' SCHED_STAT_ERR false 4 0xFF [e, c, l]

/-- A write of 1 to SCHED_CTL.REVOKE; one that falls within a takeover waits for its end (R158, R351). -/
def revokeOp (s : State) : State :=
  if s.fbit FAILOVER_STAT_BUSY then s.modFo (fun f => { f with revokePend := true }) else revokeNow s

/-- A write of SCHED_CTL. -/
def schedCtlOp (v : Nat) (s : State) : Rsp × State :=
  let s := (s.fsetB SCHED_CTL_OVRIE (bitOf v 9)).fsetB SCHED_CTL_COLLIE (bitOf v 8)
  let s := if bitOf v 1 then revokeOp s else s
  (.ok, if bitOf v 0 then admitOp s else s)

/-- ADMIT. -/
def execAdmission (rq : Req) (v : Word) (s : State) : Result :=
  .next (s.regWriteAccess rq 0xF000040000 (schedCtlOp (putBit v.toNat 0 true)))

/-- REVOKE. -/
def execRevoke (rq : Req) (v : Word) (s : State) : Result :=
  .next (s.regWriteAccess rq 0xF000040000 (schedCtlOp (putBit v.toNat 1 true)))

/-- Writes of the SCHED block. -/
def schedWrite (off v : Nat) (s : State) : Rsp × State :=
  if off = 0 then schedCtlOp v s else tableWrite regsSCHED (0xF000040000 + off) v s

/-- Reads of the SCHED block. -/
def schedRead (off : Nat) (s : State) : Nat × State := tableRead regsSCHED (0xF000040000 + off) s

/-! ### VC0 reservations and arbiters (R161 to R165) -/

/-- The VC0 sources of a link direction: C to F, F to C, N to F, F to N (R161). -/
def dirSources (d : Fin 4) : List (Fin 8) :=
  match d with
  | 0 => [0, 1, 2, 3, 4]
  | 1 => [5]
  | 2 => [6]
  | 3 => [7]

/-- A source's share of a frame: `sent` units wanted to go; those beyond its reservation wait for the next frame. -/
def frameSource (p : Fin 8 × Nat) (s : State) : State :=
  let n := p.1
  let rest := s.resv[n] + p.2 - s.fget (FAB_VC0RES_UNITS n)
  let fresh := min p.2 rest
  let s := { s with resv := s.resv.set n rest }
  if fresh = 0 then s
  else ((s.bumpBy FAB_VC0EXC_N fresh).fset FAB_VC0STAT_EXCL 1).fset FAB_VC0STAT_SRC n

/-- RESERVATION_FRAME_END: the frame of a link direction in which its sources had `sent` units (R161). -/
def execReservationFrameEnd (dir : Fin 4) (sent : List Nat) (s : State) : Result :=
  .next (s.each ((dirSources dir).zip sent) frameSource)

/-- Puts an arriving request among those of lower input numbers that arrive with it. -/
def byInput (r : GrantReq) : List GrantReq → List GrantReq
  | [] => [r]
  | x :: l => if r.input ≤ x.input then r :: x :: l else x :: byInput r l

/-- A request joins its input's queue of 16; while the queue is full it stays with its issuer (R164). -/
def enqueueReq (q : List ArbReq) (r : GrantReq) : List ArbReq :=
  if 16 ≤ (q.filter (fun x => x.input == r.input)).length ∨ 64 < r.index ∨ r.units = 0 ∨ 4 < r.units then q
  else q ++ [⟨r.input, r.index, r.units⟩]

/-- The weight an arbiter goes by: the switch ingress keeps a VPI's earlier share until it has switched (R327). Arbiters
from 32 on are those of the switch ingress (assumption 36). -/
def arbWeight (s : State) (a v : Nat) : Nat :=
  if v < 64 ∧ 32 ≤ a then max 1 ((s.vpi v).oldW.getD (s.vpi v).ent.w) else ticketWeight s v

/-- ARBITER_GRANT: requests arrive at arbiter `a`, and it grants one (R165). -/
def execArbiterGrant (a : Nat) (arrivals : List GrantReq) (s : State) : Result :=
  .next (
    let x := (alookup a s.arbs).getD ⟨deficit0, [], none⟩
    let q := (arrivals.foldr byInput []).foldl enqueueReq x.queue
    let (v, d) := if q = [] then (none, x.d) else
      grantOf (arbWeight s a) (fun v => (q.find? (fun r => r.index == v)).map (·.units)) x.d
    let won := v.bind (fun v => q.find? (fun r => r.index == v))
    let q := match won with
      | some r => q.erase r
      | none => q
    { s with arbs := ainsert a ⟨d, q, if won.isSome then won else x.last⟩ s.arbs })

/-- Reads of the FAB block. -/
def fabRead (off : Nat) (s : State) : Nat × State := tableRead regsFAB (0xF000050000 + off) s

/-- Writes of the FAB block. -/
def fabWrite (off v : Nat) (s : State) : Rsp × State := tableWrite regsFAB (0xF000050000 + off) v s

end Sys2Proof.Machine
end

