-- ==== Sys2Proof/Machine/Vpi.lean ====
section
/-! DEFINITION. The VPI block (spec file 11): entries and their staging, publish and subscription entries, the states of an
instance, reset and freeze, the self window and GOOSE subscription. -/
namespace Sys2Proof.Machine

open Reg

/-! ### VPI entries (R318 to R321, R327, R332) -/

/-- A VPI entry from its 64 bytes. -/
def parseVpi (b : List Byte) : VpiEntry :=
  { gen := leAt b 0 2, v := bitOf (leAt b 2 1) 7, w := leAt b 3 1, cells := leAt b 4 4, ttab := leAt b 8 4,
    lanes := leAt b 0xC 4, st2 := leAt b 0x10 4, kst1 := leAt b 0x14 4, kpc := leAt b 0x18 4, ksp := leAt b 0x1C 4,
    pubBase := leAt b 0x20 2, pubN := leAt b 0x22 2, evp := leAt b 0x24 2, evo := leAt b 0x26 2, smac := beAt b 0x28 6,
    smacn := leAt b 0x2E 1 }

/-- A reserved bit set, or in a valid entry a value out of range (ERR 1). -/
def vpiRangeBad (b : List Byte) : Bool :=
  let e := parseVpi b
  leAt b 2 1 % 128 != 0 || e.cells / 2 ^ 18 != 0 || e.ttab / 2 ^ 28 != 0 || e.st2 / 2 ^ 28 != 0 ||
    !allZero (sliceOf b 0x2F 17) ||
  (e.v && (e.w == 0 || decide (196608 < e.cells) || e.ttab % 4 != 0 || e.st2 % 2 != 0 || decide (4095 < e.pubBase) ||
    decide (256 < e.pubN) || decide (16 < e.smacn)))

/-- A failover is in progress on a cluster that a VPI's entry names (R351). -/
def vpiInFo (s : State) (v : Nat) : Bool :=
  let e := (s.vpi v).ent
  (List.range 4).any (fun c => bitsOf e.lanes (8 * c) 8 != 0 && foOnRole s c)

/-- Tasks of a VPI that are taken up. -/
def vpiTasks (s : State) (v : Nat) : List (Nat × Task) := s.tasks.filter (fun p => p.1 / 256 == v && p.2.held)

/-- Entries of the other VPIs. -/
def otherVpis (s : State) (v : Nat) : List VpiEntry :=
  ((List.range 64).filter (fun u => u != v && (s.vpi u).ent.v)).map (fun u => (s.vpi u).ent)

/-- LANES names an absent cluster or removes a lane with a taken-up task (ERR 4). -/
def lanesBad (s : State) (v : Nat) (e : VpiEntry) : Bool :=
  (List.range 4).any (fun c => bitsOf e.lanes (8 * c) 8 != 0 && !s.clusterFitted (s.groupOf c)) ||
    (vpiTasks s v).any (fun p => !bitOf e.lanes (8 * p.2.desc.cluster + p.2.desc.lane))

/-- The publish range lies outside the table or overlaps another VPI's (ERR 5). -/
def rangeBad (s : State) (v : Nat) (e : VpiEntry) : Bool :=
  decide (4096 < e.pubBase + e.pubN) ||
    (otherVpis s v).any (fun o => !apart e.pubBase e.pubN o.pubBase o.pubN && e.pubN != 0 && o.pubN != 0)

/-- The error code of an UPDATE of VPI `v` (R335, R498). -/
def vpiErr (s : State) (v : Nat) (b : List Byte) : Nat :=
  let e := parseVpi b
  let x := s.vpi v
  let others := otherVpis s v
  let active := x.st == .run || x.st == .frozen || x.st == .resetting
  firstErr [(1, vpiRangeBad b), (2, e.gen != (x.ent.gen + 1) % 65536), (3, decide (63 < v)),
    (4, e.v && lanesBad s v e), (5, e.v && rangeBad s v e),
    (6, e.v && (decide (15360 < e.evp + (others.map (·.evp)).sum) || decide (45056 < e.evo + (others.map (·.evo)).sum))),
    (8, (!e.v && (active || !(vpiTasks s v).isEmpty)) || (e.v && active && e.st2 != x.ent.st2)),
    (10, vpiInFo s v)]

/-- The weight the switch ingress keeps after a change of share (R327). -/
def oldWeight (s : State) (v : Nat) (e : VpiEntry) : Option Nat :=
  let x := s.vpi v
  if x.ent.v ∧ e.v ∧ x.oldW.getD x.ent.w ≠ e.w ∧ e.cells ≤ s.net.occupancy v then some (x.oldW.getD x.ent.w) else none

/-- UPDATE of a VPI entry. -/
def vpiUpdateOp (v : Nat) (s : State) : Nat × State :=
  let (b, s) := s.engRead 21 0xFF (s.fget VPI_STSRC_ADDR * 64) 64
  let err := vpiErr s v b
  if err ≠ 0 then (err, s)
  else
    let e := parseVpi b
    let w := oldWeight s v e
    (0, s.modVpi v (fun x => { x with
      ent := e, oldW := w, st := if ¬ e.v then .off else if x.st = .off then .ready else x.st }))

/-- SHARE_INGRESS_SWITCH: the occupancy has fallen below the new CELLS (R327). -/
def execShareIngressSwitch (vmid : Fin 64) (s : State) : Result :=
  .next (
    if (s.vpi vmid).oldW.isSome ∧ s.net.occupancy vmid < (s.vpi vmid).ent.cells then
      s.modVpi vmid (fun x => { x with oldW := none })
    else s)

/-! ### Publish entries (R322, R323) -/

/-- A publish entry from its 64 bytes. -/
def parsePub (b : List Byte) : Pub :=
  let c := leAt b 2 1
  { gen := leAt b 0 2, v := bitOf c 7, c0 := bitOf c 6, sw := bitOf c 5, auth := bitOf c 4, kind := c % 4,
    vmid := leAt b 3 1, dmac := beAt b 4 6, appid := leAt b 0xA 2, refh := leAt b 0xC 4, ports := leAt b 0x10 2,
    tc := leAt b 0x12 1, ks := leAt b 0x13 1, tpl := leAt b 0x14 2, tlen := leAt b 0x16 2, dofs := leAt b 0x18 2,
    dlen := leAt b 0x1A 2, tmin := leAt b 0x1C 2, tmax := leAt b 0x1E 2, stinit := leAt b 0x20 4, held := [], stNum := 0,
    sqNum := 0, utc := zeroBytes 8, sched := none }

/-- A reserved bit set, or in a valid entry a value out of range (ERR 1). -/
def pubRangeBad (b : List Byte) : Bool :=
  let p := parsePub b
  bitsOf (leAt b 2 1) 2 2 != 0 || p.ports / 2 ^ 13 != 0 || p.tc / 8 != 0 || !allZero (sliceOf b 0x24 28) ||
  (p.v && (p.kind == 0 || p.kind == 3 || decide (63 < p.vmid) || p.tc == 7 ||
    (if p.auth then decide (63 < p.ks) else p.ks != 0xFF) || decide (p.tlen < 60) || decide (1518 < p.tlen) ||
    p.dlen == 0 || decide (1024 < p.dlen) || decide (p.tmin < 100) || decide (60000 < p.tmin) || p.tmax == 0 ||
    decide (60000 < p.tmax) || decide (p.tmax * 1000 < p.tmin)))

/-- Offset and length of the contents of the first element `t` of a list of elements that starts at offset `o`. -/
def berOffset (t : Nat) : Nat → List Byte → Nat → Option (Nat × Nat)
  | 0, _, _ => none
  | n + 1, b, o =>
    match berTake b with
    | some (u, v, r) =>
      if u = t then some (o + (b.length - v.length - r.length), v.length) else berOffset t n r (o + (b.length - r.length))
    | none => none

/-- Offset and length of the allData contents in a GOOSE frame. -/
def allDataAt (b : List Byte) : Option (Nat × Nat) :=
  match apduOf b with
  | some a =>
    (match berTake a with
     | some (_, v, r) => berOffset 0xAB 64 v (frEtOff b + 10 + (a.length - v.length - r.length))
     | none => none)
  | none => none

/-- A template that KIND 1 does not accept. -/
def templateBad (p : Pub) (tpl : List Byte) : Bool :=
  match apduElems 0x61 tpl with
  | some l =>
    frEt tpl != 0x88B8 || !([0x81, 0x85, 0x86].all (fun t => (berFind t l).isSome)) ||
      ((berFind 0x84 l).map (·.length)) != some 8 || allDataAt tpl != some (p.dofs, p.dlen)
  | none => true

/-- The refusals of R322 (ERR 5). -/
def pubRefused (s : State) (i : Nat) (p : Pub) (tpl : List Byte) : Bool :=
  let e := (s.vpi p.vmid).ent
  let others := s.pubs.filter (fun q => q.1 != i && q.2.v)
  !s.domOn 7 || !(e.v && decide (e.pubBase ≤ i) && decide (i < e.pubBase + e.pubN)) || (p.sw && p.c0) ||
    decide (0x100000 < p.tpl * 64 + p.tlen) || others.any (fun q => !apart (p.tpl * 64) p.tlen (q.2.tpl * 64) q.2.tlen) ||
    (p.kind == 1 && templateBad p tpl) || absentPorts s p.ports ||
    others.any (fun q => q.2.kind == p.kind && q.2.dmac == p.dmac && q.2.appid == p.appid && q.2.refh == p.refh)

/-- What the publisher does with an accepted entry (R323). -/
def pubInstall (i : Nat) (p : Pub) (tpl : List Byte) (s : State) : State :=
  let data := sliceOf tpl p.dofs p.dlen
  let s := { s with pubMem := memWrite s.pubMem (p.tpl * 64) tpl }
  match s.pub i with
  | some q =>
    if q.v then
      let p := { p with held := q.held, stNum := q.stNum, sqNum := q.sqNum, utc := q.utc, sched := q.sched }
      if p.dlen = q.dlen ∨ p.kind ≠ 1 then s.setPub i p else pubChange i p data s
    else s.setPub i { p with held := data, stNum := p.stinit, utc := (((apduElems 0x61 tpl).bind (berFind 0x84)).getD (zeroBytes 8)) }
  | none => s.setPub i { p with held := data, stNum := p.stinit, utc := (((apduElems 0x61 tpl).bind (berFind 0x84)).getD (zeroBytes 8)) }

/-- PUBUPD: the entry and the template behind it are read, checked and taken over (R322). -/
def pubUpdateOp (i : Nat) (s : State) : Nat × State :=
  let a := s.fget VPI_STSRC_ADDR * 64
  let (b, s) := s.engRead 21 0xFF a 64
  let p := parsePub b
  let (tpl, s) := if p.v then s.engRead 21 0xFF (a + 64) (min p.tlen 1518) else ([], s)
  let old := s.pub i
  let oldC0 := match old with
    | some q => q.v && q.c0
    | none => false
  let owner := if p.v then p.vmid else (old.map (·.vmid)).getD p.vmid
  let err := firstErr [(1, pubRangeBad b), (2, p.gen != (((old.map (·.gen)).getD 0) + 1) % 65536), (3, decide (4095 < i)),
    (5, p.v && pubRefused s i p tpl), (7, s.adm && ((p.v && p.c0) || oldC0)), (10, vpiInFo s owner)]
  if err ≠ 0 then (err, s) else (0, if p.v then pubInstall i p tpl s else s.setPub i p)

/-! ### Subscriptions (R325) -/

/-- A subscription entry from its 32 bytes. -/
def parseSub (b : List Byte) : Sub :=
  { gen := leAt b 0 2, v := bitOf (leAt b 2 1) 7, sim := bitOf (leAt b 2 1) 6, vmid := leAt b 3 1,
    cluster := bitsOf (leAt b 4 1) 4 3, lane := leAt b 4 1 % 8, dofs := leAt b 6 2, dlen := leAt b 8 2, confRev := leAt b 0xC 4,
    last := none }

/-- A reserved bit set, or in a valid entry a value out of range (ERR 1). -/
def subRangeBad (b : List Byte) : Bool :=
  let e := parseSub b
  leAt b 2 1 % 64 != 0 || bitOf (leAt b 4 1) 7 || bitOf (leAt b 4 1) 3 || leAt b 5 1 != 0 || leAt b 0xA 2 != 0 ||
    !allZero (sliceOf b 0x10 16) ||
  (e.v && (e.dofs % 8 != 0 || e.dlen == 0 || decide (224 < e.dlen) || decide (0x10000 < e.dofs + 32 + e.dlen)))

/-- VMID or DEST is inconsistent (ERR 9): not in the VPI's LANES, or not the owner that a stream entry held in the cache
names. -/
def subPlaceBad (s : State) (i : Nat) (e : Sub) : Bool :=
  decide (3 < e.cluster) || (if e.vmid < 64 then
      !((s.vpi e.vmid).ent.v && bitOf (s.vpi e.vmid).ent.lanes (8 * e.cluster + e.lane))
    else e.vmid != 0xFF || !s.clusterFitted (s.groupOf e.cluster)) ||
    s.net.cache.any (fun c => seV c.raw && seKind c.raw == 2 && seTarget c.raw == i && seVmid c.raw != e.vmid)

/-- SUBUPD. -/
def subUpdateOp (i : Nat) (s : State) : Nat × State :=
  let (b, s) := s.engRead 21 0xFF (s.fget VPI_STSRC_ADDR * 64) 32
  let e := parseSub b
  let old := ((alookup i s.subs).map (·.gen)).getD 0
  let err := firstErr [(1, subRangeBad b), (2, e.gen != (old + 1) % 65536), (3, decide (8191 < i)),
    (9, e.v && subPlaceBad s i e), (10, foOnRole s e.cluster)]
  if err ≠ 0 then (err, s) else (0, { s with subs := ainsert i e s.subs })

/-- A boolean BER value. -/
def berBool (t : Nat) (l : List (Nat × List Byte)) : Bool := ((berFind t l).map (fun v => v.any (· != 0))).getD false

/-- An unsigned BER value of at most 32 bits. -/
def berU32 (t : Nat) (l : List (Nat × List Byte)) : Option Nat :=
  match berFind t l with
  | some v => if v = [] ∨ 5 < v.length ∨ 2 ^ 32 ≤ beVal v then none else some (beVal v)
  | none => none

/-- A GOOSE message accepted for subscription `i`: its consistency group (R325). -/
def subDeliver (i : Nat) (e : Sub) (f : NetFrame) (s : State) : State :=
  match apduElems 0x61 f.bytes with
  | none => s.bump VPI_GPARSE_N
  | some l =>
    match berU32 0x81 l, berU32 0x85 l, berU32 0x86 l, berU32 0x88 l, berFind 0xAB l with
    | some tal, some st, some sq, some rev, some data =>
      let sim := bitOf (beAt (frPay f.bytes) 4 2) 15
      if rev ≠ e.confRev then s.bump VPI_GCONF_N
      else if e.dlen < data.length then s.bump VPI_GLEN_N
      else if sim ∧ ¬ e.sim then s.bump VPI_GPARSE_N
      else
        let (pad, s) := if data.length < e.dlen then s.draw Site.goosePad (8 * (e.dlen - data.length)) else (0, s)
        let fl := b2n (berBool 0x87 l) + 2 * b2n sim + 4 * b2n (berBool 0x89 l)
        let block := tripleBytes f.ts ++ leBytes 4 st ++ leBytes 4 sq ++ leBytes 4 tal ++ leBytes 2 fl ++
          leBytes 2 data.length ++ zeroBytes 4 ++ data ++ leBytes (e.dlen - data.length) pad
        let s := { s with subs := ainsert i { e with last := some (block, f.ts + usUnits (1000 * tal), f.igen) } s.subs }
        groupWrite 21 f.owner f.igen e.cluster e.lane e.dofs block f.ts s
    | _, _, _, _, _ => s.bump VPI_GPARSE_N

/-- GOOSE_SUBSCRIBE: the engine takes the next frame of kind 2 that waits for I1. -/
def execGooseSubscribe (s : State) : Result :=
  .next (
    if ¬ s.domOn 5 then s
    else
      match takeI1 2 s with
      | none => s
      | some (f, s) =>
        match alookup f.target s.subs with
        | some e => if e.v then subDeliver f.target e f s else s
        | none => s)

/-- GOOSE_TAL_EXPIRY: the block is written once more with EXPIRED set. -/
def execGooseTalExpiry (sub : Nat) (s : State) : Result :=
  .next (
    match alookup sub s.subs with
    | some e =>
      (match e.last with
       | some (b, due, ig) =>
         if e.v ∧ due ≤ s.now ∧ s.domOn 5 then
           let s := { s with subs := ainsert sub { e with last := none } s.subs }
           let b := putAt b 0x18 (leBytes 2 (leAt b 0x18 2 ||| 8))
           groupWrite 21 e.vmid ig e.cluster e.lane e.dofs b (timeOfTriple (leAt b 0 4) (leAt b 4 4) (leAt b 8 4)) s
         else s
       | none => s)
    | none => s)

/-! ### States of an instance (R320, R329, R331) -/

/-- START: the kernel's context on the lowest-numbered lane of LANES. -/
def startOp (v : Nat) (s : State) : Nat × State :=
  let x := s.vpi v
  let lane := kernelLane s x.ent
  let up := match lane with
    | some l => s.domOn (laneGroup l)
    | none => false
  let err := firstErr [(3, decide (63 < v)), (8, x.st != .ready || !up), (10, vpiInFo s v)]
  match err, lane with
  | 0, some l =>
    let s := s.modVpi v (fun x => { x with st := .run })
    (0, dispatchIdle l (addCtx l (kernelCtx v 0 x.ent) s))
  | e, _ => (e, s)

/-- FREEZE: completes by FREEZE_DONE. -/
def freezeOp (v : Nat) (s : State) : Nat × State :=
  let err := firstErr [(3, decide (63 < v)), (8, (s.vpi v).st != .run), (10, vpiInFo s v)]
  if err ≠ 0 then (err, s) else (0, s.modVpi v (fun x => { x with freezing := true }))

/-- Every cluster lane. -/
def clusterLanes : List (Fin 52) := (List.finRange 52).filter isCluster

/-- THAW. -/
def thawOp (v : Nat) (s : State) : Nat × State :=
  let err := firstErr [(3, decide (63 < v)), (8, (s.vpi v).st != .frozen), (10, vpiInFo s v)]
  if err ≠ 0 then (err, s) else (0, (s.modVpi v (fun x => { x with st := .run })).each clusterLanes dispatchIdle)

/-- The running context of a lane that belongs to VPI `v` is kept and leaves the lane (R331 step 4). -/
def holdCtx (v : Nat) (l : Fin 52) (s : State) : State :=
  let mine : Bool := match (s.lane l).cur with
    | some (u, _) => u == v
    | none => false
  if ¬ mine then s
  else
    let s := drainBuf l false s
    let c := runningCtx s (s.lane l)
    s.modLane l (fun x => { x with
      ctxs := x.ctxs ++ c.toList, cur := none, st := if x.inG ∨ x.st = .stopped then x.st else .idle })

/-- FREEZE_DONE: no request of the instance's bank F contexts is outstanding any more. -/
def execFreezeDone (vmid : Fin 64) (s : State) : Result :=
  .next (
    let busy := clusterLanes.any (fun l => (s.lane l).out.isSome && (match (s.lane l).cur with
      | some (u, _) => u == vmid.val
      | none => false))
    if ¬ (s.vpi vmid).freezing ∨ busy then s
    else
      let s := s.each clusterLanes (holdCtx vmid)
      let s := s.modVpi vmid (fun x => { x with st := .frozen, freezing := false })
      ((s.fset VPI_STAT_FRZDONE 1).fset VPI_CMDSTAT_BUSY 0).each clusterLanes dispatchIdle)

/-- Ends the analytic-lane tickets of a VPI (R329 step 4). -/
def dropTickets (v : Nat) (s : State) : State :=
  let ids := (s.wams.tickets.filter (fun t => t.vmid == v)).map (·.id)
  let s := s.each (List.range 8) (fun a s =>
    if h : a < 8 then
      let l : Fin 52 := ⟨44 + a, by omega⟩
      match (s.lane l).ticket with
      | some id => if ids.contains id then s.modLane l (fun _ => lane0 .idle) else s
      | none => s
    else s)
  s.modWams (fun w => { w with tickets := w.tickets.filter (fun t => t.vmid != v), kq := w.kq.filter (fun i => !ids.contains i),
                               krecs := w.krecs.filter (fun r => r.1 != v) })

/-- Discards the frames of a VPI that have not begun to leave and disables its rings (R329 step 5). -/
def dropFrames (v : Nat) (s : State) : State :=
  let mine := fun (h : Nat) => match s.buf h with
    | some f => f.owner == v
    | none => false
  let low := (List.range 120).filter (fun k => k % 8 != 7)
  let occ := (low.flatMap (fun k => s.queue (k / 8) (k % 8))) ++ s.net.resid.map (·.handle) ++ s.net.arriving.map (·.2) ++
    s.tb.launch.toList.flatMap (fun l => l.map (·.handle))
  let gone := occ.filter mine
  let frames := (s.net.bufs.filter (fun p => gone.contains p.1)).length
  let missed := (s.net.missq.filter (fun f => f.owner == v)).length
  let n := 16 * 2 ^ s.fget (TXRING_CFG_SIZE v)
  let ring := if s.fbit (TXRING_CFG_EN v) then (s.fget (TXRING_TAIL_IDX v) + n - s.fget (TXRING_HEAD_IDX v) % n) % n else 0
  let s := s.each low (fun k s => setQueue (k / 8) (k % 8) ((s.queue (k / 8) (k % 8)).filter (fun h => !mine h)) s)
  let s := s.modNet (fun x => { x with
    resid := x.resid.filter (fun r => !mine r.handle), arriving := x.arriving.filter (fun r => !mine r.2),
    missq := x.missq.filter (fun f => f.owner != v) })
  let s := s.modTb (fun t => { t with launch := t.launch.map (fun l => l.filter (fun r => !mine r.handle)) })
  let s := s.each gone (fun h => unref h 1)
  let s := (s.fset (TXRING_HEAD_IDX v) (s.fget (TXRING_TAIL_IDX v))).bumpBy (SELF_RSTDROP_N v) (frames + missed + ring)
  (s.fset (RXRING_CFG_EN v) 0).fset (TXRING_CFG_EN v) 0

/-- STOP of every class-0 task and removal of the others (R329 step 2). -/
def stopTasks (v : Nat) (s : State) : State :=
  let s := if (vpiTasks s v).any (fun p => p.2.exch.isSome) then cancelExchange 11 s else s
  s.each (vpiTasks s v) (fun p s => if p.2.desc.cls = 0 then stopNow p.1 s else forgetTask p.1 s)

/-- RESET: steps 1 to 6 of R329; step 7 is VPI_RESET_DONE. -/
def resetOp (v : Nat) (s : State) : Nat × State :=
  let x := s.vpi v
  let err := firstErr [(3, decide (63 < v)), (8, x.st == .off || x.st == .resetting), (10, vpiInFo s v)]
  if err ≠ 0 then (err, s)
  else
    let s := s.modVpi v (fun x => { x with st := .resetting, igen := (x.igen + 1) % 256, freezing := false })
    let s := stopTasks v s
    let s := s.each clusterLanes (fun l s => dispatchIdle l (dropCtxs l (fun u _ => u == v) s))
    (0, dropFrames v (dropTickets v s))

/-- VPI_RESET_DONE (R329 step 7). -/
def execVpiResetDone (vmid : Fin 64) (s : State) : Result :=
  .next (
    if (s.vpi vmid).st ≠ .resetting then s
    else
      let s := s.modVpi vmid (fun x => { x with st := .ready })
      ((s.fset VPI_STAT_RSTDONE 1).fset VPI_CMDSTAT_BUSY 0).log' VPI_STAT_RSTDONE true 6 vmid [vmid])

/-! ### Commands and registers (R334 to R336) -/

/-- A write of VPI_CMD. -/
def vpiCmd (v : Nat) (s : State) : Rsp × State :=
  let op := bitsOf v 16 3
  let i := v % 2 ^ 13
  if op = 0 ∨ s.fbit VPI_CMDSTAT_BUSY ∨ s.fbit VPI_TXSTAT_BUSY then (.denied, s)
  else
    let s := (s.fset VPI_CMDSTAT_BUSY 1).fset VPI_CMDSTAT_ERR 0
    let done := fun (r : Nat × State) => (Rsp.ok, r.2.fset VPI_CMDSTAT_ERR r.1)
    if op = 1 then done (vpiUpdateOp i s)
    else if op = 2 then done (pubUpdateOp i s)
    else if op = 3 then done (subUpdateOp i s)
    else if op = 4 then done (startOp i s)
    else if op = 5 then done (freezeOp i s)
    else if op = 6 then done (thawOp i s)
    else done (resetOp i s)

/-- A VPI command completes (R499); FREEZE and RESET complete by their own commands. -/
def vpiComplete (s : State) : State :=
  let long := s.fget VPI_CMDSTAT_ERR == 0 && s.vpis.toList.any (fun x => x.freezing || x.st == .resetting)
  if long then s else s.fset VPI_CMDSTAT_BUSY 0

/-- VPI_UPDATE. -/
def execVpiUpdate (rq : Req) (index : Nat) (s : State) : Result :=
  .next (s.regWriteAccess rq 0xF00015000C (vpiCmd (0x10000 + index % 2 ^ 13)))

/-- PUBUPD. -/
def execPubupd (rq : Req) (index : Nat) (s : State) : Result :=
  .next (s.regWriteAccess rq 0xF00015000C (vpiCmd (0x20000 + index % 2 ^ 13)))

/-- SUBUPD. -/
def execSubupd (rq : Req) (index : Nat) (s : State) : Result :=
  .next (s.regWriteAccess rq 0xF00015000C (vpiCmd (0x30000 + index % 2 ^ 13)))

/-- START. -/
def execStartVpi (rq : Req) (index : Nat) (s : State) : Result :=
  .next (s.regWriteAccess rq 0xF00015000C (vpiCmd (0x40000 + index % 2 ^ 13)))

/-- FREEZE. -/
def execFreeze (rq : Req) (index : Nat) (s : State) : Result :=
  .next (s.regWriteAccess rq 0xF00015000C (vpiCmd (0x50000 + index % 2 ^ 13)))

/-- THAW. -/
def execThaw (rq : Req) (index : Nat) (s : State) : Result :=
  .next (s.regWriteAccess rq 0xF00015000C (vpiCmd (0x60000 + index % 2 ^ 13)))

/-- RESET. -/
def execResetVpi (rq : Req) (index : Nat) (s : State) : Result :=
  .next (s.regWriteAccess rq 0xF00015000C (vpiCmd (0x70000 + index % 2 ^ 13)))

/-- The code of a VPI state. -/
def vpiStCode : VpiSt → Nat
  | .off => 0
  | .ready => 1
  | .run => 2
  | .frozen => 3
  | .resetting => 4

/-- The VPI whose self window a requester sees (R334). -/
def selfView (s : State) (vmid : Nat) : Nat := if vmid < 64 then vmid else s.fget VPI_VSEL_VMID

/-- A read of the self window of VPI `v`. -/
def selfRead (v o : Nat) (s : State) : Nat × State :=
  let x := s.vpi v
  let rc := fun (f : Fld) => (s.fget f, s.fset f 0)
  if x.st = .off then (0, s)
  else if o = 0 then (vpiStCode x.st * 256 + v, s)
  else if o = 4 then (2 * b2n (x.st == .frozen) + b2n x.oldW.isSome, s)
  else if o = 0x10 then (s.fget (RXRING_HEAD_IDX v), s)
  else if o = 0x14 then (s.fget (RXRING_TAIL_IDX v), s)
  else if o = 0x18 then (regValue s [RXRING_CFG_IE v, RXRING_CFG_EN v, RXRING_CFG_SLOT v, RXRING_CFG_SIZE v], s)
  else if o = 0x20 then (s.fget (TXRING_HEAD_IDX v), s)
  else if o = 0x24 then (s.fget (TXRING_TAIL_IDX v), s)
  else if o = 0x28 then (regValue s [TXRING_CFG_EN v, TXRING_CFG_SLOT v, TXRING_CFG_SIZE v], s)
  else if o = 0x40 then rc (SELF_SPOOF_N v)
  else if o = 0x44 then rc (SELF_FENCED_N v)
  else if o = 0x48 then rc (SELF_SHDROP_N v)
  else if o = 0x4C then rc (SELF_DTDENY_N v)
  else if o = 0x50 then rc (SELF_RSTDROP_N v)
  else if o = 0x54 then rc (SELF_EVLOST_N v)
  else (0, s)

/-- A write of the self window of VPI `v`. -/
def selfWrite (v o w : Nat) (s : State) : Rsp × State :=
  if (s.vpi v).st = .off then (.denied, s)
  else if o = 0x14 ∧ s.fbit (RXRING_CFG_EN v) then (.ok, s.fset (RXRING_TAIL_IDX v) w)
  else if o = 0x24 ∧ s.fbit (TXRING_CFG_EN v) then (.ok, s.fset (TXRING_TAIL_IDX v) w)
  else (.ok, s)

/-- Reads of the VPI block by a requester with ticket VMID `vmid`. -/
def vpiRead (vmid off : Nat) (s : State) : Nat × State :=
  let sel := s.fget VPI_VSEL_VMID
  let pub := s.pub (s.fget VPI_PUBSEL_IDX)
  if 0xC000 ≤ off ∧ off < 0xD000 then selfRead (selfView s vmid) (off - 0xC000) s
  else if 0x8000 ≤ off then txRead off s
  else if off = 4 then
    (4 * b2n (s.vpis.toList.any (fun x => x.oldW.isSome)) + regValue s [VPI_STAT_RSTDONE, VPI_STAT_FRZDONE], s)
  else if off = 0x18 then (vpiStCode (s.vpi sel).st * 256 + (s.vpi sel).igen, s)
  else if off = 0x2C then ((pub.map (·.stNum)).getD 0, s)
  else if off = 0x30 then ((pub.map (·.sqNum)).getD 0, s)
  else tableRead regsVPI (0xF000150000 + off) s

/-- Writes of the VPI block. -/
def vpiWrite (vmid off v : Nat) (s : State) : Rsp × State :=
  if 0xC000 ≤ off ∧ off < 0xD000 then selfWrite (selfView s vmid) (off - 0xC000) v s
  else if 0x8000 ≤ off then txWrite off v s
  else if off = 0xC then vpiCmd v s
  else tableWrite regsVPI (0xF000150000 + off) v s

end Sys2Proof.Machine
end

