-- ==== Sys2Proof/Machine/Peek.lean ====
section
/-! DEFINITION. The read side of every register block: SYS, CRC, DEBUG, EVREC and ACQ here, the others from their own
files; and the reads without side effect that a snapshot takes (R388, R397). -/
namespace Sys2Proof.Machine

open Reg

/-- Reads of the SYS block (R3, R4, R474). -/
def sysRead (off : Nat) (s : State) : Nat × State :=
  if off = 0x10 then (s.variantWord, s)
  else if off = 0x14 then (s.unitsWord, s)
  else tableRead regsSYS (0xF000000000 + off) s

/-- The debug port is open (R419, R422). -/
def debugOpen (s : State) : Bool := s.sec.life != 4 && (s.sec.life != 2 || s.fbit LIFE_STAT_DBG)

/-- Reads of the DEBUG block: offset 0 only (R476). -/
def debugRead (off : Nat) (s : State) : Option Nat :=
  if off = 0 then some (regValue s [DEBUG_STAT_HALTREQ, DEBUG_STAT_CONNECTED] + b2n (debugOpen s)) else none

/-! ### Event-log use (R389) -/

/-- The index of a partition. -/
def partIdx (p : Nat) : Fin 65 := if h : p < 65 then ⟨p, h⟩ else 64

/-- A partition's counters. -/
def State.part (s : State) (p : Nat) : Part := s.log.parts[partIdx p]

/-- Changes the event log. -/
def State.modLog (f : EventLog → EventLog) (s : State) : State := { s with log := f s.log }

/-- Changes a partition's counters. -/
def State.modPart (p : Nat) (f : Part → Part) (s : State) : State :=
  s.modLog (fun l => { l with parts := l.parts.set (partIdx p) (f l.parts[partIdx p]) })

/-- EVP or EVO of the valid entry of VPI `v`. -/
def evQuota (s : State) (v : Nat) (cls : Bool) : Nat :=
  let e := (s.vpi v).ent
  if e.v then (if cls then e.evp else e.evo) else 0

/-- The quota of a partition in a class (`cls` true: class P). -/
def logQuota (s : State) (p : Nat) (cls : Bool) : Nat :=
  if p < 64 then evQuota s p cls
  else (if cls then 16384 else 49152) - ((List.range 64).map (fun v => evQuota s v cls)).sum

/-- The records of a partition and class, with their slots. -/
def logRecs (s : State) (p : Nat) (cls : Bool) : List (Nat × EvRec) :=
  s.log.slots.filter (fun x => x.2.part == p && x.2.clsP == cls)

/-! ### Views (R390, R400) -/

/-- The partition and class a view selects; view 64 is the supervisor view, a lower one the self window of that VPI. -/
def viewPart (s : State) (vi : Nat) : Nat := if vi = 64 then s.fget (VIEW_SEL_PART 64) else vi
def viewCls (s : State) (vi : Nat) : Bool := s.fbit (VIEW_SEL_CLS vi)

/-- A self window is closed while its VPI is OFF. -/
def viewOpen (s : State) (vi : Nat) : Bool := vi == 64 || (s.vpi vi).st != .off

/-- A view's cursor. -/
def State.view (s : State) (vi : Nat) : View := s.log.views[partIdx vi]

/-- Reads of a view's registers. -/
def viewRead (vi o : Nat) (s : State) : Nat × State :=
  let p := viewPart s vi
  let c := viewCls s vi
  if ¬ viewOpen s vi then (0, s)
  else if o = 0 then (256 * b2n c + p, s)
  else if o = 0xC then
    (regValue s [VIEW_STAT_CHG vi, VIEW_STAT_GAP vi, VIEW_STAT_END vi, VIEW_STAT_VALID vi] + b2n (s.part p).fullP, s)
  else if o = 0x10 then (logQuota s p c * 65536 + (logRecs s p c).length, s)
  else if o = 0x14 then
    (if c then ((s.part p).lostP, s.modPart p (fun x => { x with lostP := 0 }))
     else ((s.part p).lostO, s.modPart p (fun x => { x with lostO := 0 })))
  else if o = 0x18 then ((s.part p).snapLost, s.modPart p (fun x => { x with snapLost := 0 }))
  else if o = 8 then (s.fget (VIEW_ARG_V vi), s)
  else if 0x20 ≤ o ∧ o ≤ 0x30 then (s.fget (VIEW_ARGS_V vi ((o - 0x20) / 4)), s)
  else if 0x40 ≤ o ∧ o < 0x80 then (nth (s.view vi).win ((o - 0x40) / 4), s)
  else (0, s)

/-- Reads of the EVREC block by a requester with ticket VMID `vmid`. -/
def evrecRead (vmid off : Nat) (s : State) : Nat × State :=
  if 0xC000 ≤ off then (if off < 0xC080 then viewRead (selfView s vmid) (off - 0xC000) s else (0, s))
  else if 0x1000 ≤ off then (if off < 0x1080 then viewRead 64 (off - 0x1000) s else (0, s))
  else tableRead regsEVREC (0xF0000F0000 + off) s

/-- The STATE code of a recorder (R401). -/
def recStCode : RecSt → Nat
  | .off => 0
  | .fill => 1
  | .armed => 2
  | .post => 3
  | .stopped => 4

/-- Reads of the ACQ block (R401). -/
def acqRead (off : Nat) (s : State) : Nat × State :=
  if h : 0x100 ≤ off ∧ off < 0x300 ∧ off % 16 = 0 then
    let r := s.recs[(off - 0x100) / 16]
    ((r.segs.filter (· == 2)).length % 256 * 65536 + r.seg % 256 * 256 + recStCode r.st, s)
  else tableRead regsACQ (0xF000100000 + off) s

/-! ### Every block -/

/-- What register offset `off` of block `i` reads; `none` where the block answers DENIED. -/
def readBlock (rq : Req) (i off : Nat) (s : State) : Option (Nat × State) :=
  match i with
  | 0 => some (sysRead off s)
  | 1 => some (pwrRead off s)
  | 2 => some (clkRead off s)
  | 3 => some (bezelRead off s)
  | 4 => some (schedRead off s)
  | 5 => some (fabRead off s)
  | 6 => some (foRead off s)
  | 7 => some (keyRead off s)
  | 8 => some (lifeRead off s)
  | 9 => some (tbRead rq off s)
  | 10 => some (netRead off s)
  | 11 => some (portRead off s)
  | 12 => some (sfeRead off s)
  | 13 => some (wamsRead off s)
  | 14 => some (claspRead off s)
  | 15 => some (evrecRead rq.vmid off s)
  | 16 => some (acqRead off s)
  | 17 => some (tableRead regsCRC (0xF000110000 + off) s)
  | 18 => some (iobusRead off s)
  | 19 => some (idbusRead off s)
  | 20 => some (dtripRead off s)
  | 21 => some (vpiRead rq.vmid off s)
  | 22 => some (lktRead off s)
  | 23 => (debugRead off s).map (fun d => (d, s))
  | _ => none

/-- A read without side effect for a snapshot: all ones where the access would be refused (R388). Free values drawn stay
drawn. -/
def peekReg (a : Nat) (s : State) : Nat × State :=
  let bad := (0xFFFFFFFF, s)
  if (s.gate 0xFF a 4 false).rsp ≠ .ok then bad
  else match regionOf a with
    | .block i off =>
      match readBlock (engineReq 15 0xFF) i off s with
      | some (d, s') => (d % 2 ^ 32, { s with draws := s'.draws })
      | none => bad
    | _ => bad

/-- Reads a snapshot list of register addresses, in order. -/
def peekAll (l : List Nat) (s : State) : List Nat × State :=
  l.foldl (fun (a : List Nat × State) r => let (d, s) := peekReg r a.2; (a.1 ++ [d], s)) ([], s)

/-- The register a snapshot entry names (R400, R393). -/
def snapAddr (ofs : Nat) : Nat := 0xF000000000 + 4 * ofs

end Sys2Proof.Machine
end

