-- ==== Sys2Proof/Machine/EventLog.lean ====
section
/-! DEFINITION. The event log (R384 to R392, R400): records, merging, snapshots, quotas and overwrite, views and posts. -/
namespace Sys2Proof.Machine

open Reg

/-! ### Records -/

/-- FL of a record (R384). -/
def EvRec.fl (r : EvRec) : Nat :=
  b2n r.clsP + 2 * (r.sev % 8) + 16 * b2n r.sw + 32 * b2n r.snap + 64 * b2n r.tsinv + 128 * b2n r.hasSnap

/-- Words 0 to 14 of a record (R384). -/
def EvRec.body (r : EvRec) : List Nat :=
  tripleOf r.ts ++ [r.seq, r.pseq, r.code % 2 ^ 16 + r.fl * 2 ^ 16 + r.vmid % 256 * 2 ^ 24,
    r.part % 256 + r.orig % 256 * 256 + r.rpt % 2 ^ 16 * 2 ^ 16] ++ r.lastW ++ r.args

/-- The 16 words of a record, CHK last. -/
def EvRec.words (r : EvRec) : List Nat :=
  r.body ++ [if r.bad then Config.openFn Site.badChk r.body % 2 ^ 32 else crc32c (r.body.flatMap (leBytes 4))]

/-! ### Slots -/

/-- The first slot and the number of slots of a class (R389). -/
def clsBase (cls : Bool) : Nat := if cls then 0 else 16384
def clsSize (cls : Bool) : Nat := if cls then 16384 else 49152

/-- The lowest free slot at or above `n` in a list sorted by slot. -/
def freeFrom : Nat → List (Nat × EvRec) → Nat
  | n, [] => n
  | n, (k, _) :: l => if k < n then freeFrom n l else if k = n then freeFrom (n + 1) l else n

/-- Slots of a class in use by every partition. -/
def clsUsed (s : State) (cls : Bool) : Nat := (s.log.slots.filter (fun x => x.2.clsP == cls)).length

/-- Marks CHG in every view that has latched slot `k` (R390). -/
def touchSlot (k : Nat) (s : State) : State :=
  s.each (List.range 65) (fun v s =>
    if (s.view v).slot = some k ∧ s.fbit (VIEW_STAT_VALID v) then s.fset (VIEW_STAT_CHG v) 1 else s)

/-- Frees a slot. -/
def freeSlot (k : Nat) (s : State) : State :=
  touchSlot k (s.modLog (fun l => { l with slots := aerase k l.slots }))

/-- A record is a snapshot record of a parent (R388). -/
def snapOfRec (parent r : EvRec) : Bool :=
  r.snap && r.part == parent.part && r.clsP == parent.clsP && r.rpt == parent.pseq % 65536 &&
    decide (parent.pseq < r.pseq) && decide (r.pseq ≤ parent.pseq + 2)

/-- Frees a record and its snapshot records. -/
def freeRec (x : Nat × EvRec) (s : State) : State :=
  let ks := (s.log.slots.filter (fun y => snapOfRec x.2 y.2)).map (·.1)
  s.each (x.1 :: ks) freeSlot

/-! ### Storing an event (R387 to R389) -/

/-- The record of lowest key; the first of several. -/
def leastBy (f : EvRec → Nat) : List (Nat × EvRec) → Option (Nat × EvRec)
  | [] => none
  | x :: l =>
    match leastBy f l with
    | some y => if f y.2 < f x.2 then some y else some x
    | none => some x

/-- The newest record of a partition and class. -/
def newestRec (s : State) (p : Nat) (cls : Bool) : Option (Nat × EvRec) :=
  leastBy (fun r => 2 ^ 32 - r.pseq) (logRecs s p cls)

/-- Valid entries of the snapshot list. -/
def snapList (s : State) : List Nat :=
  ((List.range 16).filter (fun k => s.fbit (EVREC_SNAP_V k))).map (fun k => snapAddr (s.fget (EVREC_SNAP_OFS k)))

/-- Snapshot records an event takes (R388). -/
def nsnap (s : State) (e : Ev) : Nat :=
  if e.part = 64 ∧ s.fget EVREC_CTL_SNAPSEV ≤ e.sev then ((snapList s).length + 7) / 8 else 0

/-- An event repeats a record (R387). -/
def repeats (s : State) (e : Ev) (r : EvRec) : Bool :=
  r.code == e.code && r.clsP == e.clsP && r.sev == e.sev && r.vmid == e.vmid && r.args == e.args && !r.snap &&
    decide (0 < s.fget EVREC_CTL_REPWIN) && decide (s.now ≤ r.at_ + usUnits (1000 * s.fget EVREC_CTL_REPWIN))

/-- Merges an event into the record of slot `k` (R387). -/
def mergeEv (k : Nat) (r : EvRec) (e : Ev) (s : State) : State :=
  let r' := { r with rpt := satInc 16 r.rpt, lastW := tripleOf e.ts, at_ := s.now }
  touchSlot k (s.modLog (fun l => { l with slots := ainsert k r' l.slots }))

/-- room(p, c) of R389. -/
def logRoom (s : State) (p : Nat) (cls : Bool) : Int :=
  min ((logQuota s p cls : Int) - (logRecs s p cls).length) ((clsSize cls : Int) - clsUsed s cls)

/-- victim(p, s) of R389. -/
def victim (s : State) (p sev : Nat) : Option (Nat × EvRec) :=
  let own := decide (logQuota s p false ≤ (logRecs s p false).length)
  let full := fun (q : Nat) => decide (logQuota s q false < (logRecs s q false).length)
  let cand := s.log.slots.filter (fun x => !x.2.clsP && !x.2.snap && decide (x.2.sev ≤ sev) &&
    (if own then x.2.part == p else full x.2.part))
  leastBy (fun r => r.sev * 2 ^ 32 + r.pseq) cand

/-- The global and the partition's next record numbers, taken. SEQ is never 0. -/
def takeNums (p : Nat) (cls : Bool) (s : State) : Nat × Nat × State :=
  let q := s.fget EVREC_SEQ_NEXT
  let s := s.fset EVREC_SEQ_NEXT (if (q + 1) % 2 ^ 32 = 0 then 1 else q + 1)
  let n := if cls then (s.part p).nextP else (s.part p).nextO
  let n' := (n + 1) % 2 ^ 32
  (q, n, s.modPart p (fun x => if cls then { x with nextP := n' } else { x with nextO := n' }))

/-- Writes a record into the lowest free slot of its class, numbered. -/
def putRec (r : EvRec) (s : State) : Nat × State :=
  let (q, n, s) := takeNums r.part r.clsP s
  let k := freeFrom (clsBase r.clsP) s.log.slots
  (n, s.modLog (fun l => { l with slots := ainsert k { r with seq := q, pseq := n } l.slots }))

/-- Writes the parent record and `m` snapshot records (R384, R388, R389). -/
def writeEv (e : Ev) (m : Nat) (s : State) : State :=
  let r : EvRec := ⟨e.ts, 0, 0, e.code, e.clsP, e.sev, e.sw, false, e.tsinv, decide (0 < m), e.vmid, e.part, e.orig, 0,
    tripleOf e.ts, e.args, s.now, false⟩
  let (vals, s) := if m = 0 then ([], s) else peekAll (snapList s) s
  let (n, s) := putRec r s
  s.each (List.range m) (fun j s =>
    let (num, s) := s.draw Site.snapNum 10
    let v := fun (i : Nat) => nth vals (8 * j + i)
    (putRec { r with code := 0x3E * 1024 + num, sw := false, snap := true, hasSnap := false, orig := 0xFF, rpt := n % 65536,
                     lastW := [v 0, v 1, v 2], args := [v 3, v 4, v 5, v 6, v 7] } s).2)

/-- SNAPLOST(p). -/
def snapLost (p : Nat) (s : State) : State := s.modPart p (fun x => { x with snapLost := satInc 32 x.snapLost })

/-- The class-P part of a partition becomes full, or free again; the supervisor's shows in EVREC_STAT. -/
def setFullP (p : Nat) (b : Bool) (s : State) : State :=
  (s.modPart p (fun x => { x with fullP := b })).when (p == 64) (fun s => s.fsetB EVREC_STAT_FULLP b)

/-- LOST(p, c), and EVLOST of an instance whose quota is 0 (R332). -/
def loseEv (e : Ev) (s : State) : State :=
  let s := s.modPart e.part (fun x =>
    if e.clsP then { x with lostP := satInc 32 x.lostP } else { x with lostO := satInc 32 x.lostO })
  s.when (decide (e.part < 64) && logQuota s e.part e.clsP == 0) (fun s => s.bump (SELF_EVLOST_N e.part))

/-- The loop of R389 for class O: makes room for `need` records. -/
def storeO (e : Ev) : Nat → Nat → State → State
  | 0, _, s => loseEv e s
  | fuel + 1, need, s =>
    if (need : Int) ≤ logRoom s e.part false then writeEv e (need - 1) s
    else match victim s e.part e.sev with
      | some v => storeO e fuel need (freeRec v s)
      | none => if 1 < need then storeO e fuel 1 (snapLost e.part s) else loseEv e s

/-- Stores an event that is not merged (R389, R332). -/
def storeEv (e : Ev) (s : State) : State :=
  let need := 1 + nsnap s e
  if e.clsP then
    if logRoom s e.part true ≤ 0 then setFullP e.part true (loseEv e s)
    else if logRoom s e.part true < (need : Int) then writeEv e 0 (snapLost e.part s)
    else writeEv e (need - 1) s
  else if e.part < 64 ∧ logQuota s e.part false = 0 then loseEv e s
  else storeO e (s.log.slots.length + 2) need s

/-- EVENT_RECORD_WRITE: the oldest event of the queue. -/
def execEventRecordWrite (s : State) : Result :=
  .next (match s.log.queue with
    | [] => s
    | e :: q =>
      if ¬ s.fbit EVREC_STAT_READY then s
      else
        let s := s.modLog (fun l => { l with queue := q })
        match newestRec s e.part e.clsP with
        | some (k, r) => if nsnap s e = 0 ∧ repeats s e r then mergeEv k r e s else storeEv e s
        | none => storeEv e s)

/-! ### Start (R392) -/

/-- The numbers to continue from in a partition and class. -/
def nextPseq (s : State) (p : Nat) (cls : Bool) : Nat :=
  match newestRec s p cls with
  | some (_, r) => (r.pseq + 1) % 2 ^ 32
  | none => 1

/-- The check of the log at the end of a reset: slots whose CHK fails are freed and counted, numbers continue from the
highest found, and the log accepts events. -/
def logCheck (s : State) : State :=
  let bad := s.log.slots.filter (·.2.bad)
  let s := s.each bad (fun x s => (freeSlot x.1 s).bump EVREC_CNT_CHKBAD)
  let top : Nat := (s.log.slots.map (fun x => x.2.seq)).foldl max 0
  let s := s.fset EVREC_SEQ_NEXT (if (top + 1) % 2 ^ 32 = 0 then 1 else top + 1)
  let s := s.each (List.range 65) (fun p s =>
    s.modPart p (fun x => { x with nextO := nextPseq s p false, nextP := nextPseq s p true }))
  (s.fset EVREC_STAT_READY 1).fsetB EVREC_STAT_FULLP (s.part 64).fullP

/-! ### Views (R390, R391) -/

/-- Changes a view. -/
def State.modView (vi : Nat) (f : View → View) (s : State) : State :=
  s.modLog (fun l => { l with views := l.views.set (partIdx vi) (f l.views[partIdx vi]) })

/-- Latches what a command found. -/
def latchView (vi : Nat) (gap : Bool) (r : Option (Nat × EvRec)) (s : State) : State :=
  let s := match r with
    | some (k, x) => s.modView vi (fun _ => ⟨some k, x.pseq, x.words⟩)
    | none => s.modView vi (fun v => { v with win := List.replicate 16 0 })
  (((s.fsetB (VIEW_STAT_VALID vi) r.isSome).fsetB (VIEW_STAT_END vi) r.isNone).fsetB (VIEW_STAT_GAP vi) gap).fset
    (VIEW_STAT_CHG vi) 0

/-- The record with the lowest PSEQ of at least `n` in a view's selection. -/
def seekRec (s : State) (vi n : Nat) : Option (Nat × EvRec) :=
  leastBy (·.pseq) ((logRecs s (viewPart s vi) (viewCls s vi)).filter (fun x => decide (n ≤ x.2.pseq)))

/-- FIRST. -/
def viewFirstOp (vi : Nat) (s : State) : State := latchView vi false (seekRec s vi 0) s

/-- NEXT. -/
def viewNextOp (vi : Nat) (s : State) : State :=
  let n := (s.view vi).pseq
  let r := seekRec s vi (n + 1)
  latchView vi (match r with
    | some (_, x) => decide (x.pseq ≠ n + 1)
    | none => false) r s

/-- SEEK. -/
def viewSeekOp (vi : Nat) (s : State) : State := latchView vi false (seekRec s vi (s.fget (VIEW_ARG_V vi))) s

/-- RELATCH. -/
def viewRelatchOp (vi : Nat) (s : State) : State :=
  let r := match (s.view vi).slot with
    | some k => (logRecs s (viewPart s vi) (viewCls s vi)).find? (fun x => x.1 == k)
    | none => none
  latchView vi false r s

/-- RELEASE. -/
def viewReleaseOp (vi : Nat) (s : State) : State :=
  let p := viewPart s vi
  let c := viewCls s vi
  let gone := (logRecs s p c).filter (fun x => decide (x.2.pseq ≤ s.fget (VIEW_ARG_V vi)))
  (s.each gone freeRec).when (c && !gone.isEmpty) (setFullP p false)

/-- A view command, run before its write completes; refused in the closed self window. -/
def viewOp (vi : Nat) (f : State → State) (s : State) : Rsp × State :=
  if viewOpen s vi then (.ok, f s) else (.denied, s)

/-- A write of VIEW_CMD. -/
def viewCmdOp (vi v : Nat) (s : State) : Rsp × State :=
  match v % 8 with
  | 1 => viewOp vi (viewFirstOp vi) s
  | 2 => viewOp vi (viewNextOp vi) s
  | 3 => viewOp vi (viewSeekOp vi) s
  | 4 => viewOp vi (viewRelatchOp vi) s
  | 5 => viewOp vi (viewReleaseOp vi) s
  | _ => (.denied, s)

/-- A write of VIEW_POST by requester `id` (R391). -/
def viewPostOp (id vi v : Nat) (s : State) : State :=
  s.pushEv { clsP := bitOf v 13, sev := bitsOf v 10 3, code := 0x3F * 1024 + v % 1024, vmid := if vi < 64 then vi else 0xFF,
             part := if vi < 64 then vi else 64, sw := true, orig := id % 256, tsinv := !s.fbit TB_STAT_VALID, ts := s.now,
             args := (List.range 5).map (fun j => s.fget (VIEW_ARGS_V vi j)) }

/-- Writes of a view's registers. -/
def viewWrite (id vi o v : Nat) (s : State) : Rsp × State :=
  if ¬ viewOpen s vi then (.denied, s)
  else if o = 0 then
    (if vi = 64 then regWrite [VIEW_SEL_CLS 64, VIEW_SEL_PART 64] v s else regWrite [VIEW_SEL_CLS vi] v s)
  else if o = 4 then viewCmdOp vi v s
  else if o = 8 then (.ok, s.fset (VIEW_ARG_V vi) v)
  else if 0x20 ≤ o ∧ o ≤ 0x30 then (.ok, s.fset (VIEW_ARGS_V vi ((o - 0x20) / 4)) v)
  else if o = 0x34 then (.ok, viewPostOp id vi v s)
  else (.ok, s)

/-- Writes of the EVREC block. -/
def evrecWrite (rq : Req) (off v : Nat) (s : State) : Rsp × State :=
  if 0xC000 ≤ off then
    (if off < 0xC080 then viewWrite rq.id (selfView s rq.vmid) (off - 0xC000) v s else (.ok, s))
  else if 0x1000 ≤ off then (if off < 0x1080 then viewWrite rq.id 64 (off - 0x1000) v s else (.ok, s))
  else tableWrite regsEVREC (0xF0000F0000 + off) v s

/-- The view a request addresses. -/
def viewOf (rq : Req) (self : Bool) (s : State) : Nat := if self then selfView s rq.vmid else 64

/-- The address of a view's register. -/
def viewAddr (self : Bool) (o : Nat) : Nat := (if self then 0xF0000FC000 else 0xF0000F1000) + o

/-- A write of VIEW_CMD with a given command. -/
def viewCommand (rq : Req) (self : Bool) (op : Nat) (s : State) : State :=
  s.regWriteAccess rq (viewAddr self 4) (fun s => viewWrite rq.id (viewOf rq self s) 4 op s)

/-- FIRST. -/
def execViewFirst (rq : Req) (self : Bool) (s : State) : Result := .next (viewCommand rq self 1 s)

/-- NEXT. -/
def execViewNext (rq : Req) (self : Bool) (s : State) : Result := .next (viewCommand rq self 2 s)

/-- SEEK. -/
def execViewSeek (rq : Req) (self : Bool) (s : State) : Result := .next (viewCommand rq self 3 s)

/-- RELATCH. -/
def execViewRelatch (rq : Req) (self : Bool) (s : State) : Result := .next (viewCommand rq self 4 s)

/-- RELEASE. -/
def execViewRelease (rq : Req) (self : Bool) (s : State) : Result := .next (viewCommand rq self 5 s)

/-- VIEW_POST. -/
def execViewPost (rq : Req) (self : Bool) (v : Word) (s : State) : Result :=
  .next (s.regWriteAccess rq (viewAddr self 0x34) (fun s => viewWrite rq.id (viewOf rq self s) 0x34 v.toNat s))

end Sys2Proof.Machine
end

