-- ==== Sys2Proof/Machine/Recorder.lean ====
section
/-! DEFINITION. The disturbance recorders (R393 to R398, R401) and the edges of digital lines that trigger them. -/
namespace Sys2Proof.Machine

open Reg

/-- A recorder. -/
def State.recorder (s : State) (r : Fin 32) : Recorder := s.recs[r]

/-- Changes a recorder. -/
def State.modRec (r : Fin 32) (f : Recorder → Recorder) (s : State) : State :=
  { s with recs := s.recs.set r (f s.recs[r]) }

/-! ### The grid of rows (R394) -/

/-- The tag of row `k`. -/
def rowTag (k rate : Nat) : Nat := k * secUnits / rate

/-- The grid index nearest to a sample's tag. -/
def rowIndex (tag rate : Nat) : Nat := (tag * rate + secUnits / 2) / secUnits

/-- The first row at or after an instant. -/
def rowAtOrAfter (t rate : Nat) : Nat := ceilDiv (t * rate) secUnits

/-- Bytes of a row. -/
def RecEntry.rowLen (e : RecEntry) : Nat := 8 + 4 * e.na

/-- The mark of a missing value. -/
def missingVal (chan : Nat) : Nat := if bitOf chan 17 then 0x7FC00000 else 0x80000000

/-- The digital word of a row (R394). -/
def digWord (s : State) (mask tag : Nat) : Nat := ((maskList 32 mask).map (fun b => 2 ^ b * b2n (lineAt s b tag))).sum

/-! ### Segments and headers (R398) -/

/-- The physical address of a segment. -/
def segAddr (s : State) (e : RecEntry) (seg : Nat) : Nat :=
  s.fget ACQ_BASE_ADDR * 4096 + (e.base + seg * e.segsz) * 4096

/-- A recorder's write under its owner's ticket. -/
def recWrite (e : RecEntry) (seg off : Nat) (b : List Byte) (s : State) : State :=
  s.engWrite 16 e.owner (segAddr s e seg + off) b

/-- The header of the current record in state `st`. -/
def recHeader (r : Nat) (x : Recorder) (st : Nat) : List Byte :=
  let e := x.ent
  leBytes 2 1 ++ leBytes 2 512 ++ leBytes 1 st ++ leBytes 1 r ++ leBytes 1 e.na ++ leBytes 1 0 ++ leBytes 4 (x.recSeq + 1) ++
    leBytes 4 e.rate ++ leBytes 4 e.pre ++ leBytes 4 e.post ++ leBytes 4 x.firstIdx ++ leBytes 4 x.tfrac ++
    tripleBytes x.t0 ++ tripleBytes x.ttrig ++ leBytes 1 x.term ++ leBytes 1 x.tsrc ++ leBytes 2 x.nrtrig ++ zeroBytes 4 ++
    padTo 96 (x.rtrigs.flatMap tripleBytes) ++ leBytes 4 e.dmask ++ leBytes 4 (x.qors.foldl (· ||| ·) x.qor) ++
    leBytes 2 (b2n x.loss) ++ leBytes 1 x.snapVals.length ++ zeroBytes 5 ++ padTo 64 (x.snapVals.flatMap (leBytes 4)) ++
    zeroBytes 16 ++ padTo 256 (e.chans.flatMap (leBytes 4))

/-- Writes the header of the current segment. -/
def putHeader (r : Fin 32) (st : Nat) (s : State) : State :=
  let x := s.recorder r
  recWrite x.ent x.seg 0 (recHeader r x st) (s.modRec r (fun x => { x with segs := x.segs.set x.seg st }))

/-- The free segment that follows `n` segments from `seg` on, in turn. -/
def freeSegment (x : Recorder) (seg : Nat) : Option Nat :=
  ((List.range x.ent.nseg).map (fun i => (seg + i) % x.ent.nseg)).find? (fun i => nth x.segs i == 0)

/-- Enters FILL with segment `seg`; the rows go on from grid index `k` (R396). -/
def enterFill (r : Fin 32) (seg k : Nat) (s : State) : State :=
  putHeader r 1 (s.modRec r (fun x =>
    { x with st := .fill, seg := seg, order := x.order.filter (· != seg), next := k,
             pend := x.pend.filter (fun p => decide (k ≤ p.k)), lost := x.lost.filter (fun i => decide (k ≤ i)), rows := 0,
             ring := 0, qors := [], kTrig := 0, postLeft := 0, ttrig := 0, tfrac := 0, term := 0, tsrc := 0, rtrigs := [],
             nrtrig := 0, firstIdx := 0, t0 := 0, qor := 0, loss := false, snapVals := [] }))

/-- Moves to a free segment from `seg` on, to the oldest complete one under OVW, or stops (R396). -/
def nextSegment (r : Fin 32) (seg k : Nat) (s : State) : State :=
  let x := s.recorder r
  match freeSegment x seg with
  | some g => enterFill r g k s
  | none =>
    match (if x.ent.ovw then x.order.head? else none) with
    | some g => enterFill r g k s
    | none => s.modRec r (fun x => { x with st := .stopped, pend := [], lost := [] })

/-- Ends the record in progress with header STATE 3 (R396). -/
def abortRec (r : Fin 32) (s : State) : State :=
  let x := s.recorder r
  let s := if x.st = .fill ∨ x.st = .armed ∨ x.st = .post then putHeader r 3 s else s
  s.modRec r (fun x => { x with st := .off, pend := [], lost := [] })

/-- Disarms every recorder. -/
def abortAll (s : State) : State := s.each (List.finRange 32) abortRec

/-! ### Triggers (R395 to R397) -/

/-- A recorder drives its cross-trigger line (R397, R457). -/
def xtDrive (e : RecEntry) (s : State) : State :=
  if e.xtout ∧ s.owner (8 + e.xtl) = 0x03 then s.modIo (fun x => { x with xtPulse := putBit x.xtPulse e.xtl true }) else s

/-- A trigger of recorder `r` by term `t`; answers whether it is the one that starts a record. -/
def takeTrigger (r : Fin 32) (t ttrig tsrc : Nat) (s : State) : Bool × State :=
  let x := s.recorder r
  match x.st with
  | .fill => (false, s.bump (ACQ_RCNT_EARLY r))
  | .post =>
    (false, (s.modRec r (fun x => { x with rtrigs := (x.rtrigs ++ [ttrig]).take 8, nrtrig := satInc 16 x.nrtrig })).bump
      (ACQ_RCNT_RETRIG r))
  | .armed =>
    let e := x.ent
    let k := max (rowAtOrAfter ttrig e.rate) x.next
    let frac := (k * secUnits - ttrig * e.rate) * 2 ^ 32 / secUnits % 2 ^ 32
    let (vals, s) := if e.owner = 0xFF then peekAll e.snaps s else ([], s)
    (true, xtDrive e (s.modRec r (fun x =>
      { x with st := .post, kTrig := k, postLeft := e.post, ttrig := ttrig, tfrac := frac, term := t, tsrc := tsrc,
               snapVals := vals })))
  | _ => (false, s)

/-- The lowest term of a recorder that a test selects. -/
def termOf (x : Recorder) (f : Term → Bool) : Option Nat :=
  if x.ent.v then (List.range x.ent.terms.length).find? (fun t => match x.ent.terms[t]? with
    | some y => f y
    | none => false)
  else none

/-- Recorder `r` fires on its lowest matching term; a record started by another kind than 6 fires the recorders that name
`r` (R395). -/
def fireRec (f : Term → Bool) (ttrig tsrc : Nat) (r : Fin 32) (s : State) : State :=
  match termOf (s.recorder r) f with
  | none => s
  | some t =>
    let (took, s) := takeTrigger r t ttrig tsrc s
    if ¬ took then s
    else s.each (List.finRange 32) (fun q s =>
      match termOf (s.recorder q) (fun y => y.kind == 6 && y.index == r.val) with
      | some u => (takeTrigger q u ttrig tsrc s).2
      | none => s)

/-- Every recorder sees a happening. -/
def fireAll (f : Term → Bool) (ttrig tsrc : Nat) (s : State) : State := s.each (List.finRange 32) (fireRec f ttrig tsrc)

/-- A term of kind `kind` on line `index` that takes this edge. -/
def edgeTerm (kind index : Nat) (rise : Bool) (y : Term) : Bool :=
  y.kind == kind && y.index == index && edgeSelected y.edge rise

/-! ### Rows (R394, R396, R398) -/

/-- Puts row bytes at a place of the record: a ring index, or one past the ring. -/
def putRow (r : Fin 32) (at_ : Nat) (b : List Byte) (s : State) : State :=
  let e := (s.recorder r).ent
  recWrite e (s.recorder r).seg (512 + at_ * e.rowLen) b s

/-- A complete record (R396): its header, the count, the event, and the next segment. -/
def completeRec (r : Fin 32) (s : State) : State :=
  let s := putHeader r 2 s
  let s := s.modRec r (fun x => { x with recSeq := (x.recSeq + 1) % 2 ^ 32, order := x.order ++ [x.seg] })
  let x := s.recorder r
  let s := ((s.fset (ACQ_RSEQ_N r) x.recSeq).fset ACQ_STAT_DONE 1).log' ACQ_STAT_DONE false 3 x.ent.owner [r, x.recSeq]
  nextSegment r ((x.seg + 1) % max x.ent.nseg 1) x.next s

/-- The grid moves past row `next` of a running recorder: `row` is what is written there, nothing for a lost row. -/
def passRow (r : Fin 32) (row : Option (List Byte × Nat)) (s : State) : State :=
  let x := s.recorder r
  let e := x.ent
  let put := fun (at_ : Nat) (s : State) => match row with
    | some (b, _) => putRow r at_ b s
    | none => s
  let q := (row.map (·.2)).getD 0
  if x.st = .post ∧ x.kTrig ≤ x.next then
    let s : State := put (e.pre + (x.next - x.kTrig)) s
    let s : State := s.modRec r (fun x =>
      { x with next := x.next + 1, postLeft := x.postLeft - 1, qor := x.qor ||| q,
               firstIdx := if x.next = x.kTrig then x.ring else x.firstIdx,
               t0 := if x.next = x.kTrig then rowTag (x.kTrig - e.pre) e.rate else x.t0 })
    if (s.recorder r).postLeft = 0 then completeRec r s else s
  else
    let s := put x.ring s
    s.modRec r (fun x =>
      { x with next := x.next + 1, ring := (x.ring + 1) % max e.pre 1, qors := (q :: x.qors).take e.pre, rows := x.rows + 1,
               st := if x.st = .fill ∧ e.pre ≤ x.rows + 1 then .armed else x.st })

/-- A recorder takes rows. -/
def Recorder.running (x : Recorder) : Bool := x.st == .fill || x.st == .armed || x.st == .post

/-- Passes over rows that were lost. -/
def skipLost (r : Fin 32) : Nat → State → State
  | 0, s => s
  | n + 1, s =>
    let x := s.recorder r
    if x.running && x.lost.contains x.next then
      skipLost r n (passRow r none (s.modRec r (fun x => { x with lost := x.lost.filter (· != x.next) })))
    else s

/-- The row at the front of the buffer, if it is that of the next place. -/
def frontRow (x : Recorder) : Option AcqRow := x.pend.find? (fun p => p.k == x.next)

/-- Every channel has delivered. -/
def AcqRow.complete (p : AcqRow) : Bool := p.vals.all (·.isSome)

/-- Writes the next row: delivered values, missing ones marked (R394). -/
def writeRow (r : Fin 32) (s : State) : State :=
  let x := s.recorder r
  let e := x.ent
  let p := (frontRow x).getD ⟨x.next, List.replicate e.na none, 0⟩
  let q := p.qor ||| (if p.complete then 0 else 16)
  let vals := (List.range e.na).map (fun c => ((p.vals[c]?).getD none).getD (missingVal (nth e.chans c)))
  let b := leBytes 4 (digWord s e.dmask (rowTag x.next e.rate)) ++ leBytes 4 q ++ vals.flatMap (leBytes 4)
  let s := s.modRec r (fun x => { x with pend := x.pend.filter (fun p => p.k != x.next) })
  skipLost r (x.lost.length + 1) (passRow r (some (b, q)) s)

/-- A sample reaches a recorder's buffer (R394). -/
def deliver (o : SfeOut) (r : Fin 32) (s : State) : State :=
  let x := s.recorder r
  let e := x.ent
  let k := rowIndex o.tag e.rate
  let val := fun (ch : Nat) =>
    if ch % 16384 = o.slot then
      (if bitOf ch 16 then o.chain else some o.cond).map (fun v => if bitOf ch 17 then (fOfInt 0 v).1 else wrapTo 32 v)
    else none
  let new := (List.range e.na).map (fun c => val (nth e.chans c))
  if ¬ x.running ∨ k < x.next ∨ new.all (·.isNone) ∨ x.lost.contains k then s
  else match x.pend.find? (fun p => p.k == k) with
    | some p =>
      let p' : AcqRow := ⟨k, List.zipWith (fun a b => b.orElse (fun _ => a)) p.vals new, p.qor ||| o.q⟩
      s.modRec r (fun x => { x with pend := x.pend.map (fun y => if y.k = k then p' else y) })
    | none =>
      if 256 ≤ x.pend.length then
        let s := s.modRec r (fun x => { x with lost := x.lost ++ [k], loss := true })
        skipLost r (x.lost.length + 2) ((s.bump (ACQ_RLOST_N r)).fset ACQ_STAT_ROWLOST 1)
      else s.modRec r (fun x => { x with pend := x.pend ++ [⟨k, new, o.q⟩] })

/-- What the live context delivered reaches every recorder: its rows, then its trigger lines. -/
def recordOutputs (s : State) : State :=
  let out := s.sfe.outbox
  (s.modSfe (fun t => { t with outbox := [] })).each out (fun o s =>
    let s := s.each (List.finRange 32) (deliver o)
    match o.edge with
    | some rise => fireAll (edgeTerm 1 o.slot rise) o.tag 0 s
    | none => s)

/-- ACQ_ROW_WRITE: the next row of a recorder is complete. -/
def execAcqRowWrite (rec : Fin 32) (s : State) : Result :=
  .next (
    let x := s.recorder rec
    match frontRow x with
    | some p => if x.running && p.complete then writeRow rec s else s
    | none => s)

/-- ACQ_ROW_DEADLINE: 2 ms have passed since the tag of the next row. -/
def execAcqRowDeadline (rec : Fin 32) (s : State) : Result :=
  .next (
    let x := s.recorder rec
    if x.running && decide (rowTag x.next x.ent.rate + usUnits 2000 ≤ s.now) then writeRow rec s else s)

/-! ### Staging (R393) -/

/-- A term from its 8 bytes. -/
def parseTerm (b : List Byte) : Term :=
  ⟨leAt b 0 1, leAt b 1 1, leAt b 2 2, bitOf (leAt b 4 1) 7, leAt b 4 1 % 8⟩

/-- A recorder entry from its 512 bytes. -/
def parseRec (b : List Byte) : RecEntry :=
  let ctl := leAt b 2 1
  let na := leAt b 3 1
  { gen := leAt b 0 2, v := bitOf ctl 7, ovw := bitOf ctl 6, xtout := bitOf ctl 5, xtl := ctl % 4, na := na,
    rate := leAt b 4 4, pre := leAt b 8 4, post := leAt b 0xC 4, nseg := leAt b 0x10 2, owner := leAt b 0x12 1,
    base := leAt b 0x14 4, segsz := leAt b 0x18 4, dmask := leAt b 0x1C 4,
    terms := (List.range 8).map (fun t => parseTerm (sliceOf b (0x20 + 8 * t) 8)),
    snaps := ((List.range 16).map (fun k => leAt b (0x60 + 4 * k) 4)).filterMap (fun w =>
      if bitOf w 31 then some (snapAddr (bitsOf w 2 22)) else none),
    chans := (List.range (min na 64)).map (fun c => leAt b (0x100 + 4 * c) 4) }

/-- Lines and slots a term kind counts. -/
def termLimit (s : State) (kind : Nat) : Nat :=
  match kind with
  | 1 => s.sfeSlots
  | 2 => 16
  | 3 => 4
  | 4 => 4
  | 6 => 32
  | 7 => 8
  | _ => 65536

/-- ERR 1: reserved bytes or bits, or a value out of range. -/
def recBad (s : State) (b : List Byte) (e : RecEntry) : Bool :=
  bitsOf (leAt b 2 1) 2 3 != 0 || leAt b 0x13 1 != 0 || !allZero (sliceOf b 0xA0 96) ||
  (List.range 8).any (fun t => leAt b (0x24 + 8 * t) 1 / 8 % 16 != 0 || !allZero (sliceOf b (0x25 + 8 * t) 3) ||
    leAt b (0x21 + 8 * t) 1 / 4 != 0) ||
  (List.range 16).any (fun k => bitsOf (leAt b (0x60 + 4 * k) 4) 24 7 != 0 || leAt b (0x60 + 4 * k) 4 % 4 != 0) ||
  (List.range 64).any (fun c =>
    let w := leAt b (0x100 + 4 * c) 4
    bitsOf w 14 2 != 0 || w / 2 ^ 18 != 0 || (decide (e.na ≤ c) && w != 0)) ||
  (e.v && (decide (e.na < 1 ∨ 64 < e.na) || e.rate == 0 || decide (e.pre < 1 ∨ 1048576 < e.pre) ||
    decide (e.post < 1 ∨ 16777216 < e.post) || decide (e.nseg < 1 ∨ 256 < e.nseg) || (decide (64 ≤ e.owner) && e.owner != 0xFF) ||
    e.terms.any (fun y => decide (7 < y.kind) || decide (termLimit s y.kind ≤ y.index))))

/-- ERR 4: a segment too small, outside the region or overlapping another recorder's. -/
def segsBad (s : State) (r : Fin 32) (e : RecEntry) : Bool :=
  let hi := e.base + e.nseg * e.segsz
  decide (e.segsz < ceilDiv (512 + (e.pre + e.post) * e.rowLen) 4096) || decide (s.fget ACQ_SIZE_N * 512 < hi) ||
  (List.finRange 32).any (fun q => q != r && (s.recorder q).ent.v &&
    decide (e.base < (s.recorder q).ent.base + (s.recorder q).ent.nseg * (s.recorder q).ent.segsz) &&
    decide ((s.recorder q).ent.base < hi))

/-- ERR 5: a channel slot absent or unused, or a rate at its tap that differs from RATE. -/
def chansBad (s : State) (e : RecEntry) : Bool :=
  e.chans.any (fun w =>
    match chanOf s.sfe (w % 16384), inputOfSlot s.sfe (w % 16384) with
    | some c, some inp =>
      let d := if bitOf w 16 then ((stagesOf s.sfe (w % 16384) c).map (·.2)).prod else 1
      decide (s.sfeSlots ≤ w % 16384) || inp.rate != e.rate * d
    | _, _ => true)

/-- The TDC source code of a term's line (R61), none where a term has no line with a TDC. -/
def termSrc (y : Term) : Option Nat :=
  match y.kind with
  | 2 => some y.index
  | 3 => some (16 + y.index)
  | 4 => some (20 + y.index)
  | _ => none

/-- A term's TDC channel as a channel number. -/
def termChan (y : Term) : Fin 8 := ⟨y.tdcCh % 8, by omega⟩

/-- ERR 6: a TDC channel or cross-trigger line not owned by 0x03, or a TDC source that is not the term's line. -/
def ownBad (s : State) (e : RecEntry) : Bool :=
  (e.xtout && s.owner (8 + e.xtl) != 0x03) ||
  e.terms.any (fun y => y.tdcU && (s.owner y.tdcCh != 0x03 ||
    (match termSrc y with
     | some c => s.fget (TB_TDCCTL_SRC (termChan y)) != c
     | none => true)))

/-- The error of a staged entry (R401, R498). -/
def recErr (s : State) (r : Fin 32) (b : List Byte) : Nat :=
  let e := parseRec b
  firstErr [(1, recBad s b e), (2, !genNext (s.recorder r).ent.gen e.gen), (4, e.v && segsBad s r e), (5, e.v && chansBad s e),
    (6, e.v && ownBad s e)]

/-- Marks a segment's header free. -/
def freeHeader (e : RecEntry) (seg : Nat) (s : State) : State := recWrite e seg 4 [0] s

/-- UPDATE: the record in progress ends, the segments are freed, and the entry is replaced. -/
def recUpdateOp (r : Fin 32) (s : State) : Nat × State :=
  let (b, s) := s.engRead 16 0xFF (s.fget ACQ_STSRC_ADDR * 64) 512
  let err := recErr s r b
  if err ≠ 0 then (err, s)
  else
    let old := s.recorder r
    let s := s.each ((List.range old.ent.nseg).filter (fun g => nth old.segs g == 2 || nth old.segs g == 3)) (freeHeader old.ent)
    let e := parseRec b
    (0, (abortRec r s).modRec r (fun x =>
      { rec0 with ent := e, segs := List.replicate (if e.v then e.nseg else 0) 0, recSeq := x.recSeq }))

/-- ARM. -/
def armOpRec (r : Fin 32) (s : State) : Nat × State :=
  let x := s.recorder r
  if x.st ≠ .off ∨ ¬ x.ent.v ∨ ¬ s.fbit ACQ_CTL_EN then (7, s)
  else (0, nextSegment r x.seg (s.now * x.ent.rate / secUnits + 1) s)

/-- TRIG: a software trigger at the completion of the command write. -/
def trigOp (r : Fin 32) (s : State) : Nat × State :=
  if ¬ (s.recorder r).running then (7, s)
  else (0, fireRec (fun y => y.kind == 5) s.now 3 r s)

/-- FREE: a complete or aborted segment becomes free; a stopped recorder goes on with it. -/
def freeOp (r : Fin 32) (seg : Nat) (s : State) : Nat × State :=
  let x := s.recorder r
  if x.ent.nseg ≤ seg ∨ ¬ x.ent.v then (3, s)
  else if nth x.segs seg = 1 then (7, s)
  else
    let s := freeHeader x.ent seg (s.modRec r (fun x => { x with segs := x.segs.set seg 0, order := x.order.filter (· != seg) }))
    (0, if x.st = .stopped then nextSegment r seg (s.now * x.ent.rate / secUnits + 1) s else s)

/-- A write of ACQ_CMD (R401). -/
def acqCmd (v : Nat) (s : State) : Rsp × State :=
  let op := bitsOf v 16 3
  let r : Fin 32 := ⟨bitsOf v 8 5, Nat.mod_lt _ (by decide)⟩
  if s.fbit ACQ_CMDSTAT_BUSY ∨ op = 0 ∨ 5 < op then (.denied, s)
  else
    let (err, s) :=
      if op = 1 then recUpdateOp r s
      else if op = 2 then armOpRec r s
      else if op = 3 then (0, abortRec r s)
      else if op = 4 then trigOp r s
      else freeOp r (v % 256) s
    (.ok, (s.fset ACQ_CMDSTAT_ERR err).fset ACQ_CMDSTAT_BUSY 1)

/-- A write of ACQ_CTL: EN = 0 disarms every recorder (R401). -/
def acqCtl (v : Nat) (s : State) : Rsp × State :=
  let (rsp, s) := regWrite [ACQ_CTL_DONEIE, ACQ_CTL_EN] v s
  (rsp, if s.fbit ACQ_CTL_EN then s else abortAll s)

/-- Writes of the ACQ block. -/
def acqWrite (off v : Nat) (s : State) : Rsp × State :=
  if off = 0 then acqCtl v s
  else if off = 0x14 then acqCmd v s
  else tableWrite regsACQ (0xF000100000 + off) v s

/-- A command of the ACQ block as a write of ACQ_CMD. -/
def acqCommand (rq : Req) (op rec seg : Nat) (s : State) : State :=
  s.regWriteAccess rq 0xF000100014 (acqCmd (op * 65536 + rec % 32 * 256 + seg % 256))

/-- ACQ_UPDATE. -/
def execAcqUpdate (rq : Req) (rec : Nat) (s : State) : Result := .next (acqCommand rq 1 rec 0 s)

/-- ARM. -/
def execArm (rq : Req) (rec : Nat) (s : State) : Result := .next (acqCommand rq 2 rec 0 s)

/-- DISARM. -/
def execDisarm (rq : Req) (rec : Nat) (s : State) : Result := .next (acqCommand rq 3 rec 0 s)

/-- TRIG. -/
def execTrig (rq : Req) (rec : Nat) (s : State) : Result := .next (acqCommand rq 4 rec 0 s)

/-- FREE. -/
def execFreeSeg (rq : Req) (rec seg : Nat) (s : State) : Result := .next (acqCommand rq 5 rec seg s)

/-! ### Edges of digital lines -/

/-- The oldest held capture of a raw direction on a TDC channel the acquisition engine owns, and the channel emptied
(R397). -/
def takeCapture (k : Fin 8) (rise : Bool) (s : State) : Option Nat :=
  if s.owner k = 0x03 then ((s.tdc k).results.find? (fun p => p.2 == rise)).map (·.1) else none

/-- A recorder term on a binary input fires; the stamp is the TDC capture for U = 1, else the line's own. `raw` is the
direction of the line before inversion. -/
def fireBi (k : Nat) (st raw : Bool) (t : Nat) (s : State) : State :=
  let s := s.each (List.finRange 32) (fun r s =>
    match termOf (s.recorder r) (edgeTerm 2 k st) with
    | none => s
    | some i =>
      match (s.recorder r).ent.terms[i]? with
      | none => s
      | some y =>
        match (if y.tdcU then takeCapture (termChan y) raw s else none) with
        | some c => fireRec (edgeTerm 2 k st) c 1 r s
        | none => fireRec (edgeTerm 2 k st) t 2 r s)
  s.each (List.finRange 8) (fun c s =>
    if s.owner c = 0x03 ∧ s.fget (TB_TDCCTL_SRC c) = k then s.modTdc c (fun x => { x with results := [] }) else s)

/-- BI_DEBOUNCED_CHANGE. -/
def execBiDebouncedChange (line : Fin 16) (level : Bool) (s : State) : Result :=
  .next (
    let st := level != s.fbit (DTRIP_BICFG_INV line)
    if ¬ s.fabOn ∨ bitOf (s.fget DTRIP_BISTATE_DEB) line = st then s
    else
      let (t, _, s) := biChange line level s
      fireBi line st level t s)

/-- XT_EDGE. -/
def execXtEdge (line : Fin 4) (rise : Bool) (s : State) : Result :=
  .next (fireAll (fun y => edgeTerm 3 line rise y && !y.tdcU) s.now 2 (xtEdgeOp line rise s))

/-- CMP_OUTPUT_CHANGE (R372): the output as it now stands. -/
def execCmpOutputChange (k : Fin 4) (out : Bool) (s : State) : Result :=
  .next (
    if s.fbit (PWR_CMP_OUT k) = out then s
    else fireAll (fun y => edgeTerm 4 k out y && !y.tdcU) s.now 2 (noteEdge (20 + k) s.now out (s.fsetB (PWR_CMP_OUT k) out)))

/-- DT_OUT_CHANGE. -/
def execDtOutChange (line : Fin 8) (out : Bool) (s : State) : Result :=
  .next (
    if bitOf (s.fget DTRIP_STATE_OUT) line = out then s
    else fireAll (edgeTerm 7 line out) s.now 2 (dtOutOp line out s))

/-- The line of kind 3 or 4 that a TDC source names. -/
def tdcLine (src : Nat) : Option (Nat × Nat) :=
  if 16 ≤ src ∧ src < 20 then some (3, src - 16) else if 20 ≤ src ∧ src < 24 then some (4, src - 20) else none

/-- TDC_EDGE: the capture; the acquisition engine takes those of its cross-trigger and comparator lines at once. -/
def execTdcEdge (k : Fin 8) (rise : Bool) (raw : Nat) (s : State) : Result :=
  .next (
    let s := tdcCapture k rise raw s
    match tdcLine (s.fget (TB_TDCCTL_SRC k)), (s.tdc k).results.getLast? with
    | some (kind, line), some (t, d) =>
      if s.owner k = 0x03 then
        fireAll (fun y => edgeTerm kind line d y && y.tdcU && y.tdcCh == k.val) t 1 (s.modTdc k (fun c => { c with results := [] }))
      else s
    | _, _ => s)

end Sys2Proof.Machine
end

