-- ==== Sys2Proof/Machine/SfeCmd.lean ====
section
/-! DEFINITION. The sample front end's commands that also reach the Locket feed, the recorders and the failover engine
(R237, R242, R222, R405). -/
namespace Sys2Proof.Machine

open Reg

/-- After the sample front end has worked: recorders take its outputs, a replay with nothing left ends, and a takeover sees
delivery move to the live context. -/
def sfeAfter (s : State) : State := foLive (sfeReplayIdle (recordOutputs s))

/-- SFE_FRAME_INGEST: the next frame from I1. While the front end is not enabled the frame is dropped. -/
def execSfeFrameIngest (s : State) : Result :=
  .next (
    match sfeNext s with
    | none => s
    | some (f, s) => if s.domOn 6 ∧ s.fbit SFE_CTL_EN then sfeAfter (sfeFrame f (feedCopy f s)) else s)

/-- The open set of a group whose window ends first. -/
def firstDeadline (x : GroupSt) : Option OpenSet :=
  x.sets.foldl (fun m o => match m with
    | some y => if o.deadline < y.deadline then some o else m
    | none => some o) none

/-- Closes a set whose window has ended, with the older ones; it counts once in SUBST. -/
def expireSet (rep : Bool) (g : Nat) (o : OpenSet) (s : State) : State := closeUpTo rep g o.tag (sfeCount 6 s)

/-- SET_WINDOW_EXPIRY: of the live and the replay context, the set whose window ends first. -/
def execSetWindowExpiry (group : Nat) (s : State) : Result :=
  .next (
    if ¬ s.domOn 6 then s
    else match firstDeadline (grpSt s false group), firstDeadline (grpSt s true group) with
      | some a, some b => sfeAfter (if b.deadline < a.deadline then expireSet true group b s else expireSet false group a s)
      | some a, none => sfeAfter (expireSet false group a s)
      | none, some b => sfeAfter (expireSet true group b s)
      | none, none => s)

/-- REPLAY_GO. -/
def execReplayGo (rq : Req) (v : Word) (s : State) : Result :=
  .next (foLive (s.regWriteAccess rq 0xF0000A0038 (rpCmd (v ||| 0x100).toNat)))

/-- REPLAY_DONE: every frame of the replay has been delivered. -/
def execReplayDone (s : State) : Result :=
  .next (if s.net.replayQ = [] then foLive (sfeReplayIdle (s.fset NETSW_RPSTAT_BUSY 0)) else s)

end Sys2Proof.Machine
end

