-- ==== Sys2Proof/Machine/Boot.lean ====
section
/-! DEFINITION. Start-up and resets (R461 to R468), the boot ROM (R463, R464), the SYS, CRC and DEBUG blocks (R474 to R476),
the completion of domain changes (R358, R370) and the loss of the always-on supply (R454). -/
namespace Sys2Proof.Machine

open Reg

/-! ### Boot ROM (R431, R432, R463, R464) -/

/-- Flash byte at which an image slot starts. -/
def slotBase (slot : Nat) : Nat := if slot = 0 then 0x100000 else 0x4100000

/-- The header of an image slot. -/
def bootHeader (s : State) (slot : Nat) : List Byte := memRead s.flash (slotBase slot) 512

/-- The payload of an image slot. -/
def bootPayload (s : State) (slot : Nat) : List Byte :=
  memRead s.flash (slotBase slot + 512) (leAt (bootHeader s slot) 0xC 4)

/-- Code 2: MAGIC, VER or a zero field. -/
def bootForm (h : List Byte) : Bool :=
  leAt h 0 4 == 0x49425654 && leAt h 4 2 == 1 && allZero (sliceOf h 7 1) && allZero (sliceOf h 0x1C 4) && allZero (h.drop 0x110)

/-- Code 3: KEYIDX is permitted by R419 and the public key is the entry's, or the Torvif test key. -/
def bootKeyOk (s : State) (h : List Byte) : Bool :=
  let k := leAt h 6 1
  let hash := sha384 (sliceOf h 0x50 96)
  let test := k == 0xFF && hash == Config.openFn Site.ecdsa [] % 2 ^ 384
  let fused := match s.sec.bootKeys.toList[k]? with
    | some e => bitOf s.sec.prog k && !bitOf s.sec.rev k && hash == e
    | none => false
  match s.sec.life with
  | 0 => test
  | 1 => test || fused
  | 2 => fused
  | 3 => test
  | _ => false

/-- Code 5: whether SIG verifies over bytes 0x000 to 0x0AF, a free function of key, signature and message. -/
def bootSigOk (h : List Byte) : Bool :=
  Config.openFn Site.ecdsa [beVal (sliceOf h 0x50 96), beVal (sliceOf h 0xB0 96), beVal (h.take 0xB0)] % 2 == 1

/-- Code 7: the load range lies in DRAM or in checkpoint memory, and LEN is at most 32 MiB. -/
def bootRangeOk (h : List Byte) : Bool :=
  let a := leAt h 0x10 8
  let n := leAt h 0xC 4
  decide (n ≤ 0x2000000) && (decide (a + n ≤ 0x400000000) || (decide (0x4800000000 ≤ a) && decide (a + n ≤ 0x4801800000)))

/-- The result code of a slot. -/
def bootCode (s : State) (slot : Nat) : Nat :=
  let h := bootHeader s slot
  if ¬ bootForm h then 2
  else if ¬ bootKeyOk s h then 3
  else if leAt h 8 4 < s.sec.svn then 4
  else if ¬ bootSigOk h then 5
  else if sha384 (bootPayload s slot) ≠ beVal (sliceOf h 0x20 48) then 6
  else if ¬ bootRangeOk h then 7
  else 0

/-- The payload is in memory once its header has passed. -/
def bootLoad (slot : Nat) (s : State) : State :=
  let h := bootHeader s slot
  if (bootCode s slot = 0 ∨ bootCode s slot = 6) ∧ bootRangeOk h then s.wr (leAt h 0x10 8) (bootPayload s slot) else s

/-- Writes a slot's result code. -/
def setBootRes (slot code : Nat) (s : State) : State := s.fset (if slot = 0 then SYS_BOOT_RESA else SYS_BOOT_RESB) code

/-- SYS_BOOT as a word. -/
def bootWord (s : State) : Nat := regValue s [SYS_BOOT_SLOT, SYS_BOOT_RESB, SYS_BOOT_RESA]

/-- M0 in wait with interrupts off. -/
def bootStop (s : State) : State :=
  s.modLane 40 (fun x => { x with st := .waiting, f := { x.f with status := { x.f.status with ie := false } } })

/-- The jump to ENTRY of the image in a slot. -/
def bootEnter (slot : Nat) (s : State) : State :=
  let h := bootHeader s slot
  let k := leAt h 6 1
  let entry := leAt h 0x18 4
  let s := (s.fset SYS_BOOT_SLOT slot).fset SYS_STAT_BOOTOK 1
  let s := s.modSec (fun x => { x with runKey := k, runSvn := leAt h 8 4, runEntry := entry })
  let w := BitVec.ofNat 32 (bootWord s)
  s.modLane 40 (fun x => { x with st := .running, f := { (bank0.setReg 1 w) with pc := BitVec.ofNat 32 entry } })

/-- The boot ROM on M0: the preferred slot, then the other; neither leaves M0 in wait. -/
def bootRom (s : State) : State :=
  if s.sec.life = 4 then bootStop s
  else
    let s := pllLocked 2 (s.fset (pllEn 2) 1)
    let a := s.fget SYS_BOOTPREF_SLOT
    let b := 1 - a
    let ca := bootCode s a
    let s := setBootRes b 8 (setBootRes a ca (bootLoad a s))
    if ca = 0 then bootEnter a s
    else
      let cb := bootCode s b
      let s := setBootRes b cb (bootLoad b s)
      if cb = 0 then bootEnter b s
      else bootStop ((s.fset LIFE_STAT_BOOTFAIL 1).log' LIFE_STAT_BOOTFAIL true 6 0xFF [ca, cb])

/-! ### Resets (R461, R465 to R467) -/

/-- A register field that a warm or life-cycle reset keeps: the time base, the trip latches and arm bits, the inputs that the
always-on logic shows, BOOTPREF, RSTCNT, DBG and the wipe of DRAM; over a warm reset also the views and the syndrome. -/
def keptKey (warm : Bool) (key : Nat) : Bool :=
  let (b, off) := regBlock (key / 32)
  b == 9 || (b == 20 && (off == 4 || off == 8)) || (b == 0 && (off == 0xC || off == 0x1C)) ||
  [PWR_STAT_INA.key, PWR_STAT_INB.key, PWR_STAT_HOLDUP.key, PWR_STAT_SFW.key, LIFE_STAT_DBG.key, LIFE_STAT_WIPE.key,
   LIFE_WIPED_N.key].contains key || (List.range 4).any (fun k => (PWR_CMP_OUT k).key == key) ||
  (warm && ((b == 15 && decide (0x1000 ≤ off)) || (b == 0 && decide (0x40 ≤ off) && decide (off < 0x50))))

/-- A physical address whose contents a warm reset keeps: DRAM, checkpoint memory and the memories of M0 to M3. -/
def keptAddr (a : Nat) : Bool :=
  decide (a < 0x400000000) || (decide (0x4800000000 ≤ a) && decide (a < 0x4801800000)) ||
  (decide (0x4100800000 ≤ a) && decide (a < 0x4100900000))

/-- What every reset of the module keeps: the variant, fuses, managed flash, the Locket card, the free-value counter and the
commands that wait. -/
def bareState (s : State) : State :=
  { State.reset with
    variant := s.variant, regs := variantRegs s.variant, flash := s.flash, locket := (lktPortReset s).locket,
    sec := { security0 with life := s.sec.life, fuseRoot := s.sec.fuseRoot, bootKeys := s.sec.bootKeys, prog := s.sec.prog,
                            rev := s.sec.rev, svn := s.sec.svn },
    resp := s.resp, rdata := s.rdata, draws := s.draws, pending := s.pending }

/-- The clocks of R461 and R375 after a reset: the OCXO is active and the TB PLL locked. -/
def clocksUp (s : State) : State := pllLocked 0 (s.fset CLK_STAT_OCXOACT 1)

/-- The end of a reset with cause `c`: the log's check and the boot ROM. -/
def resetEnd (c : Nat) (s : State) : State := bootRom (logCheck (clocksUp (s.fset SYS_RSTCAUSE_CAUSE c)))

/-- Power-on reset (R461, R466): everything is wiped, and the memories of OFF domains wait for their power-up. -/
def powerOn (s : State) : State :=
  let t := (bareState s).fset LIFE_STAT_WIPE 1
  resetEnd 1 { t with sec := { t.sec with pendWipe := [0, 1, 2, 3, 4, 8] } }

/-- The ownership table is cleared; the OWNER fields of the TDC channels follow it. -/
def tdcUnowned (s : State) : State := s.each (List.range 8) (fun k => State.fset (TB_TDCCTL_OWNER k) 0)

/-- A warm (`warm`) or life-cycle reset with cause `c` (R465 to R467). -/
def moduleReset (warm : Bool) (c : Nat) (s : State) : State :=
  let s := abortAll s
  let t := bareState s
  let kept := s.regs.filter (fun p => keptKey warm p.1)
  let regs := kept.foldl (fun l p => ainsert p.1 p.2 l) (variantRegs s.variant)
  let lanes := Vector.ofFn (fun i => { laneReset i.val with retired := s.lanes[i].retired })
  let sec := { t.sec with wrong := s.sec.wrong, pendWipe := s.sec.pendWipe }
  let tb := { s.tb with launch := Vector.replicate 13 [] }
  let u := { t with regs := regs, lanes := lanes, sec := sec, tb := tb }
  let ecc := if warm then s.ecc.filter (fun w => keptAddr (8 * w)) else []
  let cecc := if warm then s.cecc.filter (fun w => keptAddr (8 * w)) else []
  let u := if warm then
      { u with mem := s.mem.filter (fun x => keptAddr x.1), ecc := ecc, cecc := cecc, retMem := s.retMem, log := s.log,
               power := { u.power with images := s.power.images } }
    else u
  resetEnd c (tdcUnowned (u.bump SYS_RSTCNT_N))

/-- A warm reset; during an accepted transition it is absorbed by the life-cycle reset (R468). -/
def warmReset (c : Nat) (s : State) : State := if s.sec.next.isSome then s else moduleReset true c s

/-- POWER_ON_RESET. -/
def execPowerOnReset (s : State) : Result := .next (powerOn s)

/-- The code of a cause in SYS_RSTCAUSE. -/
def causeCode : RstCause → Nat
  | .command => 2
  | .watchdog => 3
  | .debugPort => 4

/-- WARM_RESET. -/
def execWarmReset (cause : RstCause) (s : State) : Result := .next (warmReset (causeCode cause) s)

/-- LIFE_CYCLE_RESET: the end of an accepted transition, its fuses verified (R420, R465). -/
def execLifeCycleReset (s : State) : Result :=
  .next (match s.sec.next with
    | some st => moduleReset false 5 (s.modSec (fun x => { x with life := st, next := none }))
    | none => s)

/-- AON_SUPPLY_LOSS (R454): trip drivers stop, and all but fuses, flash and the Locket card is lost until power returns. -/
def execAonSupplyLoss (s : State) : Result :=
  .next (
    let t := (bareState s).each (List.range 10) (fun d => setDom d 0)
    let t := (t.fset PWR_STAT_INA 0).fset PWR_STAT_INB 0
    { t with lanes := Vector.replicate 52 (lane0 .off) })

/-! ### SYS (R468, R474) -/

/-- A write of SYS_RSTCMD (R468). -/
def rstcmdOp (v : Nat) (s : State) : Rsp × State :=
  if bitsOf v 8 8 ≠ 0x5A then (.denied, s)
  else if ¬ bitOf v 0 then (.ok, s)
  else if (s.adm ∧ ¬ bitOf v 1) ∨ s.fbit LIFE_CMDSTAT_BUSY then (.denied, s)
  else (.ok, warmReset 2 s)

/-- A write of SYS_WDKICK. -/
def wdkickOp (v : Nat) (s : State) : Rsp × State :=
  if v % 65536 = 0x4B1C then (.ok, s.modPower (fun p => { p with wdHalf := false })) else (.denied, s)

/-- A write of SYS_LANEREL: M1 to M3 leave reset at ENTRY of the running image. -/
def lanerelOp (v : Nat) (s : State) : Rsp × State :=
  let entry := BitVec.ofNat 32 s.sec.runEntry
  (.ok, s.each [1, 2, 3] (fun n s =>
    if bitOf v n then s.modLane ⟨40 + n % 4, by omega⟩ (fun x =>
      if x.st = .reset then { x with st := .running, f := { bank0 with pc := entry } } else x)
    else s))

/-- Writes of the SYS block. -/
def sysWrite (off v : Nat) (s : State) : Rsp × State :=
  if off = 0x24 then wdkickOp v s
  else if off = 0x28 then lanerelOp v s
  else if off = 0x2C then rstcmdOp v s
  else tableWrite regsSYS (0xF000000000 + off) v s

/-- SYS_RSTCMD_WRITE. -/
def execSysRstcmdWrite (rq : Req) (v : Word) (s : State) : Result :=
  .next (s.regWriteAccess rq 0xF00000002C (sysWrite 0x2C v.toNat))

/-- SYS_WDOG_WRITE. -/
def execSysWdogWrite (rq : Req) (v : Word) (s : State) : Result :=
  .next (s.regWriteAccess rq 0xF000000020 (sysWrite 0x20 v.toNat))

/-- SYS_WDKICK_WRITE. -/
def execSysWdkickWrite (rq : Req) (v : Word) (s : State) : Result :=
  .next (s.regWriteAccess rq 0xF000000024 (sysWrite 0x24 v.toNat))

/-- SYS_LANEREL_WRITE. -/
def execSysLanerelWrite (rq : Req) (v : Word) (s : State) : Result :=
  .next (s.regWriteAccess rq 0xF000000028 (sysWrite 0x28 v.toNat))

/-- WATCHDOG_HALF: half the period has passed without a kick. -/
def execWatchdogHalf (s : State) : Result :=
  .next (if s.fbit SYS_WDOG_EN then s.modPower (fun p => { p with wdHalf := true }) else s)

/-- WATCHDOG_EXPIRY (R468). -/
def execWatchdogExpiry (s : State) : Result :=
  .next (if ¬ s.fbit SYS_WDOG_EN ∨ s.sec.next.isSome then s
    else warmReset 3 (s.log' SYS_WDOG_MS true 6 0xFF [s.fget SYS_WDOG_MS]))

/-! ### CRC and DEBUG (R475, R476) -/

/-- A write of CRC_SEED starts a computation. -/
def crcSeedOp (v : Nat) (s : State) : Rsp × State := (.ok, (s.fset CRC_SEED_V v).fset CRC_RESULT_V (v ^^^ 0xFFFFFFFF))

/-- A write of CRC_DATA adds 4 bytes, lowest first. -/
def crcDataOp (v : Nat) (s : State) : Rsp × State :=
  (.ok, s.fset CRC_RESULT_V (crc32cRun (s.fget CRC_RESULT_V ^^^ 0xFFFFFFFF) (leBytes 4 v) ^^^ 0xFFFFFFFF))

/-- Writes of the CRC block. -/
def crcWrite (off v : Nat) (s : State) : Rsp × State :=
  if off = 0 then crcSeedOp v s else if off = 4 then crcDataOp v s else (.ok, s)

/-- CRC_SEED_WRITE. -/
def execCrcSeedWrite (rq : Req) (v : Word) (s : State) : Result :=
  .next (s.regWriteAccess rq 0xF000110000 (crcWrite 0 v.toNat))

/-- CRC_DATA_WRITE. -/
def execCrcDataWrite (rq : Req) (v : Word) (s : State) : Result :=
  .next (s.regWriteAccess rq 0xF000110004 (crcWrite 4 v.toNat))

/-- Writes of the DEBUG block. -/
def debugWrite (off : Nat) (s : State) : Rsp × State := (if off = 0 then .ok else .denied, s)

/-- DEBUG_HALT_REQUEST: M0 to M3 halt; no cluster lane does. -/
def execDebugHaltRequest (s : State) : Result :=
  .next (if ¬ debugOpen s then s
    else (s.fset DEBUG_STAT_HALTREQ 1).each (List.range 4) (fun n s =>
      s.modLane ⟨40 + n % 4, by omega⟩ (fun x => { x with halted := true })))

/-- DEBUG_RESET_REQUEST. -/
def execDebugResetRequest (s : State) : Result := .next (if debugOpen s then warmReset 4 s else s)

/-! ### Domain changes (R358, R369, R370, R434) -/

/-- PD_FAB is on again: its banks are checked and restored; without bank 1 the management lanes start at the boot ROM. -/
def fabOnAgain (s : State) : State :=
  let s := s.modPower (fun p => { p with standby := .no })
  let s := (wakeBank 2 (wakeBank 0 s).2).2
  let (ok, s) := wakeBank 1 s
  let s := (wakeBank 7 (wakeBank 6 s).2).2
  if ok then s
  else bootRom { s with lanes := Vector.ofFn (fun i => if 40 ≤ i.val ∧ i.val < 44 then laneReset i.val else s.lanes[i]) }

/-- What a domain does as it comes ON. -/
def domainUp (d : Nat) (s : State) : State :=
  let s := (setDom d 1 s).modSec (fun x => { x with pendWipe := x.pendWipe.filter (· != d) })
  if d < 5 then clusterOn d s
  else if d = 5 then fabOnAgain s
  else if d = 8 then
    let n := s.wams.offDrop
    let s := (wakeBank 5 (resetLanes 44 8 .idle s)).2
    (s.modWams (fun w => { w with offDrop := 0 })).bumpBy (WAMS_CNT_N 3) n
  else s.each (domBanks d) (fun b s => (wakeBank b s).2)

/-- A domain has left ON or RET: its contents are lost, but for PD_DRAM in RET; at OFF its banks are lost too (R356). -/
def domainDown (d st : Nat) (s : State) : State :=
  let s := setDom d st (if d = 9 ∧ st = 2 then s else domReset d s)
  if st = 0 then s.each (domBanks d) (fun b s => s.fset PWR_RETVALID_B (putBit (s.fget PWR_RETVALID_B) b false)) else s

/-- The spare cluster's power-up belongs to the failover engine. -/
def foOwned (s : State) (d : Nat) : Bool := d == spareGroup s && (s.fget FAILOVER_STAT_PHASE == 2 || s.fget FAILOVER_STAT_PHASE == 6)

/-- DOMAIN_CHANGE_DONE: a domain that is changing reaches its target; a power-up once its stages have been granted. -/
def execDomainChangeDone (dom : Fin 10) (s : State) : Result :=
  .next (
    match alookup dom.val s.power.target with
    | none => s
    | some st =>
      let done := fun (s : State) => dcmdDone dom (s.modPower (fun p => { p with target := aerase dom.val p.target }))
      if st = 1 then
        (if govHolds s dom || foOwned s dom || (dom.val != 5 && !s.domOn 5) then s else done (domainUp dom s))
      else done (domainDown dom st s))

/-! ### The time-base cycle of an idle block -/

/-- One TB cycle with no command: the time base advances (R31), and a log that does not yet accept events completes its check
(R392). -/
def idleCycle (s : State) : State :=
  let s := tbCycle s
  if s.domOn 5 ∧ ¬ s.fbit EVREC_STAT_READY then logCheck s else s

end Sys2Proof.Machine
end

