-- ==== Sys2Proof/Machine/Bus.lean ====
section
/-! DEFINITION. Register accesses by address (R470 to R472, R496), the commands for registers without a row of their own, and
the completion of block commands (R499). -/
namespace Sys2Proof.Machine

open Reg

/-- What a write of register offset `off` of block `i` does. -/
def writeBlock (rq : Req) (i off v : Nat) (s : State) : Rsp × State :=
  match i with
  | 0 => sysWrite off v s
  | 1 => pwrWrite off v s
  | 2 => clkWrite off v s
  | 3 => bezelWrite off v s
  | 4 => schedWrite off v s
  | 5 => fabWrite off v s
  | 6 => foWrite off v s
  | 7 => keyWriteReg off v s
  | 8 => lifeWriteReg off v s
  | 9 => tbWrite off v s
  | 10 => netWrite off v s
  | 11 => portWrite off v s
  | 12 => sfeWrite off v s
  | 13 => wamsWrite off v s
  | 14 => claspWrite off v s
  | 15 => evrecWrite rq off v s
  | 16 => acqWrite off v s
  | 17 => crcWrite off v s
  | 18 => iobusWrite off v s
  | 19 => idbusWrite off v s
  | 20 => dtripWrite off v s
  | 21 => vpiWrite rq.vmid off v s
  | 22 => lktWriteReg off v s
  | 23 => debugWrite off s
  | _ => (.denied, s)

/-- A register write as the fabric answers it: the gate of R472, then the block; errors are recorded. -/
def devWrite (rq : Req) (a size v : Nat) (kind : AccKind) (s : State) : Rsp × State :=
  let g := s.gate rq.vmid a size true
  if g.rsp ≠ .ok then (g.rsp, s.recordFault rq a kind g.rsp g.dom 0)
  else match regionOf a with
    | .block i off =>
      let (r, s) := writeBlock rq i off v s
      (r, s.recordFault rq a kind r 0xF 0)
    | _ => (.denied, s.recordFault rq a kind .denied 0xF 0)

/-- A register read as the fabric answers it. -/
def devRead (rq : Req) (a size : Nat) (kind : AccKind) (s : State) : Rsp × Nat × State :=
  let g := s.gate rq.vmid a size false
  if g.rsp ≠ .ok then (g.rsp, 0, s.recordFault rq a kind g.rsp g.dom 0)
  else match regionOf a with
    | .block i off =>
      match readBlock rq i off s with
      | some (d, s) => (.ok, d % 2 ^ 32, s)
      | none => (.denied, 0, s.recordFault rq a kind .denied 0xF 0)
    | _ => (.denied, 0, s.recordFault rq a kind .denied 0xF 0)

/-- A physical address lies in the register-block region, where accesses are device accesses (R84). -/
def isDev (a : Nat) : Bool := decide (0xF000000000 ≤ a) && decide (a < 0xF000180000)

/-- A write anywhere in the physical map. -/
def busWrite (rq : Req) (a size v : Nat) (kind : AccKind) (s : State) : Rsp × State :=
  if isDev a then devWrite rq a size v kind s else memWriteAcc rq a (leBytes size v) kind s

/-- A read anywhere in the physical map. -/
def busRead (rq : Req) (a size : Nat) (kind : AccKind) (s : State) : Rsp × Nat × State :=
  if isDev a then devRead rq a size kind s else memReadAcc rq a size kind s

/-- REGISTER_WRITE. -/
def execRegisterWrite (rq : Req) (addr size : Nat) (v : Word) (s : State) : Result :=
  .next (let (r, s) := busWrite rq addr size v.toNat .write s; s.complete r 0)

/-- RC_REGISTER_READ. -/
def execRcRegisterRead (rq : Req) (addr : Nat) (s : State) : Result :=
  .next (let (r, d, s) := busRead rq addr 4 .read s; s.complete r d)

/-- A life-cycle command completes: an accepted transition that has not ended in its reset has failed its fuse check. -/
def lifeComplete (s : State) : State :=
  let s := s.fset LIFE_CMDSTAT_BUSY 0
  if s.sec.next.isNone then s
  else ((s.modSec (fun x => { x with next := none })).fset LIFE_CMDSTAT_ERR 6).log' LIFE_CMDSTAT_ERR true 6 0xFF [6]

/-- A switch-table command completes; ACTIVATE completes by STREAM_ACTIVATE_DONE. -/
def netComplete (s : State) : State := if s.net.actErr.isSome then s else s.fset NETSW_STSTAT_BUSY 0

/-- COMMAND_COMPLETE. -/
def execCommandComplete (blk : CmdBlk) (s : State) : Result :=
  .next (match blk with
    | .netsw => netComplete s
    | .sfe => s.fset SFE_CMDSTAT_BUSY 0
    | .wams => s.fset WAMS_CMDSTAT_BUSY 0
    | .vpi => vpiComplete s
    | .vpiTx => txComplete s
    | .acq => s.fset ACQ_CMDSTAT_BUSY 0
    | .iobus => s.fset IOBUS_CMDSTAT_BUSY 0
    | .key => s.fset KEY_CMDSTAT_BUSY 0
    | .sfp => s.fset IDBUS_SFPSTAT_BUSY 0
    | .life => lifeComplete s)

end Sys2Proof.Machine
end

