-- ==== Sys2Proof/Machine/Encoding.lean ====
section
/-! DEFINITION. The instruction words of Caeriz: their formats and codes (R109 to R111), which operands they admit (R108,
R110), and the instruction a word stands for. -/
namespace Sys2Proof.Machine

/-! ### Formats (R109) -/

/-- Format FA. -/
def fmtFA (op : Nat) (rd a b : Fin 32) (f : Nat) : Nat := op * 2 ^ 26 + rd.val * 2 ^ 21 + a.val * 2 ^ 16 + b.val * 2 ^ 11 + f

/-- Formats FI and FB: two register fields and 16 bits. -/
def fmtFI (op : Nat) (rd a : Fin 32) (imm : Nat) : Nat := op * 2 ^ 26 + rd.val * 2 ^ 21 + a.val * 2 ^ 16 + imm

/-- Format FU. -/
def fmtFU (op : Nat) (rd : Fin 32) (imm : Nat) : Nat := op * 2 ^ 26 + rd.val * 2 ^ 21 + imm

/-- Format FJ. -/
def fmtFJ (op off : Nat) : Nat := op * 2 ^ 26 + off

/-- Format FV. -/
def fmtFV (op : Nat) (d a b : Fin 32) (x f : Nat) : Nat := fmtFA op d a b (x * 2 ^ 8 + f)

/-- Format FG. -/
def fmtFG (op : Nat) (rd a b : Fin 32) (f imm : Nat) : Nat := fmtFA op rd a b (f * 2 ^ 8 + imm)

/-- Format FX. -/
def fmtFX (op : Nat) (rd a : Fin 32) (imm f : Nat) : Nat := fmtFI op rd a (imm * 16 + f)

/-! ### Function codes (R115 to R124) -/

/-- func of op 0x01. -/
def aluOps : List AluOp :=
  [.add, .sub, .and, .or, .xor, .shl, .shr, .sar, .cmpLt, .cmpLtu, .min, .max, .minu, .maxu, .clz, .addsat, .subsat]

/-- func of op 0x02, 0 to 5. -/
def mulOps : List MulOp := [.mul, .hss, .huu, .hsu, .mulD, .mulq]

/-- func of op 0x02 from 8 on. -/
def divOps : List DivOp := [.div, .divu, .rem, .remu]

/-- Ops from 0x03 on. -/
def immOps : List ImmOp := [.addi, .andi, .ori, .xori, .cmpLti, .cmpLtui]

/-- Kinds of op 0x09. -/
def shiftOps : List ShiftOp := [.shl, .shr, .sar, .ror]

/-- Ops from 0x10 on. -/
def loadOps : List LoadOp := [.b, .bu, .h, .hu, .w, .d]

/-- Ops from 0x16 on. -/
def storeOps : List StoreOp := [.b, .h, .w, .d]

/-- Ops from 0x1A on. -/
def brOps : List BrOp := [.eq, .ne, .lt, .ge, .ltu, .geu]

/-- func bits 3:0 of op 0x23. -/
def atOps : List AtOp := [.swap, .add, .and, .or, .xor, .max, .min, .maxu, .minu, .cas]

/-- func of op 0x24; 0x00D is not listed. -/
def fOps : List (Option FOp) :=
  [some .add, some .sub, some .mul, some .div, some .sqrt, some .fma, some .min, some .max, some .abs, some .neg,
   some .cpsgn, some .cmp, some .cmps, none, some .itof, some .ftoi, some .utof, some .ftou, some .class]

/-- func8 of op 0x28. -/
def vOps : List (Option VOp) :=
  [some .addI, some .subI, some .mulI, some .and, some .or, some .xor, none, none, some .addF, some .subF, some .mulF,
   some .fmaF, some .sumF, none, none, none, some .splat, some .ins, some .ext, some .mov]

/-- func3 of op 0x30. -/
def imgLds : List ImgLd := [.bit, .bu, .b, .hu, .h, .w, .d]

/-- func3 of op 0x31, 0 to 4. -/
def imgSts : List ImgSt := [.bit, .b, .h, .w, .d]

/-- The code of an operation: its place in its list. -/
def codeOf {α : Type} [DecidableEq α] (a : α) : List α → Nat
  | [] => 0
  | b :: l => if a = b then 0 else codeOf a l + 1

/-! ### Words -/

/-- The lane and the word of an instruction that a lane issues; other commands have none. -/
def laneWord : Instr → Option (Fin 52 × Nat)
  | .aluOp l op rd a b => some (l, fmtFA 0x01 rd a b (codeOf op aluOps))
  | .mulOp l op rd a b => some (l, fmtFA 0x02 rd a b (codeOf op mulOps))
  | .divOp l op rd a b => some (l, fmtFA 0x02 rd a b (8 + codeOf op divOps))
  | .immediateOp l op rd a imm => some (l, fmtFI (0x03 + codeOf op immOps) rd a imm.toNat)
  | .shiftImmediate l op rd a sh => some (l, fmtFI 0x09 rd a (codeOf op shiftOps * 32 + sh.toNat))
  | .movHi l rd imm => some (l, fmtFU 0x0A rd imm.toNat)
  | .pcHi l rd imm => some (l, fmtFU 0x0B rd imm.toNat)
  | .load l op rd a imm _ => some (l, fmtFI (0x10 + codeOf op loadOps) rd a imm.toNat)
  | .store l op rd a imm => some (l, fmtFI (0x16 + codeOf op storeOps) rd a imm.toNat)
  | .vLd l d a imm => some (l, fmtFI 0x2A d a imm.toNat)
  | .vSt l d a imm => some (l, fmtFI 0x2B d a imm.toNat)
  | .branch l op a b off => some (l, fmtFI (0x1A + codeOf op brOps) a b off.toNat)
  | .jmp l off => some (l, fmtFJ 0x20 off.toNat)
  | .call l off => some (l, fmtFJ 0x21 off.toNat)
  | .jmpR l rd a imm => some (l, fmtFI 0x22 rd a imm.toNat)
  | .atomic l op h rel acq rd a b =>
    some (l, fmtFA 0x23 rd a b (b2n h * 64 + b2n rel * 32 + b2n acq * 16 + codeOf op atOps))
  | .f32Op l op rd a b => some (l, fmtFA 0x24 rd a b (codeOf (some op) fOps))
  | .vectorOp l op d a b e => some (l, fmtFV 0x28 d a b e.val (codeOf (some op) vOps))
  | .cmul l cf d a b => some (l, fmtFV 0x29 d a b (b2n cf * 4) 0x00)
  | .cconj l cf d a => some (l, fmtFV 0x29 d a 0 (b2n cf * 4) 0x01)
  | .cmag l e d a => some (l, fmtFV 0x29 d a 0 e.val 0x02)
  | .cang l e d a => some (l, fmtFV 0x29 d a 0 e.val 0x03)
  | .cmac l d a b => some (l, fmtFV 0x29 ⟨d.val, by omega⟩ a b 0 0x08)
  | .cmacC l d a b => some (l, fmtFV 0x29 ⟨d.val, by omega⟩ a b 0 0x09)
  | .acClr l d => some (l, fmtFV 0x29 ⟨d.val, by omega⟩ 0 0 0 0x0A)
  | .acRd l e d a sh => some (l, fmtFV 0x29 d ⟨a.val, by omega⟩ sh e.val 0x0B)
  | .imgLd l op rd a b imm => some (l, fmtFG 0x30 rd a b (codeOf op imgLds) imm.toNat)
  | .imgSt l op rd a b imm => some (l, fmtFG 0x31 rd a b (codeOf op imgSts) imm.toNat)
  | .imgSet l a b imm => some (l, fmtFG 0x31 0 a b 5 imm.toNat)
  | .imgClr l a b imm => some (l, fmtFG 0x31 0 a b 6 imm.toNat)
  | .tmrTon l rd a b imm => some (l, fmtFG 0x32 rd a b 0 imm.toNat)
  | .tmrTof l rd a b imm => some (l, fmtFG 0x32 rd a b 1 imm.toNat)
  | .tmrTp l rd a b imm => some (l, fmtFG 0x32 rd a b 2 imm.toNat)
  | .tmrRst l rd a imm => some (l, fmtFG 0x32 rd a 0 3 imm.toNat)
  | .edgR l rd a b imm => some (l, fmtFG 0x33 rd a b 0 imm.toNat)
  | .edgF l rd a b imm => some (l, fmtFG 0x33 rd a b 1 imm.toNat)
  | .edgB l rd a b imm => some (l, fmtFG 0x33 rd a b 2 imm.toNat)
  | .edgInit l rd a b imm => some (l, fmtFG 0x33 rd a b 3 imm.toNat)
  | .bezOpen l => some (l, fmtFX 0x34 0 0 0 0)
  | .bezClose l rd => some (l, fmtFX 0x34 rd 0 0 1)
  | .chkCommit l a imm => some (l, fmtFX 0x35 0 a imm.toNat 0)
  | .chkSize l rd => some (l, fmtFX 0x35 rd 0 0 1)
  | .fence l => some (l, fmtFX 0x38 0 0 0 0)
  | .fenceW l => some (l, fmtFX 0x38 0 0 0 1)
  | .fenceI l => some (l, fmtFX 0x38 0 0 0 2)
  | .tsync l e => some (l, fmtFX 0x38 0 0 e.val 3)
  | .wait l => some (l, fmtFX 0x38 0 0 0 4)
  | .yieldLane l => some (l, fmtFX 0x38 0 0 0 5)
  | .sysRd l rd num => some (l, fmtFX 0x39 rd 0 num.toNat 0)
  | .sysWr l a num => some (l, fmtFX 0x39 0 a num.toNat 1)
  | .sysCall l imm => some (l, fmtFX 0x39 0 0 imm.toNat 2)
  | .brk l imm => some (l, fmtFX 0x39 0 0 imm.toNat 3)
  | .eret l => some (l, fmtFX 0x39 0 0 0 4)
  | .sysIpi l a => some (l, fmtFX 0x39 0 a 0 5)
  | .tlbInv l rd a imm => some (l, fmtFX 0x39 rd a imm.toNat 6)
  | .tlbPin l rd a => some (l, fmtFX 0x39 rd a 0 7)
  | .tlbUnpin l a all => some (l, fmtFX 0x39 0 a (b2n all) 8)
  | .alkPost l rd a => some (l, fmtFX 0x3A rd a 0 0)
  | .alkPoll l rd a => some (l, fmtFX 0x3A rd a 0 1)
  | .illegalInstruction l w => some (l, w.toNat)
  | _ => none

/-- The word of an instruction, 0 for a command that is none. -/
def instrWord (i : Instr) : Nat :=
  match laneWord i with
  | some (_, w) => w
  | none => 0

/-! ### Operands an instruction admits (R108, R110) -/

/-- A field names a vector register. -/
def isVec (r : Fin 32) : Bool := decide (r.val < 16)

/-- A field names an even register. -/
def isEven (r : Fin 32) : Bool := r.val % 2 == 0

/-- The base register of an address: even where H = 1 (R117). -/
def baseOk (imm : BitVec 16) (a : Fin 32) : Bool := !bitOf imm.toNat 15 || isEven a

/-- binary32 operations that read rs1 alone: rs2 must be 0 (R121). -/
def fUnary (op : FOp) : Bool :=
  match op with
  | .sqrt | .abs | .neg | .itof | .ftoi | .utof | .ftou | .class => true
  | .add | .sub | .mul | .div | .fma | .min | .max | .cpsgn | .cmp | .cmps => false

/-- The fields of a vector instruction (R122). -/
def vectorFields (op : VOp) (d a b : Fin 32) (e : Fin 4) : Bool :=
  match op with
  | .addI | .subI | .mulI | .and | .or | .xor | .addF | .subF | .mulF | .fmaF => isVec d && isVec a && isVec b && e == 0
  | .sumF => isVec a && b == 0 && e == 0
  | .splat => isVec d && b == 0 && e == 0
  | .ins => isVec d && b == 0
  | .ext => isVec a && b == 0
  | .mov => isVec d && isVec a && b == 0 && e == 0

/-- The operand word of tlb.inv (R132). -/
def tlbInvFields (imm : Nat) : Bool :=
  bitsOf imm 10 2 == 0 && !(bitOf imm 2 && bitOf imm 3) &&
    (if bitOf imm 3 then decide (bitsOf imm 7 3 ≤ 4) else bitsOf imm 4 6 == 0)

/-- An instruction's fields admit it; otherwise its word is ILLEGAL (R108). -/
def fieldsOk : Instr → Bool
  | .aluOp _ op _ _ b => op != .clz || b == 0
  | .mulOp _ op rd _ _ => op != .mulD || isEven rd
  | .load _ op rd a imm _ => baseOk imm a && (op != .d || isEven rd)
  | .store _ op rd a imm => baseOk imm a && (op != .d || isEven rd)
  | .vLd _ d a imm => baseOk imm a && isVec d
  | .vSt _ d a imm => baseOk imm a && isVec d
  | .atomic _ _ h _ _ _ a _ => !h || isEven a
  | .f32Op _ op _ _ b => !fUnary op || b == 0
  | .vectorOp _ op d a b e => vectorFields op d a b e
  | .cmul _ _ d a b => isVec d && isVec a && isVec b
  | .cconj _ _ d a => isVec d && isVec a
  | .cmag _ _ _ a => isVec a
  | .cang _ _ _ a => isVec a
  | .cmac _ _ a b => isVec a && isVec b
  | .cmacC _ _ a b => isVec a && isVec b
  | .acRd _ _ d _ sh => isVec d && decide (sh.val ≤ 9)
  | .imgLd _ op rd _ _ _ => op != .d || isEven rd
  | .imgSt _ op rd _ _ _ => op != .d || isEven rd
  | .tlbInv _ _ _ imm => tlbInvFields imm.toNat
  | .illegalInstruction _ _ => false
  | _ => true

/-- The families only a cluster lane implements: img, tmr, edg, bez, chk, alk (R62), by major opcode. -/
def clusterOnly (op : Nat) : Bool := (decide (0x30 ≤ op) && decide (op ≤ 0x35)) || op == 0x3A

/-! ### The instruction of a word -/

/-- A register field. -/
def regAt (w lo : Nat) : Fin 32 := ⟨bitsOf w lo 5, by unfold bitsOf; omega⟩

/-- Five bits of a word below `n`. -/
def finAt (n w lo : Nat) : Option (Fin n) := if h : bitsOf w lo 5 < n then some ⟨bitsOf w lo 5, h⟩ else none

/-- Bits 9:8 of a word. -/
def elemAt (w : Nat) : Fin 4 := ⟨bitsOf w 8 2, by unfold bitsOf; omega⟩

/-- Bit 8 of a word, with bits 10:9 zero. -/
def elem2At (w : Nat) : Option (Fin 2) := if h : bitsOf w 8 3 < 2 then some ⟨bitsOf w 8 3, h⟩ else none

/-- op 0x29 (R123). -/
def decodeComplex (l : Fin 52) (w : Nat) : Option Instr :=
  let d := regAt w 21
  let a := regAt w 16
  let b := regAt w 11
  let x := bitsOf w 8 3
  match bitsOf w 0 8 with
  | 0x00 => if x = 0 ∨ x = 4 then some (.cmul l (x == 4) d a b) else none
  | 0x01 => if (x = 0 ∨ x = 4) ∧ b = 0 then some (.cconj l (x == 4) d a) else none
  | 0x02 => if b = 0 then (elem2At w).map (fun e => .cmag l e d a) else none
  | 0x03 => if b = 0 then (elem2At w).map (fun e => .cang l e d a) else none
  | 0x08 => if x = 0 then (finAt 2 w 21).map (fun d => .cmac l d a b) else none
  | 0x09 => if x = 0 then (finAt 2 w 21).map (fun d => .cmacC l d a b) else none
  | 0x0A => if x = 0 ∧ a = 0 ∧ b = 0 then (finAt 2 w 21).map (fun d => .acClr l d) else none
  | 0x0B => (elem2At w).bind (fun e => (finAt 2 w 16).map (fun a => .acRd l e d a b))
  | _ => none

/-- ops 0x30 to 0x33 (R124, R126, R127). -/
def decodeImage (l : Fin 52) (op w : Nat) : Option Instr :=
  let rd := regAt w 21
  let a := regAt w 16
  let b := regAt w 11
  let imm := BitVec.ofNat 8 w
  let f := bitsOf w 8 3
  if op = 0x30 then imgLds[f]?.map (fun k => .imgLd l k rd a b imm)
  else if op = 0x31 then
    (match f with
     | 5 => if rd = 0 then some (.imgSet l a b imm) else none
     | 6 => if rd = 0 then some (.imgClr l a b imm) else none
     | _ => imgSts[f]?.map (fun k => .imgSt l k rd a b imm))
  else if op = 0x32 then
    (match f with
     | 0 => some (.tmrTon l rd a b imm)
     | 1 => some (.tmrTof l rd a b imm)
     | 2 => some (.tmrTp l rd a b imm)
     | 3 => if b = 0 then some (.tmrRst l rd a imm) else none
     | _ => none)
  else
    (match f with
     | 0 => some (.edgR l rd a b imm)
     | 1 => some (.edgF l rd a b imm)
     | 2 => some (.edgB l rd a b imm)
     | 3 => some (.edgInit l rd a b imm)
     | _ => none)

/-- ops 0x34 to 0x3A (R128 to R134). -/
def decodeSystem (l : Fin 52) (op w : Nat) : Option Instr :=
  let rd := regAt w 21
  let a := regAt w 16
  let imm := bitsOf w 4 12
  let f := bitsOf w 0 4
  let bare : Bool := rd == 0 && a == 0 && imm == 0
  if op = 0x34 then
    (match f with
     | 0 => if bare then some (.bezOpen l) else none
     | 1 => if a = 0 ∧ imm = 0 then some (.bezClose l rd) else none
     | _ => none)
  else if op = 0x35 then
    (match f with
     | 0 => if rd = 0 ∧ imm < 512 then some (.chkCommit l a (BitVec.ofNat 9 imm)) else none
     | 1 => if a = 0 ∧ imm = 0 then some (.chkSize l rd) else none
     | _ => none)
  else if op = 0x38 then
    (match f with
     | 0 => if bare then some (.fence l) else none
     | 1 => if bare then some (.fenceW l) else none
     | 2 => if bare then some (.fenceI l) else none
     | 3 => if h : imm < 4 then (if rd = 0 ∧ a = 0 then some (.tsync l ⟨imm, h⟩) else none) else none
     | 4 => if bare then some (.wait l) else none
     | 5 => if bare then some (.yieldLane l) else none
     | _ => none)
  else if op = 0x39 then
    (match f with
     | 0 => if a = 0 then some (.sysRd l rd (BitVec.ofNat 12 imm)) else none
     | 1 => if rd = 0 then some (.sysWr l a (BitVec.ofNat 12 imm)) else none
     | 2 => if rd = 0 ∧ a = 0 ∧ imm < 256 then some (.sysCall l (BitVec.ofNat 8 imm)) else none
     | 3 => if rd = 0 ∧ a = 0 ∧ imm < 256 then some (.brk l (BitVec.ofNat 8 imm)) else none
     | 4 => if bare then some (.eret l) else none
     | 5 => if rd = 0 ∧ imm = 0 then some (.sysIpi l a) else none
     | 6 => some (.tlbInv l rd a (BitVec.ofNat 12 imm))
     | 7 => if imm = 0 then some (.tlbPin l rd a) else none
     | 8 => if rd = 0 ∧ imm < 2 then some (.tlbUnpin l a (imm == 1)) else none
     | _ => none)
  else
    (match f with
     | 0 => if imm = 0 then some (.alkPost l rd a) else none
     | 1 => if imm = 0 then some (.alkPoll l rd a) else none
     | _ => none)

/-- The instruction a word stands for on lane `l`, before the checks of `fieldsOk` and of the lane's kind; none where the
opcode or the function value is unallocated or an unused field is not 0 (R108, R111). -/
def decodeFields (l : Fin 52) (w : Nat) : Option Instr :=
  let op := bitsOf w 26 6
  let rd := regAt w 21
  let a := regAt w 16
  let b := regAt w 11
  let imm := BitVec.ofNat 16 w
  let f := bitsOf w 0 11
  if op = 0x01 then aluOps[f]?.map (fun k => .aluOp l k rd a b)
  else if op = 0x02 then
    (if f < 8 then mulOps[f]?.map (fun k => .mulOp l k rd a b) else divOps[f - 8]?.map (fun k => .divOp l k rd a b))
  else if 0x03 ≤ op ∧ op ≤ 0x08 then immOps[op - 3]?.map (fun k => .immediateOp l k rd a imm)
  else if op = 0x09 then
    (if bitsOf w 7 9 = 0 then shiftOps[bitsOf w 5 2]?.map (fun k => .shiftImmediate l k rd a (BitVec.ofNat 5 w)) else none)
  else if op = 0x0A then some (.movHi l rd (BitVec.ofNat 21 w))
  else if op = 0x0B then some (.pcHi l rd (BitVec.ofNat 21 w))
  else if 0x10 ≤ op ∧ op ≤ 0x15 then loadOps[op - 0x10]?.map (fun k => .load l k rd a imm false)
  else if 0x16 ≤ op ∧ op ≤ 0x19 then storeOps[op - 0x16]?.map (fun k => .store l k rd a imm)
  else if 0x1A ≤ op ∧ op ≤ 0x1F then brOps[op - 0x1A]?.map (fun k => .branch l k rd a imm)
  else if op = 0x20 then some (.jmp l (BitVec.ofNat 26 w))
  else if op = 0x21 then some (.call l (BitVec.ofNat 26 w))
  else if op = 0x22 then some (.jmpR l rd a imm)
  else if op = 0x23 then
    (if f < 128 then atOps[f % 16]?.map (fun k => .atomic l k (bitOf f 6) (bitOf f 5) (bitOf f 4) rd a b) else none)
  else if op = 0x24 then fOps[f]?.join.map (fun k => .f32Op l k rd a b)
  else if op = 0x28 then
    (if bitOf w 10 then none else vOps[bitsOf w 0 8]?.join.map (fun k => .vectorOp l k rd a b (elemAt w)))
  else if op = 0x29 then decodeComplex l w
  else if op = 0x2A then some (.vLd l rd a imm)
  else if op = 0x2B then some (.vSt l rd a imm)
  else if 0x30 ≤ op ∧ op ≤ 0x33 then decodeImage l op w
  else if op = 0x34 ∨ op = 0x35 ∨ op = 0x38 ∨ op = 0x39 ∨ op = 0x3A then decodeSystem l op w
  else none

/-- A word is ILLEGAL on a lane; `cl` says that it is a cluster lane (R63, R108). -/
def illegalWord (l : Fin 52) (cl : Bool) (w : Nat) : Bool :=
  (clusterOnly (bitsOf w 26 6) && !cl) || (match decodeFields l w with
    | some i => !fieldsOk i
    | none => true)

end Sys2Proof.Machine
end

