-- ==== Sys2Proof/Machine/Traps.lean ====
section
/-! DEFINITION. Exceptions and interrupts of a lane (R74, R76, R97 to R101): the causes, how one is taken, the double fault
and the abort of bank G, as operations that every instruction shares. -/
namespace Sys2Proof.Machine

open Reg

/-! ### Causes (R97) -/

/-- The causes the module raises. WATCH and STEP have no source in the spec. -/
inductive Cause where
  | fetchAlign | fetchS1 | fetchS2 | fetchBus | illegal | priv | sysreg | loadAlign | storeAlign | loadS1 | storeS1
  | loadS2 | storeS2 | loadBus | storeBus | callT | callK | brk | atomicRegion | postedBus | class0Mem | untimed
  | unitAbsent | bezel | imgRange | memEcc | checkpoint
  | irq (n : Nat)
  deriving DecidableEq, Repr

/-- Cause codes (R97). -/
def Cause.code : Cause → Nat
  | .fetchAlign => 0x01
  | .fetchS1 => 0x02
  | .fetchS2 => 0x03
  | .fetchBus => 0x04
  | .illegal => 0x05
  | .priv => 0x06
  | .sysreg => 0x07
  | .loadAlign => 0x08
  | .storeAlign => 0x09
  | .loadS1 => 0x0A
  | .storeS1 => 0x0B
  | .loadS2 => 0x0C
  | .storeS2 => 0x0D
  | .loadBus => 0x0E
  | .storeBus => 0x0F
  | .callT => 0x11
  | .callK => 0x12
  | .brk => 0x13
  | .atomicRegion => 0x16
  | .postedBus => 0x1E
  | .class0Mem => 0x20
  | .untimed => 0x21
  | .unitAbsent => 0x22
  | .bezel => 0x23
  | .imgRange => 0x24
  | .memEcc => 0x25
  | .checkpoint => 0x26
  | .irq n => 0x30 + n

/-- Where a cause goes from bank F (R97): `some true` always to K, `some false` always to S, `none` to K from mode T and to
S from K and S. Interrupts are routed by R97's last sentence. -/
def Cause.fixed : Cause → Option Bool
  | .callT => some true
  | .fetchS2 | .fetchBus | .callK | .brk | .loadS2 | .storeS2 | .memEcc => some false
  | .fetchAlign | .fetchS1 | .illegal | .priv | .sysreg | .loadAlign | .storeAlign | .loadS1 | .storeS1 | .loadBus
  | .storeBus | .atomicRegion | .postedBus | .class0Mem | .untimed | .unitAbsent | .bezel | .imgRange | .checkpoint
  | .irq _ => none

/-- An exception as it is raised: its cause, EVAL, INFO, RESP and VAHI (R76, R97). -/
structure Trap where
  cause : Cause
  eval : Nat
  info : Nat
  resp : Nat
  vahi : Nat
  deriving DecidableEq, Repr

/-- A trap whose EVAL is the instruction word. -/
def wordTrap (c : Cause) (w info : Nat) : Trap := ⟨c, w, info, 0, 0⟩

/-- A trap whose EVAL is a virtual address, with bits 38:32 in VAHI. -/
def vaTrap (c : Cause) (va info : Nat) : Trap := ⟨c, va % 2 ^ 32, info, 0, va / 2 ^ 32 % 128⟩

/-- EVAL of a physical or intermediate address: bits 39:8. -/
def addrEval (a : Nat) : Nat := a / 256 % 2 ^ 32

/-- A bus error: MEM_ECC for the uncorrectable-ECC response of a memory access, otherwise `c` with RESP (R102). -/
def busTrap (c : Cause) (r : Rsp) (pa : Nat) : Trap :=
  if r = .ecc then ⟨.memEcc, addrEval pa, 0, 5, 0⟩ else ⟨c, addrEval pa, 0, rspCode r, 0⟩

/-- The word of a cause register without VALID (R76). -/
def causeWord (t : Trap) (async : Bool) : Word :=
  BitVec.ofNat 32 (t.vahi % 128 * 2 ^ 24 + t.info % 256 * 2 ^ 16 + t.resp % 8 * 2 ^ 8 + b2n async * 64 + t.cause.code % 64)

/-! ### STATUS (R74) -/

/-- Mode codes. -/
def Mode.code : Mode → Nat
  | .t => 0
  | .k => 1
  | .s => 2
  | .l => 3

/-- The mode of a code. -/
def modeOf (n : Nat) : Mode := if n = 0 then .t else if n = 1 then .k else if n = 2 then .s else .l

/-- STATUS as a word, with BANK given. -/
def statusWord (inG : Bool) (st : Status) : Nat :=
  b2n st.xoff * 128 + b2n st.timed * 64 + b2n inG * 32 + st.mode.code * 8 + b2n st.exl * 4 + b2n st.bet * 2 + b2n st.ie

/-- A lane supports a mode (R62). -/
def supportsMode (l : Fin 52) (m : Mode) : Bool :=
  match m with
  | .t => !isMgmt l
  | .k => isCluster l
  | .s => true
  | .l => false

/-! ### Self-diagnosis of memory errors (R100, R339) -/

/-- Check 3: an uncorrectable error in a cluster's own memories, met by lane `l`; `inG` says that it aborted a class-0
activation. -/
def eccCheck (l : Fin 52) (inG : Bool) (pa : Nat) (s : State) : State :=
  match regionOf (s.canon pa) with
  | .laneMem g i _ =>
    if g < 5 then laneFault (clusterLane g i) 3 0x25 (inG || laneC0 s (clusterLane g i)) s else s
  | .sram g _ =>
    let mine := isCluster l && laneGroup l == g
    let c0 := inG || (List.range 8).any (fun i => laneC0 s (clusterLane g i))
    if c0 then relinquish g 3 (if mine then l.val % 8 else 0xF) 0x25 s else if mine then retireLane l s else s
  | _ => s

/-- What an exception reports to self-diagnosis: MEM_ECC and bus errors with RESP = TIMEOUT. -/
def diagnose (l : Fin 52) (inG : Bool) (t : Trap) (s : State) : State :=
  if t.cause = .memEcc then eccCheck l inG (t.eval * 256) s
  else if t.resp = 4 ∧ isCluster l then relinquish (laneGroup l) 1 (l.val % 8) t.cause.code s
  else s

/-! ### Taking an exception -/

/-- Lane reset of a management or analytic lane (R465): M0 and analytic lanes restart idle, M1 to M3 at the boot ROM
entry. -/
def laneResetNow (l : Fin 52) (s : State) : State :=
  s.modLane l (fun x => { lane0 (if l.val = 40 ∨ isAnalytic l then .idle else .running) with halted := x.halted })

/-- A double fault (R99): a cluster lane stops and reports; another lane is reset, with an event that carries the syndrome. -/
def doubleFault (l : Fin 52) (t : Trap) (s : State) : State :=
  if isCluster l then
    laneFault l 2 t.cause.code (laneC0 s l) (s.modLane l (fun x => { x with st := .stopped }))
  else (laneResetNow l s).log' PWR_STAT_INA false 2 0xFF s.syndrome

/-- Whether bank F takes a trap to K. -/
def takesK (l : Fin 52) (x : Lane) (t : Trap) : Bool :=
  isCluster l && (match t.cause with
    | .irq n => routesK x n
    | c => (match c.fixed with
      | some k => k
      | none => x.f.status.mode == .t))

/-- The steps of R98 on bank F, for the mode chosen. -/
def Lane.enter (toK : Bool) (t : Trap) (async : Bool) (x : Lane) : Lane :=
  let st := x.f.status
  let saved := BitVec.ofNat 32 (statusWord false st)
  let status := { st with mode := if toK then .k else .s, ie := false, exl := true, timed := false }
  let eval := BitVec.ofNat 32 t.eval
  if toK then
    { x with
      k := { x.k with kepc := x.f.pc, kestatus := saved, kcause := causeWord t async, keval := eval },
      f := { x.f with status := status, pc := x.k.kvec }, winBeats := 0, st := .running }
  else
    { x with
      sr := { x.sr with sepc := x.f.pc, sestatus := saved, scause := causeWord t async, seval := eval },
      f := { x.f with status := status, pc := x.sr.svec }, winBeats := 0, st := .running }

/-- Bank F takes an exception (R98, R99); a kernel on an analytic lane ends instead (R299). -/
def takeF (l : Fin 52) (t : Trap) (async : Bool) (s : State) : State :=
  let x := s.lane l
  if h : 44 ≤ l.val ∧ x.ticket.isSome then kernelFault ⟨l.val - 44, by omega⟩ 0 t.cause.code s
  else
    let toK := takesK l x t
    let s :=
      if ¬ toK ∧ x.f.status.mode = .s ∧ x.f.status.exl then doubleFault l t s
      else s.modLane l (Lane.enter toK t async)
    diagnose l false t s

/-- An exception raised in bank G aborts the activation (R100). -/
def abortG (l : Fin 52) (t : Trap) (s : State) : State :=
  let s := s.modLane l (fun x => { x with
    g0cause := causeWord t false ||| 0x80000000#32, g0epc := x.g.pc, g0eval := BitVec.ofNat 32 t.eval })
  diagnose l true t (abortRun l s)

/-- The lane takes a synchronous exception in the bank it runs. -/
def takeTrap (l : Fin 52) (t : Trap) (s : State) : State := if (s.lane l).inG then abortG l t s else takeF l t false s

/-- The lane takes its pending POSTED_BUS (R97, R102). -/
def takePosted (l : Fin 52) (s : State) : State :=
  match (s.lane l).posted with
  | [] => s
  | (pa, r) :: rest =>
    takeF l ⟨.postedBus, addrEval pa, 0, r, 0⟩ true (s.modLane l (fun x => { x with posted := rest }))

/-- EVAL and INFO of an interrupt (R97). -/
def irqTrap (s : State) (l : Fin 52) (n : Nat) : Trap :=
  let x := s.lane l
  if n = 1 then ⟨.irq 1, x.g0epc.toNat, 0, 0, 0⟩
  else if n = 3 then ⟨.irq 3, 0, (eventLine s).getD 0, 0, 0⟩
  else if n = 4 then ⟨.irq 4, 0, x.ipi.getD 0, 0, 0⟩
  else ⟨.irq n, 0, 0, 0, 0⟩

/-- What taking an interrupt clears: IPI its latch (R101), POWER the note of a retire (R339). -/
def ackIrq (l : Fin 52) (n : Nat) (s : State) : State :=
  if n = 4 then s.modLane l (fun x => { x with ipi := none })
  else if n = 5 then s.modPower (fun p => { p with retireNote := false })
  else s

/-! ### Boundaries -/

/-- A lane that can start an instruction: running, not halted, retired or gated; bank F with no access outstanding, bank G
inside an activation with beats left. -/
def Lane.canRun (x : Lane) : Bool :=
  x.st == .running && !x.halted && !x.retired && !x.gated &&
  (if x.inG then (match x.run with
    | some r => decide (r.beats < r.budget)
    | none => false) else x.out.isNone)

/-- Bank F of the lane is at an instruction boundary. -/
def Lane.atBoundary (x : Lane) : Bool := x.canRun && !x.inG

/-- INTERRUPT_TAKE (R101): a pending posted error goes first (R97). -/
def execInterruptTake (l : Fin 52) (s : State) : Result :=
  .next (
    if ¬ (s.lane l).atBoundary then s
    else if (s.lane l).posted ≠ [] then takePosted l s
    else
      match takeable s l with
      | some n => takeF l (irqTrap s l n) true (ackIrq l n s)
      | none => s)

/-- An older store of the buffer goes to the same region (R91). -/
def olderSame (s : State) (buf : List BufStore) (i : Nat) (b : BufStore) : Bool :=
  (buf.take i).any (fun c => orderRegion s c.pa == orderRegion s b.pa)

/-- The store buffer of a bank. -/
def Lane.buf (x : Lane) (bankG : Bool) : List BufStore := if bankG then x.g.sbuf else x.f.sbuf

/-- Entry `i` of a bank's store buffer, when no older entry goes to its region. -/
def nextOut (l : Fin 52) (bankG : Bool) (i : Nat) (s : State) : Option BufStore :=
  let buf := (s.lane l).buf bankG
  buf[i]?.bind (fun b => if olderSame s buf i b then none else some b)

/-- A lane that has a posted error takes it if it is at a boundary of bank F. -/
def posted (l : Fin 52) (s : State) : State := if (s.lane l).atBoundary then takePosted l s else s

/-- BUFFERED_STORE_COMPLETE: stores to one region complete in order, to different regions in any order (R91). -/
def execBufferedStoreComplete (l : Fin 52) (bankG : Bool) (i : Nat) (s : State) : Result :=
  .next (
    match nextOut l bankG i s with
    | none => s
    | some b =>
      let (r, s) := storeOut l bankG b (dropBuf l bankG i s)
      if r = .ok then s else posted l (notePosted l b.pa r s))

/-- POSTED_BUS_ERROR: the store's target answers an error; a timeout is the watchdog's answer (R19, R102). -/
def execPostedBusError (l : Fin 52) (bankG : Bool) (i : Nat) (rsp : Rsp) (s : State) : Result :=
  .next (
    match nextOut l bankG i s with
    | none => s
    | some b =>
      let (r, s') := storeOut l bankG b (dropBuf l bankG i s)
      if r ≠ .ok then posted l (notePosted l b.pa r s')
      else if rsp = .timeout then
        let s := (dropBuf l bankG i s).recordFault (laneReq l bankG b.vmid) b.pa .write .timeout 0xF 1
        posted l (notePosted l b.pa .timeout s)
      else s)

end Sys2Proof.Machine
end

