-- ==== Sys2Proof/Machine/Mmu.lean ====
section
/-! DEFINITION. Address translation (R81 to R89): the two-stage walk with its A and D updates and the dirty log, the
translation buffer, and the pinned translations of bank G. -/
namespace Sys2Proof.Machine

open Reg

/-- Kinds of access; an atomic needs read and write permission (R84). -/
inductive Access where
  | r | w | x | a
  deriving DecidableEq, Repr

/-- An access that writes. -/
def Access.writes (k : Access) : Bool := k == .w || k == .a

/-! ### Entries (R82, R83) -/

/-- A level of a stage: its number, its lowest index bit and the bits of its index (R81). -/
structure Level where
  n : Nat
  shift : Nat
  bits : Nat
  deriving DecidableEq, Repr

/-- The levels of a stage. -/
def levels (stage2 : Bool) : List Level := [⟨2, 30, if stage2 then 10 else 9⟩, ⟨1, 21, 9⟩, ⟨0, 12, 9⟩]

/-- The fault kind of an entry at a level, before permissions (R83). -/
def entryFault (e n : Nat) : Option Nat :=
  let tbl := bitOf e 1
  if ¬ bitOf e 0 then some 0
  else if bitsOf e 40 16 ≠ 0 ∨ bitsOf e 9 3 ≠ 0 then some 2
  else if (n = 2 ∧ ¬ tbl) ∨ (n = 0 ∧ tbl) then some 5
  else if n = 1 ∧ ¬ tbl ∧ bitsOf e 12 9 ≠ 0 then some 3
  else none

/-- A leaf permits an access; `tu` asks for bit 5 as well (R84). -/
def leafPermits (e : Nat) (acc : Access) (tu : Bool) : Bool :=
  (match acc with
   | .r => bitOf e 2
   | .w => bitOf e 3
   | .x => bitOf e 4
   | .a => bitOf e 2 && bitOf e 3) && (!tu || bitOf e 5)

/-- ADDR of an entry. -/
def entryAddr (e : Nat) : Nat := bitsOf e 12 28 * 4096

/-- An A or D update that a successful walk performs (R85): the entry's address, the bits, and for a stage-2 leaf the IPA
and its size. -/
structure Update where
  ea : Nat
  d : Bool
  stage2 : Bool
  addr : Nat
  big : Bool
  deriving DecidableEq, Repr

/-- What a stage yields: the output address and the leaf's fields. -/
structure Leaf where
  pa : Nat
  r : Bool
  w : Bool
  x : Bool
  tu : Bool
  dev : Bool
  dirty : Bool
  big : Bool
  deriving DecidableEq, Repr

/-- Why a walk ends: a translation fault with its INFO, its stage, its address and whether a table read met it; or an error
response to a table read. -/
inductive WalkErr where
  | fault (stage2 : Bool) (info addr : Nat) (table : Bool)
  | bus (r : Rsp) (pa : Nat)
  deriving DecidableEq, Repr

/-- The state of a walk: the machine and the updates so far. -/
structure Walk where
  s : State
  upd : List Update

/-- A stage's walk down its levels (R81, R83). `read` answers the address and the contents of an entry; without an access
nothing is checked or updated (R133). -/
def walkLevels (read : Nat → Walk → Except WalkErr (Nat × Nat) × Walk) (stage2 : Bool) (acc : Option Access) (tu : Bool)
    (a : Nat) : List Level → Nat → Walk → Except WalkErr Leaf × Walk
  | [], _, w => (.error (.fault stage2 0 a false), w)
  | lv :: rest, table, w =>
    match read (table + 8 * bitsOf a lv.shift lv.bits) w with
    | (.error e, w) => (.error e, w)
    | (.ok (ea, e), w) =>
      match entryFault e lv.n with
      | some k => (.error (.fault stage2 (k * 4 + lv.n) a false), w)
      | none =>
        if bitOf e 1 then walkLevels read stage2 acc tu a rest (entryAddr e) w
        else
          let big := lv.n == 1
          let leaf : Leaf :=
            { pa := entryAddr e + a % (if big then 2 ^ 21 else 2 ^ 12), r := bitOf e 2, w := bitOf e 3, x := bitOf e 4,
              tu := bitOf e 5, dev := bitOf e 8, dirty := bitOf e 7 || (acc.map (·.writes)).getD false, big := big }
          match acc with
          | none => (.ok leaf, w)
          | some k =>
            if ¬ leafPermits e k tu then (.error (.fault stage2 (4 + lv.n) a false), w)
            else if bitOf e 6 ∧ (bitOf e 7 ∨ ¬ k.writes) then (.ok leaf, w)
            else (.ok leaf, { w with upd := w.upd ++ [⟨ea, k.writes, stage2, a, big⟩] })

/-- Reads an entry at a physical address through the fabric. -/
def readEntry (rq : Req) (pa : Nat) (w : Walk) : Except WalkErr (Nat × Nat) × Walk :=
  let (r, e, s) := memReadAcc rq pa 8 .walk w.s
  (if r = .ok then .ok (pa, e) else .error (.bus r pa), { w with s := s })

/-- Stage 2 of an IPA from the root table (R81). -/
def walkStage2 (rq : Req) (root : Nat) (acc : Option Access) (ipa : Nat) (w : Walk) : Except WalkErr Leaf × Walk :=
  if 2 ^ 40 ≤ ipa then (.error (.fault true 18 ipa false), w)
  else walkLevels (readEntry rq) true acc false ipa (levels true) root w

/-- A stage-1 table read: under stage 2 it is itself a translated access, whose fault names the table's IPA (R85). -/
def readTable (rq : Req) (root2 : Option Nat) (ipa : Nat) (w : Walk) : Except WalkErr (Nat × Nat) × Walk :=
  match root2 with
  | none => readEntry rq ipa w
  | some r2 =>
    match walkStage2 rq r2 (some .r) ipa w with
    | (.ok leaf, w) => readEntry rq leaf.pa w
    | (.error (.fault _ info _ _), w) => (.error (.fault true info ipa true), w)
    | (.error e, w) => (.error e, w)

/-- Both stages together: the smaller page, the combined permissions (R84). -/
def bothLeaves (l1 l2 : Leaf) : Leaf :=
  { pa := l2.pa, r := l1.r && l2.r, w := l1.w && l2.w, x := l1.x && l2.x, tu := l1.tu, dev := l1.dev || l2.dev,
    dirty := l1.dirty && l2.dirty, big := l1.big && l2.big }

/-- The walk of a virtual address (R81 to R85); no stage 2 without a second root. -/
def walkBoth (rq : Req) (root1 : Nat) (root2 : Option Nat) (acc : Option Access) (tu : Bool) (va : Nat) (w : Walk) :
    Except WalkErr Leaf × Walk :=
  if 2 ^ 39 ≤ va then (.error (.fault false 18 va false), w)
  else
    match walkLevels (readTable rq root2) false acc tu va (levels false) root1 w with
    | (.error e, w) => (.error e, w)
    | (.ok l1, w) =>
      match root2 with
      | none => (.ok l1, w)
      | some r2 =>
        match walkStage2 rq r2 acc l1.pa w with
        | (.error e, w) => (.error e, w)
        | (.ok l2, w) => (.ok (bothLeaves l1 l2), w)

/-! ### A and D bits, dirty log (R85, R86) -/

/-- Appends the page of a written stage-2 leaf to the cluster's dirty log (R86). -/
def dirtyLog (l : Fin 52) (vmid ipa : Nat) (big : Bool) (s : State) : State :=
  if h : l.val / 8 < 5 then
    let d := s.dlogs[l.val / 8]
    let n := 2 ^ d.size
    let put := fun (d : DirtyLog) (s : State) => ({ s with dlogs := s.dlogs.set (l.val / 8) d } : State)
    if ¬ d.en then s
    else if (d.head + 1) % n = d.tail % n then put { d with ovf := true } s
    else
      let page := ipa / (if big then 2 ^ 21 else 2 ^ 12) * (if big then 2 ^ 21 else 2 ^ 12)
      let e := vmid % 256 * 2 ^ 56 + page % 2 ^ 40 + b2n big
      let a := d.base.toNat % 2 ^ 28 * 4096 + 8 * (d.head % n)
      (memWriteAcc (laneReq l false 0xFF) a (leBytes 8 e) .engineWrite (put { d with head := (d.head + 1) % n } s)).2
  else s

/-- One update of an entry, as an atomic read-modify-write. -/
def applyUpdate (l : Fin 52) (rq : Req) (u : Update) (r : Except WalkErr Unit × State) : Except WalkErr Unit × State :=
  match r with
  | (.error e, s) => (.error e, s)
  | (.ok (), s) =>
    let (g, e, s) := memReadAcc rq u.ea 8 .walk s
    if g ≠ .ok then (.error (.bus g u.ea), s)
    else
      let new := putBit (if u.d then putBit e 7 true else e) 6 true
      let (g, s) := if new = e then (.ok, s) else memWriteAcc rq u.ea (leBytes 8 new) .walk s
      if g ≠ .ok then (.error (.bus g u.ea), s)
      else (.ok (), if u.stage2 ∧ u.d ∧ ¬ bitOf e 7 ∧ bitOf e 5 then dirtyLog l rq.vmid u.addr u.big s else s)

/-- The updates of a walk, in the order met. -/
def applyUpdates (l : Fin 52) (rq : Req) (us : List Update) (s : State) : Except WalkErr Unit × State :=
  us.foldl (fun r u => applyUpdate l rq u r) (.ok (), s)

/-- The exception of a failed walk (R85, R97, R102). -/
def walkTrap (acc : Access) : WalkErr → Trap
  | .fault false info va _ =>
    vaTrap (match acc with
      | .x => .fetchS1
      | .r => .loadS1
      | .w | .a => .storeS1) va info
  | .fault true info ipa table =>
    let c : Cause := match acc with
      | .x => .fetchS2
      | .r => .loadS2
      | .w | .a => if table then .loadS2 else .storeS2
    ⟨c, addrEval ipa, info, 0, 0⟩
  | .bus r pa => busTrap (if acc = .x then .fetchBus else .loadBus) r pa

/-! ### Translation buffer (R87) -/

/-- An entry covers a page under its tags. -/
def TlbEntry.covers (e : TlbEntry) (vmid asid : Nat) (one : Bool) (va : Nat) : Bool :=
  e.vmid == vmid && e.asid == asid && e.one == one &&
    (if e.big then e.page / 512 == va / 2 ^ 21 else e.page == va / 2 ^ 12)

/-- A buffered entry serves an access without a walk: it permits it, and a write needs D set at each leaf. -/
def TlbEntry.serves (e : TlbEntry) (acc : Access) (tu : Bool) : Bool :=
  (match acc with
   | .r => e.r
   | .w => e.w
   | .x => e.x
   | .a => e.r && e.w) && (!tu || e.tu) && (!acc.writes || e.dirty)

/-- The physical address of a page's byte. -/
def pageAddr (ppage : Nat) (big : Bool) (va : Nat) : Nat := ppage * 4096 + va % (if big then 2 ^ 21 else 2 ^ 12)

/-- Keeps a translation: 64 entries, a freely chosen one gives way (R87). -/
def tlbInsert (l : Fin 52) (e : TlbEntry) (s : State) : State :=
  if ¬ isCluster l then s
  else
    let old := (s.lane l).tlb.filter (fun o => !(o.vmid == e.vmid && o.asid == e.asid && o.one == e.one && o.page == e.page &&
      o.big == e.big))
    if old.length < 64 then s.modLane l (fun x => { x with tlb := old ++ [e] })
    else
      let (n, s) := s.draw Site.tlbVictim 6
      s.modLane l (fun x => { x with tlb := old.eraseIdx n ++ [e] })

/-! ### Translation of an access -/

/-- A translated access: its physical address and whether its page is of device type. -/
structure Phys where
  pa : Nat
  dev : Bool
  deriving DecidableEq, Repr

/-- The root of a stage-1 table. -/
def root1Of (w : Word) : Nat := w.toNat % 2 ^ 28 * 4096

/-- The root of a stage-2 table, aligned to 8 KiB (R72). -/
def root2Of (w : Nat) : Nat := w % 2 ^ 28 / 2 * 8192

/-- A physical address lies in the lane's own lane-local memory. -/
def ownMem (s : State) (l : Fin 52) (pa : Nat) : Bool :=
  match regionOf (s.canon pa) with
  | .laneMem g i _ => laneIdOf l == 16 * g + i
  | _ => false

/-- A physical address lies in the SRAM of the lane's own cluster. -/
def ownSram (s : State) (l : Fin 52) (pa : Nat) : Bool :=
  match regionOf (s.canon pa) with
  | .sram g _ => isCluster l && g == laneGroup l
  | _ => false

/-- A physical address lies in the lane's own 32 KiB instruction memory. -/
def ownCode (s : State) (l : Fin 52) (pa : Nat) : Bool :=
  match regionOf (s.canon pa) with
  | .laneMem g i o => laneIdOf l == 16 * g + i && decide (o < 0x8000)
  | _ => false

/-- Bank G's translation: its pins alone (R88). -/
def pinned (l : Fin 52) (va : Nat) (acc : Access) (s : State) : Except Trap Phys :=
  let hit := fun (p : Pin) => if p.big then p.page / 512 == va / 2 ^ 21 else p.page == va / 2 ^ 12
  match (s.lane l).pins.toList.findSome? (fun p => p.bind (fun p => if hit p then some p else none)) with
  | none => .error (vaTrap .class0Mem va 0)
  | some p =>
    let pa := pageAddr p.ppage p.big va
    let ok : Bool := match acc with
      | .r => p.r
      | .w => p.w
      | .x => p.x
      | .a => p.r && p.w
    if ¬ ownMem s l pa ∧ ¬ ownSram s l pa then .error (vaTrap .class0Mem va 1)
    else if ¬ ok then .error (vaTrap .class0Mem va 2)
    else .ok ⟨pa, p.dev⟩

/-- Bank F's translation (R81 to R85, R87, R89). Stage 2 is bypassed in mode S, and for kernels of VMID 0xFF (R299). -/
def translateF (l : Fin 52) (va : Nat) (acc : Access) (s : State) : Except Trap Phys × State :=
  let x := s.lane l
  let st := x.f.status
  let one := st.mode == .s
  if one ∧ st.xoff then (.ok ⟨va, isDev va⟩, s)
  else
    let vmid := x.f.vmid.toNat
    let asid := x.k.asid.toNat % 256
    let tu := st.mode == .t
    match x.tlb.find? (fun e => e.covers vmid asid one va && e.serves acc tu) with
    | some e => (.ok ⟨pageAddr e.ppage e.big va, e.dev⟩, s)
    | none =>
      let rq := laneReq l false vmid
      let root2 := if one || (isAnalytic l && vmid == 0xFF) then none else some (root2Of x.k.st2root.toNat)
      match walkBoth rq (root1Of x.k.st1root) root2 (some acc) tu va ⟨s, []⟩ with
      | (.error e, w) => (.error (walkTrap acc e), w.s)
      | (.ok leaf, w) =>
        match applyUpdates l rq w.upd w.s with
        | (.error e, s) => (.error (walkTrap acc e), s)
        | (.ok (), s) =>
          let unit := if leaf.big then 512 else 1
          let e : TlbEntry :=
            { vmid := vmid, asid := asid, page := va / 4096 / unit * unit, big := leaf.big,
              ppage := leaf.pa / 4096 / unit * unit, r := leaf.r, w := leaf.w, x := leaf.x, tu := leaf.tu, dev := leaf.dev,
              dirty := leaf.dirty, one := one }
          (.ok ⟨leaf.pa, leaf.dev⟩, tlbInsert l e s)

/-- The translation of an access of the lane's current bank. -/
def translate (l : Fin 52) (va : Nat) (acc : Access) (s : State) : Except Trap Phys × State :=
  if (s.lane l).inG then (pinned l va acc s, s) else translateF l va acc s

/-! ### tlb.inv, tlb.pin, tlb.unpin (R132, R133) -/

/-- What a tlb.inv removes: an entry of the scope (R132). `own` is the VMID that K is confined to. -/
def invHits (own : Option Nat) (scope page asid vm : Nat) (e : TlbEntry) : Bool :=
  let vmOk := match own with
    | some v => e.vmid == v
    | none => scope == 3 || e.vmid == vm
  vmOk && (if scope = 0 then e.asid == asid && (if e.big then e.page / 512 == page / 512 else e.page == page)
    else scope != 1 || e.asid == asid)

/-- Removes the entries of a lane that a test selects. -/
def tlbDrop (p : TlbEntry → Bool) (l : Fin 52) (s : State) : State :=
  s.modLane l (fun x => { x with tlb := x.tlb.filter (fun e => !p e) })

/-- The lanes that a tlb.inv reaches: the addressed lane, every lane of a cluster that is ON and the issuing lane, or the
issuing lane. -/
def invLanes (s : State) (l : Fin 52) (imm : Nat) : List (Fin 52) :=
  if bitOf imm 3 then
    let g := bitsOf imm 7 3
    if s.domOn g then [clusterLane g (bitsOf imm 4 3)] else []
  else if bitOf imm 2 then l :: (List.finRange 52).filter (fun i => isCluster i && s.domOn (laneGroup i))
  else [l]

/-- Writes a lane's pin slot and, where its cluster holds a role, the pin's image (R342). -/
def setPin (l : Fin 52) (slot : Fin 16) (p : Option Pin) (s : State) : State :=
  let s := s.modLane l (fun x => { x with pins := x.pins.set slot p })
  match (if isCluster l then s.roleOf (laneGroup l) else none) with
  | some c => s.wr (ckpt c (0x502000 + 256 * (l.val % 8) + 16 * slot.val)) (pinBytes p)
  | none => s

/-- tlb.pin: the walk without an access, the slot, and the status (R133). An error response to a table read traps as a
load's (R102). -/
def pinOp (l : Fin 52) (page vmid : Nat) (slot : Fin 16) (s : State) : Except Trap Nat × State :=
  let x := s.lane l
  let e := (s.vpi vmid).ent
  if 63 < vmid ∨ ¬ e.v then (.ok 0xFFFFFFFF, s)
  else
    let va := page * 4096
    match walkBoth (laneReq l false x.f.vmid.toNat) (root1Of x.k.st1root) (some (root2Of e.st2)) none false va ⟨s, []⟩ with
    | (.ok leaf, w) =>
      let unit := if leaf.big then 512 else 1
      let p : Pin :=
        { vmid := vmid, page := page / unit * unit, big := leaf.big, ppage := leaf.pa / 4096 / unit * unit,
          r := leaf.r && leaf.tu, w := leaf.w && leaf.tu, x := leaf.x && leaf.tu, dev := leaf.dev }
      (.ok 0, setPin l slot (some p) w.s)
    | (.error (.fault st2 info _ _), w) => (.ok (2 ^ 31 + b2n st2 * 2 ^ 30 + info), setPin l slot none w.s)
    | (.error e, w) => (.error (walkTrap .r e), w.s)

end Sys2Proof.Machine
end

