-- ==== Sys2Proof/Machine/Operands.lean ====
section
/-! DEFINITION. Operand forms (R68, R103, R104, R110, R117, R124, R126): immediates, effective addresses, vector and complex
elements, image addresses. -/
namespace Sys2Proof.Machine

/-- A value as a register word. -/
def w32 (n : Nat) : Word := BitVec.ofNat 32 n

/-- An integer as a register word, modulo 2³². -/
def w32i (i : Int) : Word := BitVec.ofInt 32 i

/-- A signed result saturated to 32 bits. -/
def satWord (i : Int) : Word := w32i (satI32 i)

/-- imm16, sign-extended (R110). -/
def sext16 (imm : BitVec 16) : Word := imm.signExtend 32

/-- imm16, zero-extended (R110). -/
def zext16 (imm : BitVec 16) : Word := imm.zeroExtend 32

/-- The target of a signed word offset of `w` bits (R110). -/
def branchTarget (pc : Word) {w : Nat} (off : BitVec w) : Word := pc + off.signExtend 32 * 4

/-- Bits 38:32 of a virtual address (R117). -/
def vaHigh (b : Bank) (h : Bool) (rs1 : Fin 32) : Nat := if h then (b.reg (rs1 + 1)).toNat % 128 else 0

/-- The virtual address of a load or store: no carry passes into bit 32 (R117). -/
def vaOf (b : Bank) (rs1 : Fin 32) (imm : BitVec 16) : Nat :=
  (b.reg rs1 + (imm.extractLsb' 0 15).signExtend 32).toNat + 2 ^ 32 * vaHigh b (imm.getLsbD 15) rs1

/-- The virtual address of an atomic (R120). -/
def atomicVa (b : Bank) (rs1 : Fin 32) (h : Bool) : Nat := (b.reg rs1).toNat + 2 ^ 32 * vaHigh b h rs1

/-! ### Vectors (R68) -/

/-- A vector register; only v0 to v15 exist (R110). -/
def Bank.vec (b : Bank) (r : Fin 32) : QWord := if h : r.val < 16 then b.v[r.val] else 0

/-- Writes a vector register. -/
def Bank.setVec (r : Fin 32) (q : QWord) (b : Bank) : Bank := if h : r.val < 16 then { b with v := b.v.set r.val q } else b

/-- Element `e` of four. -/
def elem (q : QWord) (e : Nat) : Word := q.extractLsb' (32 * e) 32

/-- A vector of four elements, element 0 lowest. -/
def vec4 (f : Nat → Word) : QWord := f 3 ++ f 2 ++ f 1 ++ f 0

/-- A vector with element `e` replaced. -/
def setElem (q : QWord) (e : Nat) (w : Word) : QWord := vec4 (fun i => if i = e then w else elem q i)

/-- A vector with complex element `e` replaced: real part low. -/
def setComplex (q : QWord) (e : Nat) (re im : Word) : QWord :=
  vec4 (fun i => if i = 2 * e then re else if i = 2 * e + 1 then im else elem q i)

/-- Real and imaginary part of complex element `e` as cq31 integers. -/
def cq31 (q : QWord) (e : Nat) : Int × Int := ((elem q (2 * e)).toInt, (elem q (2 * e + 1)).toInt)

/-! ### Image addresses (R104) -/

/-- Largest SIZE of each image descriptor (R103). -/
def imgLimit (area : Nat) : Nat := if area = 1 then 8192 else 16384

/-- The descriptor of an image area. -/
def Bank.imgDesc (b : Bank) (area : Nat) : Nat :=
  (if area = 0 then b.imgI else if area = 1 then b.imgQ else b.imgM).toNat

/-- BASE of a descriptor. -/
def descBase (d : Nat) : Nat := d % 65536

/-- SIZE of a descriptor. -/
def descSize (d : Nat) : Nat := bitsOf d 16 15

/-- The image address of img instructions (R124). -/
def imgAddr (b : Bank) (rs1 rs2 : Fin 32) (imm : BitVec 8) : Nat :=
  ((b.reg rs1).toNat + (b.reg rs2).toNat + imm.toNat * 8) % 2 ^ 19

/-- The image address of tmr and edg instructions (R126, R127). -/
def blockAddr (b : Bank) (rs1 : Fin 32) (imm : BitVec 8) : Nat := ((b.reg rs1).toNat + imm.toNat * 8) % 2 ^ 19

/-- Area, byte offset and bit of an image address. -/
def imgArea (a : Nat) : Nat := a / 2 ^ 17
def imgByte (a : Nat) : Nat := a / 8 % 2 ^ 14
def imgBit (a : Nat) : Nat := a % 8

end Sys2Proof.Machine
end

