-- ==== Sys2Proof/Machine/Issue.lean ====
section
/-! DEFINITION. How a lane issues an instruction: the boundary, the fetch, the checks in the order of R97, the beats of
timed windows (R112 to R114), the effect and the next PC; and the memory accesses that instructions share (R90 to R92,
R102, R118). -/
namespace Sys2Proof.Machine

open Reg

/-! ### The running bank -/

/-- The mode the lane runs in; bank G runs in T (R71). -/
def Lane.mode (x : Lane) : Mode := if x.inG then .t else x.f.status.mode

/-- The lane is inside a timed window (R112). -/
def Lane.timed (x : Lane) : Bool := x.inG || x.f.status.timed

/-- The requester of the lane's bank F or G. -/
def Lane.req (l : Fin 52) (inG : Bool) (x : Lane) : Req := laneReq l inG (if inG then x.g else x.f).vmid.toNat

/-- Changes bank F or bank G. -/
def Lane.modOf (inG : Bool) (f : Bank → Bank) (x : Lane) : Lane :=
  if inG then { x with g := f x.g } else { x with f := f x.f }

/-- Changes the bank the lane runs. -/
def State.modBank (l : Fin 52) (f : Bank → Bank) (s : State) : State := s.modLane l (Lane.modBank f)

/-- Sets the PC of the bank the lane runs. -/
def State.setPc (l : Fin 52) (t : Word) (s : State) : State := s.modBank l (fun b => { b with pc := t })

/-! ### Fetch (R88, R102, R113) -/

/-- The fetch at PC: an exception, or the UNTIMED that a timed fetch from outside the instruction memory raises later. -/
def fetch (l : Fin 52) (s : State) : Except Trap (Option Trap) × State :=
  let x := s.lane l
  let pc := x.bank.pc.toNat
  if pc % 4 ≠ 0 then (.error ⟨.fetchAlign, pc, 0, 0, 0⟩, s)
  else
    match translate l pc .x s with
    | (.error t, s) => (.error t, s)
    | (.ok p, s) =>
      let (r, _, s) := busRead (x.req l x.inG) p.pa 4 .fetch s
      if r ≠ .ok then (.error (busTrap .fetchBus r p.pa), s)
      else (.ok (if x.timed && !ownCode s l p.pa then some ⟨.untimed, addrEval p.pa, 1, 0, 0⟩ else none), s)

/-! ### Issue -/

/-- How an instruction's effect ends. -/
inductive Ans where
  /-- Completed; PC advances by 4. -/
  | next (s : State)
  /-- Completed; PC becomes `t`. -/
  | goto (t : Word) (s : State)
  /-- Raises an exception. -/
  | trap (t : Trap) (s : State)
  /-- Not completed yet, or all of PC's change is done. -/
  | done (s : State)

/-- What an instruction does once its checks up to priority 14 have passed: its beats, an UNTIMED of priority 15, its
effect. -/
structure Plan where
  cost : Nat
  late : Option Trap
  body : State → Ans

/-- The modes an instruction runs in (R130, R131, R134). -/
inductive Modes where
  | all | ks | s
  deriving DecidableEq, Repr

/-- A mode may execute the instruction. -/
def Modes.allow (m : Modes) (x : Mode) : Bool :=
  match m with
  | .all => true
  | .ks => x != .t
  | .s => x == .s

/-- What issue needs to know of an instruction: its modes, whether it is untimed (R114), the unit it needs that is absent
(R107), and whether it would enter a mode that the lane does not support (R63). -/
structure Kind where
  modes : Modes
  untimed : Bool
  absent : Option Nat
  badMode : Bool := false

/-- A timed instruction of every mode. -/
def plain : Kind := { modes := .all, untimed := false, absent := none }

/-- The checks of priorities 5 to 9: ILLEGAL, UNIT_ABSENT, PRIV, UNTIMED (R97, R108, R63). -/
def earlyTrap (l : Fin 52) (w : Nat) (legal : Bool) (k : Kind) (x : Lane) : Option Trap :=
  if ¬ legal ∨ (clusterOnly (w / 2 ^ 26) ∧ ¬ isCluster l) ∨ k.badMode then some (wordTrap .illegal w (w / 2 ^ 26))
  else match k.absent with
    | some u => some (wordTrap .unitAbsent w u)
    | none =>
      if ¬ k.modes.allow x.mode then some (wordTrap .priv w 0)
      else if k.untimed ∧ x.timed then some (wordTrap .untimed w 0)
      else none

/-- Beats of a timed window are counted (R72, R128, R154). -/
def spend (l : Fin 52) (n : Nat) (s : State) : State :=
  s.modLane l (fun x =>
    if x.inG then { x with beatcnt := x.beatcnt + w32 n, run := x.run.map (fun r => { r with beats := r.beats + n }) }
    else if x.f.status.timed then { x with beatcnt := x.beatcnt + w32 n, winBeats := x.winBeats + n }
    else x)

/-- The activation in bank G has beats left for an instruction of cost `n` (R154). -/
def affords (x : Lane) (n : Nat) : Bool :=
  match (if x.inG then x.run else none) with
  | some r => decide (r.beats + n ≤ r.budget)
  | none => true

/-- The end of an instruction. A jump to a misaligned target completes and then raises FETCH_ALIGN there (R119). -/
def finish (l : Fin 52) : Ans → State
  | .next s => s.setPc l ((s.lane l).bank.pc + 4)
  | .goto t s =>
    let s := s.setPc l t
    if t.toNat % 4 ≠ 0 then takeTrap l ⟨.fetchAlign, t.toNat, 0, 0, 0⟩ s else s
  | .trap t s => takeTrap l t s
  | .done s => s

/-- A lane issues an instruction. A lane that cannot start one is left as it is; a pending posted error is taken first
(R97). An instruction that bank G's budget does not hold has no effect: CLASS0_OVERRUN follows. -/
def issueWord (l : Fin 52) (w : Nat) (legal : Bool) (k : Kind) (plan : State → Except Trap Plan × State) (s : State) :
    State :=
  let x := s.lane l
  if ¬ x.canRun then s
  else if x.atBoundary ∧ x.posted ≠ [] then takePosted l s
  else
    match fetch l s with
    | (.error t, s) => takeTrap l t s
    | (.ok late, s1) =>
      match earlyTrap l w legal k x with
      | some t => takeTrap l t s1
      | none =>
        match plan s1 with
        | (.error t, s) => takeTrap l t s
        | (.ok p, s2) =>
          match late.orElse (fun _ => p.late) with
          | some t => takeTrap l t s2
          | none => if affords x p.cost then finish l (p.body (spend l p.cost s2)) else s

/-- A lane issues the instruction `i`. -/
def issue (l : Fin 52) (i : Instr) (k : Kind) (plan : State → Except Trap Plan × State) (s : State) : State :=
  issueWord l (instrWord i) (fieldsOk i) k plan s

/-- A plan whose effect is a change of the running bank alone. -/
def regPlan (cost : Nat) (f : Bank → Bank) (s : State) (l : Fin 52) : Except Trap Plan × State :=
  (.ok ⟨cost, none, fun s => .next (s.modBank l f)⟩, s)

/-- An instruction that changes registers of its bank alone. -/
def regOp (l : Fin 52) (i : Instr) (cost : Nat) (f : Bank → Bank) (s : State) : Result :=
  .next (issue l i plain (fun s => regPlan cost f s l) s)

/-! ### Memory accesses -/

/-- Buffered stores to the region of `pa` reach it first (R91). -/
def drainRegion (l : Fin 52) (inG : Bool) (pa : Nat) (s : State) : State :=
  let r := orderRegion s pa
  let mine := ((s.lane l).buf inG).filter (fun b => orderRegion s b.pa == r)
  let keep := ((s.lane l).buf inG).filter (fun b => orderRegion s b.pa != r)
  let s := s.modLane l (Lane.modOf inG (fun b => { b with sbuf := keep }))
  s.each mine (fun b s =>
    let (r, s) := storeOut l inG b s
    if r = .ok then s else notePosted l b.pa r s)

/-- An untrapped device error (R102). -/
def noteResp (l : Fin 52) (inG : Bool) (r : Rsp) (s : State) : State :=
  s.modLane l (Lane.modOf inG (fun b => { b with lastResp := BitVec.ofNat 3 (rspCode r) }))

/-- Device errors of the bank trap (R102). -/
def devTraps (x : Lane) (inG : Bool) : Bool := inG || x.f.status.bet

/-- One access of a load (R102): all ones where a device error does not trap. -/
def loadPiece (l : Fin 52) (inG : Bool) (p : Phys) (n : Nat) (s : State) : Except Trap Nat × State :=
  let x := s.lane l
  let (r, v, s) :=
    if isDev p.pa then devRead (x.req l inG) p.pa n .read s else laneRead l inG p.pa n .read s
  if r = .ok then (.ok v, s)
  else if p.dev then
    (if devTraps x inG then (.error ⟨.loadBus, addrEval p.pa, 0, rspCode r, 0⟩, s)
     else (.ok 0xFFFFFFFF, noteResp l inG r s))
  else (.error (busTrap .loadBus r p.pa), s)

/-- Bytes of one access of a transfer of `size` bytes (R118). -/
def pieceSize (p : Phys) (size : Nat) : Nat := min size (if p.dev then 4 else 8)

/-- The accesses of a load, in ascending address order: `k` of them from offset `o`. -/
def loadPieces (l : Fin 52) (inG : Bool) (p : Phys) (n : Nat) : Nat → Nat → State → Except Trap Nat × State
  | 0, _, s => (.ok 0, s)
  | k + 1, o, s =>
    match loadPiece l inG ⟨p.pa + o, p.dev⟩ n s with
    | (.error t, s) => (.error t, s)
    | (.ok v, s) =>
      match loadPieces l inG p n k (o + n) s with
      | (.error t, s) => (.error t, s)
      | (.ok u, s) => (.ok (v + u * 2 ^ (8 * n)), s)

/-- A load of `size` bytes, lowest first. -/
def loadBytes (l : Fin 52) (inG : Bool) (p : Phys) (size : Nat) (s : State) : Except Trap Nat × State :=
  let n := pieceSize p size
  loadPieces l inG p n (size / n) 0 s

/-- A store enters the store buffer; when all 8 entries are taken the oldest completes first (R91). -/
def bufferStore (l : Fin 52) (b : BufStore) (s : State) : State :=
  let s : State :=
    match (s.lane l).f.sbuf with
    | o :: rest =>
      if rest.length < 7 then s
      else
        let (r, s) := storeOut l false o (dropBuf l false 0 s)
        if r = Rsp.ok then s else notePosted l o.pa r s
    | [] => s
  s.modLane l (fun x => { x with f := { x.f with sbuf := x.f.sbuf ++ [b] } })

/-- One access of a store (R92, R102): through the buffer for normal memory outside timed windows. -/
def storePiece (l : Fin 52) (p : Phys) (n v : Nat) (s : State) : Except Trap Unit × State :=
  let x := s.lane l
  let rq := x.req l x.inG
  if ¬ p.dev ∧ ¬ x.timed ∧ ¬ isDev p.pa then
    (.ok (), bufferStore l ⟨p.pa, leBytes n v, x.f.vmid.toNat⟩ s)
  else
    let (r, s) :=
      if isDev p.pa then devWrite rq p.pa n (v % 2 ^ (8 * n)) .write s
      else memWriteAcc rq p.pa (leBytes n v) .write (drainRegion l x.inG p.pa s)
    if r = .ok then (.ok (), s)
    else if p.dev then
      (if devTraps x x.inG then (.error ⟨.storeBus, addrEval p.pa, 0, rspCode r, 0⟩, s) else (.ok (), noteResp l x.inG r s))
    else if x.timed then (.error (busTrap .storeBus r p.pa), s)
    else (.ok (), notePosted l p.pa r s)

/-- The accesses of a store, in ascending address order. -/
def storePieces (l : Fin 52) (p : Phys) (n : Nat) : Nat → Nat → Nat → State → Except Trap Unit × State
  | 0, _, _, s => (.ok (), s)
  | k + 1, o, v, s =>
    match storePiece l ⟨p.pa + o, p.dev⟩ n v s with
    | (.error t, s) => (.error t, s)
    | (.ok (), s) => storePieces l p n k (o + n) (v / 2 ^ (8 * n)) s

/-- A store of `size` bytes, lowest first. -/
def storeBytes (l : Fin 52) (p : Phys) (size v : Nat) (s : State) : Except Trap Unit × State :=
  let n := pieceSize p size
  storePieces l p n (size / n) 0 v s

/-- UNTIMED for a target that is not a timed one (R113, R114). -/
def targetTrap (s : State) (l : Fin 52) (p : Phys) : Option Trap :=
  let x := s.lane l
  if x.timed ∧ (p.dev ∨ ¬ (ownMem s l p.pa ∨ (x.inG ∧ ownSram s l p.pa))) then some ⟨.untimed, addrEval p.pa, 1, 0, 0⟩
  else none

/-- Beats of an access: lane-local or, from bank G, cluster SRAM (R118). -/
def targetCost (s : State) (l : Fin 52) (p : Phys) (own sram : Nat) : Nat :=
  if (s.lane l).inG ∧ ownSram s l p.pa then sram else own

/-- The plan of a load or store of `size` bytes at a virtual address: alignment, translation, target, then `body`. -/
def memPlan (l : Fin 52) (acc : Access) (va size own sram : Nat) (body : Phys → State → Ans) (s : State) :
    Except Trap Plan × State :=
  if va % size ≠ 0 then (.error (vaTrap (if acc = .r then .loadAlign else .storeAlign) va 0), s)
  else
    match translate l va acc s with
    | (.error t, s) => (.error t, s)
    | (.ok p, s) => (.ok ⟨targetCost s l p own sram, targetTrap s l p, body p⟩, s)

/-- A load's end: an exception, or its value given to the bank. -/
def loadEnd (l : Fin 52) (f : Nat → Bank → Bank) (r : Except Trap Nat × State) : Ans :=
  match r with
  | (.error t, s) => .trap t s
  | (.ok v, s) => .next (s.modBank l (f v))

/-- A store's end. -/
def storeEnd (r : Except Trap Unit × State) : Ans :=
  match r with
  | (.error t, s) => .trap t s
  | (.ok (), s) => .next s

/-! ### Data memory of the lane -/

/-- The physical address of byte `o` of the lane's own data memory, in the window that now leads to its cluster. -/
def ownData (s : State) (l : Fin 52) (o : Nat) : Nat :=
  let g := laneGroup l
  dataAddr (((List.range 5).find? (fun w => s.groupOf w == g)).getD g) (l.val % 8) (o % 65536)

/-- Reads the lane's own data memory for an instruction: MEM_ECC is the one error it can meet. -/
def readData (l : Fin 52) (o n : Nat) (s : State) : Except Trap Nat × State :=
  let x := s.lane l
  let pa := ownData s l o
  let (r, v, s) := laneRead l x.inG pa n .read s
  if r = .ok then (.ok v, s) else (.error (busTrap .loadBus r pa), s)

/-- Writes the lane's own data memory for an instruction. -/
def writeData (l : Fin 52) (o n v : Nat) (s : State) : Except Trap Unit × State :=
  let x := s.lane l
  let pa := ownData s l o
  let (r, s) := memWriteAcc (x.req l x.inG) pa (leBytes n v) .write (drainRegion l x.inG pa s)
  if r = .ok then (.ok (), s) else (.error (busTrap .storeBus r pa), s)

end Sys2Proof.Machine
end

