-- ==== Sys2Proof/Machine/Alu.lean ====
section
/-! DEFINITION. Integer instructions (R115, R116) and branches and jumps (R119). -/
namespace Sys2Proof.Machine

/-! ### Values -/

/-- A truth value as a register word. -/
def boolWord (b : Bool) : Word := if b then 1 else 0

/-- Leading zeros of a word, 0 to 32. -/
def leadingZeros (w : Word) : Nat := if w = 0 then 32 else 31 - Nat.log2 w.toNat

/-- ALU operations (R115). -/
def aluValue (op : AluOp) (a b : Word) : Word :=
  match op with
  | .add => a + b
  | .sub => a - b
  | .and => a &&& b
  | .or => a ||| b
  | .xor => a ^^^ b
  | .shl => a <<< (b.toNat % 32)
  | .shr => a >>> (b.toNat % 32)
  | .sar => a.sshiftRight (b.toNat % 32)
  | .cmpLt => boolWord (a.slt b)
  | .cmpLtu => boolWord (a.ult b)
  | .min => if a.slt b then a else b
  | .max => if a.slt b then b else a
  | .minu => if a.ult b then a else b
  | .maxu => if a.ult b then b else a
  | .clz => w32 (leadingZeros a)
  | .addsat => satWord (a.toInt + b.toInt)
  | .subsat => satWord (a.toInt - b.toInt)

/-- Products as far as one register goes; mul.d writes a pair (R115). -/
def mulValue (op : MulOp) (a b : Word) : Word :=
  match op with
  | .mul | .mulD => a * b
  | .hss => w32i (a.toInt * b.toInt / 2 ^ 32)
  | .huu => w32 (a.toNat * b.toNat / 2 ^ 32)
  | .hsu => w32i (a.toInt * (b.toNat : Int) / 2 ^ 32)
  | .mulq => satWord ((a.toInt * b.toInt + 2 ^ 30) / 2 ^ 31)

/-- The 64-bit signed product of mul.d. -/
def mulWide (a b : Word) : Nat := wrapTo 64 (a.toInt * b.toInt)

/-- Quotient or remainder, and whether the operation sets IDV: division by zero and −2³¹ ÷ −1 saturate (R115). -/
def divValue (op : DivOp) (a b : Word) : Word × Bool :=
  match op with
  | .div =>
    if b = 0 then (if a.toInt < 0 then 0x80000000 else 0x7FFFFFFF, true)
    else if a = 0x80000000 ∧ b = 0xFFFFFFFF then (0x7FFFFFFF, true)
    else (w32i (a.toInt.tdiv b.toInt), false)
  | .divu => if b = 0 then (0xFFFFFFFF, true) else (w32 (a.toNat / b.toNat), false)
  | .rem =>
    if b = 0 then (0, true)
    else if a = 0x80000000 ∧ b = 0xFFFFFFFF then (0, true)
    else (w32i (a.toInt.tmod b.toInt), false)
  | .remu => if b = 0 then (0, true) else (w32 (a.toNat % b.toNat), false)

/-- Immediate operations; or.i, and.i and xor.i take imm16 zero-extended (R110, R116). -/
def immValue (op : ImmOp) (a : Word) (imm : BitVec 16) : Word :=
  match op with
  | .addi => a + sext16 imm
  | .andi => a &&& zext16 imm
  | .ori => a ||| zext16 imm
  | .xori => a ^^^ zext16 imm
  | .cmpLti => boolWord (a.slt (sext16 imm))
  | .cmpLtui => boolWord (a.ult (sext16 imm))

/-- Shifts by an immediate (R116). -/
def shiftValue (op : ShiftOp) (a : Word) (n : Nat) : Word :=
  match op with
  | .shl => a <<< n
  | .shr => a >>> n
  | .sar => a.sshiftRight n
  | .ror => a.rotateRight n

/-- The relation of a branch (R119). -/
def branchTaken (op : BrOp) (a b : Word) : Bool :=
  match op with
  | .eq => a == b
  | .ne => a != b
  | .lt => a.slt b
  | .ge => !a.slt b
  | .ltu => a.ult b
  | .geu => !a.ult b

/-! ### Meanings -/

/-- ALU_OP. -/
def execAluOp (l : Fin 52) (op : AluOp) (rd rs1 rs2 : Fin 32) (s : State) : Result :=
  regOp l (.aluOp l op rd rs1 rs2) 1 (fun b => b.setReg rd (aluValue op (b.reg rs1) (b.reg rs2))) s

/-- MUL_OP: mul.d writes the pair at rd. -/
def execMulOp (l : Fin 52) (op : MulOp) (rd rs1 rs2 : Fin 32) (s : State) : Result :=
  regOp l (.mulOp l op rd rs1 rs2) (if op = .mulD then 3 else 2)
    (fun b => if op = .mulD then b.setPair rd (mulWide (b.reg rs1) (b.reg rs2))
      else b.setReg rd (mulValue op (b.reg rs1) (b.reg rs2))) s

/-- DIV_OP. -/
def execDivOp (l : Fin 52) (op : DivOp) (rd rs1 rs2 : Fin 32) (s : State) : Result :=
  regOp l (.divOp l op rd rs1 rs2) 18
    (fun b =>
      let r := divValue op (b.reg rs1) (b.reg rs2)
      (b.setReg rd r.1).raise (if r.2 then flIDV else 0)) s

/-- IMMEDIATE_OP. -/
def execImmediateOp (l : Fin 52) (op : ImmOp) (rd rs1 : Fin 32) (imm : BitVec 16) (s : State) : Result :=
  regOp l (.immediateOp l op rd rs1 imm) 1 (fun b => b.setReg rd (immValue op (b.reg rs1) imm)) s

/-- SHIFT_IMMEDIATE. -/
def execShiftImmediate (l : Fin 52) (op : ShiftOp) (rd rs1 : Fin 32) (sh : BitVec 5) (s : State) : Result :=
  regOp l (.shiftImmediate l op rd rs1 sh) 1 (fun b => b.setReg rd (shiftValue op (b.reg rs1) sh.toNat)) s

/-- MOV_HI. -/
def execMovHi (l : Fin 52) (rd : Fin 32) (imm : BitVec 21) (s : State) : Result :=
  regOp l (.movHi l rd imm) 1 (fun b => b.setReg rd (imm ++ 0#11)) s

/-- PC_HI. -/
def execPcHi (l : Fin 52) (rd : Fin 32) (imm : BitVec 21) (s : State) : Result :=
  regOp l (.pcHi l rd imm) 1 (fun b => b.setReg rd (b.pc + (imm ++ 0#11))) s

/-- BRANCH: 2 beats taken, 1 not taken. -/
def execBranch (l : Fin 52) (op : BrOp) (rs1 rs2 : Fin 32) (off : BitVec 16) (s : State) : Result :=
  .next (issue l (.branch l op rs1 rs2 off) plain (fun s =>
    let b := (s.lane l).bank
    (.ok (if branchTaken op (b.reg rs1) (b.reg rs2) then ⟨2, none, .goto (branchTarget b.pc off)⟩ else ⟨1, none, .next⟩), s)) s)

/-- JMP. -/
def execJmp (l : Fin 52) (off : BitVec 26) (s : State) : Result :=
  .next (issue l (.jmp l off) plain (fun s => (.ok ⟨2, none, .goto (branchTarget (s.lane l).bank.pc off)⟩, s)) s)

/-- CALL: g31 takes the return address. -/
def execCall (l : Fin 52) (off : BitVec 26) (s : State) : Result :=
  .next (issue l (.call l off) plain (fun s =>
    let pc := (s.lane l).bank.pc
    (.ok ⟨2, none, fun s => .goto (branchTarget pc off) (s.modBank l (Bank.setReg 31 (pc + 4)))⟩, s)) s)

/-- JMP_R: the target is formed before rd is written. -/
def execJmpR (l : Fin 52) (rd rs1 : Fin 32) (imm : BitVec 16) (s : State) : Result :=
  .next (issue l (.jmpR l rd rs1 imm) plain (fun s =>
    let b := (s.lane l).bank
    (.ok ⟨3, none, fun s => .goto (b.reg rs1 + sext16 imm) (s.modBank l (Bank.setReg rd (b.pc + 4)))⟩, s)) s)

end Sys2Proof.Machine
end

