-- ==== Sys2Proof/Machine/FloatOps.lean ====
section
/-! DEFINITION. binary32 (R121), vector (R122) and complex (R123) instructions. -/
namespace Sys2Proof.Machine

/-! ### binary32 (R121) -/

/-- The result and flags of a binary32 operation: `c` is g[rd], `x` g[rs1], `y` g[rs2]. -/
def fValue (op : FOp) (rm : Nat) (c x y : Word) : Word × Nat :=
  let r : Nat × Nat :=
    match op with
    | .add => fAdd rm false x.toNat y.toNat
    | .sub => fAdd rm true x.toNat y.toNat
    | .mul => fMul rm x.toNat y.toNat
    | .div => fDiv rm x.toNat y.toNat
    | .sqrt => fSqrt rm x.toNat
    | .fma => fFma rm c.toNat x.toNat y.toNat
    | .min => fMinMax false x.toNat y.toNat
    | .max => fMinMax true x.toNat y.toNat
    | .abs => ((x &&& 0x7FFFFFFF).toNat, 0)
    | .neg => ((x ^^^ 0x80000000).toNat, 0)
    | .cpsgn => (((x &&& 0x7FFFFFFF) ||| (y &&& 0x80000000)).toNat, 0)
    | .cmp => fCmp false x.toNat y.toNat
    | .cmps => fCmp true x.toNat y.toNat
    | .itof => fOfInt rm x.toInt
    | .utof => fOfInt rm x.toNat
    | .ftoi => fToInt rm (-2147483648) 2147483647 x.toNat
    | .ftou => fToInt rm 0 4294967295 x.toNat
    | .class => (fClass x.toNat, 0)
  (w32 r.1, r.2)

/-- Beats of a binary32 operation. -/
def fBeats (op : FOp) : Nat :=
  match op with
  | .abs | .neg | .cpsgn | .class => 1
  | .add | .sub | .mul | .min | .max | .cmp | .cmps | .itof | .utof | .ftoi | .ftou => 2
  | .fma => 3
  | .div => 10
  | .sqrt => 12

/-- F32_OP. -/
def execF32Op (l : Fin 52) (op : FOp) (rd rs1 rs2 : Fin 32) (s : State) : Result :=
  regOp l (.f32Op l op rd rs1 rs2) (fBeats op)
    (fun b =>
      let r := fValue op b.rm (b.reg rd) (b.reg rs1) (b.reg rs2)
      (b.setReg rd r.1).raise r.2) s

/-! ### Vectors (R122) -/

/-- An integer or bitwise operation on one element; `none` for the operations of another shape. -/
def vElem (op : VOp) : Option (Word → Word → Word) :=
  match op with
  | .addI => some (· + ·)
  | .subI => some (· - ·)
  | .mulI => some (· * ·)
  | .and => some (· &&& ·)
  | .or => some (· ||| ·)
  | .xor => some (· ^^^ ·)
  | .addF | .subF | .mulF | .fmaF | .sumF | .splat | .ins | .ext | .mov => none

/-- The binary32 operation of a vector operation. -/
def vFloat (op : VOp) : Option FOp :=
  match op with
  | .addF => some .add
  | .subF => some .sub
  | .mulF => some .mul
  | .fmaF => some .fma
  | .addI | .subI | .mulI | .and | .or | .xor | .sumF | .splat | .ins | .ext | .mov => none

/-- A binary32 operation element by element, with the union of the flags. -/
def vFloatValue (op : FOp) (rm : Nat) (d a b : QWord) : QWord × Nat :=
  let r := fun (i : Nat) => fValue op rm (elem d i) (elem a i) (elem b i)
  (vec4 (fun i => (r i).1), orFlags ((List.range 4).map (fun i => (r i).2)))

/-- v.sum.f32: (e0 + e1) + (e2 + e3), rounding at each step. -/
def vSum (rm : Nat) (a : QWord) : Word × Nat :=
  let p := fValue .add rm 0 (elem a 0) (elem a 1)
  let q := fValue .add rm 0 (elem a 2) (elem a 3)
  let r := fValue .add rm 0 p.1 q.1
  (r.1, orFlags [p.2, q.2, r.2])

/-- The effect of a vector operation on the bank. -/
def vectorEffect (op : VOp) (d a b : Fin 32) (e : Nat) (k : Bank) : Bank :=
  match vElem op, vFloat op with
  | some f, _ => k.setVec d (vec4 (fun i => f (elem (k.vec a) i) (elem (k.vec b) i)))
  | none, some f =>
    let r := vFloatValue f k.rm (k.vec d) (k.vec a) (k.vec b)
    (k.setVec d r.1).raise r.2
  | none, none =>
    if op = .sumF then
      let r := vSum k.rm (k.vec a)
      (k.setReg d r.1).raise r.2
    else if op = .splat then k.setVec d (vec4 (fun _ => k.reg a))
    else if op = .ins then k.setVec d (setElem (k.vec d) e (k.reg a))
    else if op = .ext then k.setReg d (elem (k.vec a) e)
    else k.setVec d (k.vec a)

/-- Beats of a vector operation. -/
def vBeats (op : VOp) : Nat :=
  match op with
  | .mov => 1
  | .addI | .subI | .mulI | .and | .or | .xor | .splat | .ins | .ext => 2
  | .addF | .subF | .mulF => 3
  | .fmaF => 4
  | .sumF => 5

/-- VECTOR_OP. -/
def execVectorOp (l : Fin 52) (op : VOp) (d a b : Fin 32) (e : Fin 4) (s : State) : Result :=
  regOp l (.vectorOp l op d a b e) (vBeats op) (vectorEffect op d a b e.val) s

/-! ### Complex operations (R69, R123) -/

/-- A product part in Q62 rounded to Q31: half is added, then the shift, then saturation. -/
def q31Round (i : Int) : Word := satWord ((i + 2 ^ 30) / 2 ^ 31)

/-- The exact product of two complex integers. -/
def cProduct (a b : Int × Int) : Int × Int := (a.1 * b.1 - a.2 * b.2, a.1 * b.2 + a.2 * b.1)

/-- cmul on cq31. -/
def cmulQ (a b : QWord) : QWord :=
  let p := fun (e : Nat) => cProduct (cq31 a e) (cq31 b e)
  vec4 (fun i => if i % 2 = 0 then q31Round (p (i / 2)).1 else q31Round (p (i / 2)).2)

/-- One element of cmul on cf32: each product and each sum is rounded. -/
def cmulElem (rm : Nat) (a b : QWord) (e : Nat) : Word × Word × Nat :=
  let mul := fun (x y : Word) => fValue .mul rm 0 x y
  let ac := mul (elem a (2 * e)) (elem b (2 * e))
  let bd := mul (elem a (2 * e + 1)) (elem b (2 * e + 1))
  let ad := mul (elem a (2 * e)) (elem b (2 * e + 1))
  let bc := mul (elem a (2 * e + 1)) (elem b (2 * e))
  let re := fValue .sub rm 0 ac.1 bd.1
  let im := fValue .add rm 0 ad.1 bc.1
  (re.1, im.1, orFlags [ac.2, bd.2, ad.2, bc.2, re.2, im.2])

/-- cmul on cf32. -/
def cmulF (rm : Nat) (a b : QWord) : QWord × Nat :=
  let p := cmulElem rm a b
  (vec4 (fun i => if i % 2 = 0 then (p (i / 2)).1 else (p (i / 2)).2.1), orFlags [(p 0).2.2, (p 1).2.2])

/-- cconj: a negated −2³¹ gives 2³¹ − 1; on cf32 the sign bit is inverted. -/
def conjValue (cf : Bool) (a : QWord) : QWord :=
  vec4 (fun i =>
    if i % 2 = 0 then elem a i
    else if cf then elem a i ^^^ 0x80000000
    else satWord (-(elem a i).toInt))

/-- cmag: floor(√(r² + i²) + ½). -/
def cmagValue (z : Int × Int) : Word := w32 (roundSqrt (z.1 * z.1 + z.2 * z.2).toNat)

/-- cang: the i32 nearest to atan2(i, r) · 2³¹ ÷ π, modulo 2³². -/
def cangValue (z : Int × Int) : Word := w32i (angleOf z.1 z.2)

/-- The sum of both element products; `conj` conjugates b. -/
def cmacSum (conj : Bool) (a b : QWord) : Int × Int :=
  let p := fun (e : Nat) => let y := cq31 b e; cProduct (cq31 a e) (if conj then (y.1, -y.2) else y)
  ((p 0).1 + (p 1).1, (p 0).2 + (p 1).2)

/-- One addition to an accumulator part, saturated to 72 bits (R69). -/
def accAdd (x : BitVec 72) (i : Int) : BitVec 72 × Bool :=
  let v := x.toInt + i
  let c := clampInt (-(2 ^ 71)) (2 ^ 71 - 1) v
  (BitVec.ofInt 72 c, decide (c ≠ v))

/-- cmac and cmac.c. -/
def cmacEffect (conj : Bool) (d : Fin 2) (a b : Fin 32) (k : Bank) : Bank :=
  let z := cmacSum conj (k.vec a) (k.vec b)
  let re := accAdd k.ac[d].re z.1
  let im := accAdd k.ac[d].im z.2
  { k with ac := k.ac.set d ⟨re.1, im.1⟩ }.raise (if re.2 || im.2 then flACSAT else 0)

/-- One part of ac.rd: divided by 2^(31 + sh), ties to even, saturated; whether it saturated. -/
def accRead (x : BitVec 72) (sh : Nat) : Word × Bool :=
  let v := rneInt x.toInt (2 ^ (31 + sh))
  (w32i (satI32 v), decide (satI32 v ≠ v))

/-- ac.rd. -/
def acRdEffect (e : Fin 2) (d : Fin 32) (a : Fin 2) (sh : Nat) (k : Bank) : Bank :=
  let re := accRead k.ac[a].re sh
  let im := accRead k.ac[a].im sh
  (k.setVec d (setComplex (k.vec d) e.val re.1 im.1)).raise (if re.2 || im.2 then flACSAT else 0)

/-- CMUL. -/
def execCmul (l : Fin 52) (cf : Bool) (d a b : Fin 32) (s : State) : Result :=
  regOp l (.cmul l cf d a b) (if cf then 4 else 3)
    (fun k =>
      if cf then
        let r := cmulF k.rm (k.vec a) (k.vec b)
        (k.setVec d r.1).raise r.2
      else k.setVec d (cmulQ (k.vec a) (k.vec b))) s

/-- CCONJ. -/
def execCconj (l : Fin 52) (cf : Bool) (d a : Fin 32) (s : State) : Result :=
  regOp l (.cconj l cf d a) 1 (fun k => k.setVec d (conjValue cf (k.vec a))) s

/-- CMAG. -/
def execCmag (l : Fin 52) (e : Fin 2) (d a : Fin 32) (s : State) : Result :=
  regOp l (.cmag l e d a) 6 (fun k => k.setReg d (cmagValue (cq31 (k.vec a) e.val))) s

/-- CANG. -/
def execCang (l : Fin 52) (e : Fin 2) (d a : Fin 32) (s : State) : Result :=
  regOp l (.cang l e d a) 8 (fun k => k.setReg d (cangValue (cq31 (k.vec a) e.val))) s

/-- CMAC. -/
def execCmac (l : Fin 52) (d : Fin 2) (a b : Fin 32) (s : State) : Result :=
  regOp l (.cmac l d a b) 3 (cmacEffect false d a b) s

/-- CMAC_C. -/
def execCmacC (l : Fin 52) (d : Fin 2) (a b : Fin 32) (s : State) : Result :=
  regOp l (.cmacC l d a b) 3 (cmacEffect true d a b) s

/-- AC_CLR. -/
def execAcClr (l : Fin 52) (d : Fin 2) (s : State) : Result :=
  regOp l (.acClr l d) 1 (fun k => { k with ac := k.ac.set d ⟨0, 0⟩ }) s

/-- AC_RD. -/
def execAcRd (l : Fin 52) (e : Fin 2) (d : Fin 32) (a : Fin 2) (sh : Fin 32) (s : State) : Result :=
  regOp l (.acRd l e d a sh) 2 (acRdEffect e d a sh.val) s

end Sys2Proof.Machine
end

