-- ==== Sys2Proof/Machine/Image.lean ====
section
/-! DEFINITION. Image, timer and edge instructions (R103 to R105, R124 to R127, R182, R195). -/
namespace Sys2Proof.Machine

/-- IMG_RANGE at an image address: area 0b11, a write to I, past SIZE (R104). -/
def imgRange (b : Bank) (a n : Nat) (write : Bool) : Option Trap :=
  let area := imgArea a
  if area = 3 then some ⟨.imgRange, a, 2, 0, 0⟩
  else if write ∧ area = 0 then some ⟨.imgRange, a, 1, 0, 0⟩
  else if descSize (b.imgDesc area) < imgByte a + n then some ⟨.imgRange, a, 0, 0, 0⟩
  else none

/-- The checks of an image access of `n` bytes, or of one bit (R104). -/
def imgCheck (b : Bank) (a n : Nat) (bit write : Bool) : Option Trap :=
  if ¬ bit ∧ (imgBit a ≠ 0 ∨ imgByte a % n ≠ 0) then some ⟨if write then .storeAlign else .loadAlign, a, 0, 0, 0⟩
  else imgRange b a n write

/-- The offset of an image address in data memory. -/
def imgOffset (b : Bank) (a : Nat) : Nat := descBase (b.imgDesc (imgArea a)) + imgByte a

/-- The plan of an image instruction: its checks against the running bank, then its effect. -/
def imgPlan (l : Fin 52) (cost : Nat) (check : Bank → Option Trap) (body : Bank → State → Ans) (s : State) :
    Except Trap Plan × State :=
  let b := (s.lane l).bank
  match check b with
  | some t => (.error t, s)
  | none => (.ok ⟨cost, none, body b⟩, s)

/-- Writes one bit of data memory as an atomic read-modify-write of its byte, and gives the old bit to `k` (R105). -/
def modBit (l : Fin 52) (o bit : Nat) (f : Bool → Bool) (k : Bool → Bank → Bank) (s : State) : Ans :=
  match readData l o 1 s with
  | (.error t, s) => .trap t s
  | (.ok v, s) =>
    match writeData l o 1 (putBit v bit (f (bitOf v bit))) s with
    | (.error t, s) => .trap t s
    | (.ok (), s) => .next (s.modBank l (k (bitOf v bit)))

/-! ### img (R124) -/

/-- Bytes of an image load. -/
def imgLdSize (op : ImgLd) : Nat :=
  match op with
  | .bit | .bu | .b => 1
  | .hu | .h => 2
  | .w => 4
  | .d => 8

/-- The value an image load gives: the addressed bit, or the bytes zero- or sign-extended. -/
def imgLdReg (op : ImgLd) (bit : Nat) (rd : Fin 32) (v : Nat) (b : Bank) : Bank :=
  match op with
  | .bit => b.setReg rd (w32 (v / 2 ^ bit % 2))
  | .bu | .hu | .w => b.setReg rd (w32 v)
  | .b => b.setReg rd (w32i (signedOf 8 v))
  | .h => b.setReg rd (w32i (signedOf 16 v))
  | .d => b.setPair rd v

/-- IMG_LD. -/
def execImgLd (l : Fin 52) (op : ImgLd) (rd rs1 rs2 : Fin 32) (imm : BitVec 8) (s : State) : Result :=
  .next (issue l (.imgLd l op rd rs1 rs2 imm) plain
    (imgPlan l 2 (fun b => imgCheck b (imgAddr b rs1 rs2 imm) (imgLdSize op) (op == .bit) false)
      (fun b s =>
        let a := imgAddr b rs1 rs2 imm
        loadEnd l (imgLdReg op (imgBit a) rd) (readData l (imgOffset b a) (imgLdSize op) s))) s)

/-- Bytes of an image store. -/
def imgStSize (op : ImgSt) : Nat :=
  match op with
  | .bit | .b => 1
  | .h => 2
  | .w => 4
  | .d => 8

/-- IMG_ST: bit 0 of g[rd], or its low bytes, or the pair at rd. -/
def execImgSt (l : Fin 52) (op : ImgSt) (rd rs1 rs2 : Fin 32) (imm : BitVec 8) (s : State) : Result :=
  .next (issue l (.imgSt l op rd rs1 rs2 imm) plain
    (imgPlan l (if op = .bit then 2 else 1)
      (fun b => imgCheck b (imgAddr b rs1 rs2 imm) (imgStSize op) (op == .bit) true)
      (fun b s =>
        let a := imgAddr b rs1 rs2 imm
        if op = .bit then modBit l (imgOffset b a) (imgBit a) (fun _ => (b.reg rd).getLsbD 0) (fun _ k => k) s
        else
          let v := if op = .d then b.pair rd else (b.reg rd).toNat
          storeEnd (writeData l (imgOffset b a) (imgStSize op) v s))) s)

/-- img.set and img.clr. -/
def imgBitOp (l : Fin 52) (i : Instr) (rs1 rs2 : Fin 32) (imm : BitVec 8) (v : Bool) (s : State) : State :=
  issue l i plain
    (imgPlan l 2 (fun b => imgCheck b (imgAddr b rs1 rs2 imm) 1 true true)
      (fun b s =>
        let a := imgAddr b rs1 rs2 imm
        modBit l (imgOffset b a) (imgBit a) (fun _ => v) (fun _ k => k) s)) s

/-- IMG_SET. -/
def execImgSet (l : Fin 52) (rs1 rs2 : Fin 32) (imm : BitVec 8) (s : State) : Result :=
  .next (imgBitOp l (.imgSet l rs1 rs2 imm) rs1 rs2 imm true s)

/-- IMG_CLR. -/
def execImgClr (l : Fin 52) (rs1 rs2 : Fin 32) (imm : BitVec 8) (s : State) : Result :=
  .next (imgBitOp l (.imgClr l rs1 rs2 imm) rs1 rs2 imm false s)

/-! ### tmr (R125, R126) -/

/-- A timer block's state: ET, PT, the flags INPREV and RUN. -/
structure TimerBlock where
  et : Nat
  pt : Nat
  prev : Bool
  run : Bool
  deriving DecidableEq, Repr

/-- What a timer instruction leaves: ET, RUN, INPREV, Q. -/
structure TimerOut where
  et : Nat
  run : Bool
  inp : Bool
  q : Bool
  deriving DecidableEq, Repr

/-- ET after `n` periods: the sum saturates, then PT bounds it. -/
def elapse (b : TimerBlock) (n : Nat) : Nat := min (min (b.et + n) 0xFFFFFFFF) b.pt

/-- tmr.ton. -/
def timerTon (n : Nat) (inp : Bool) (b : TimerBlock) : TimerOut :=
  let et := if inp && b.prev then elapse b n else 0
  ⟨et, b.run, inp, inp && decide (b.pt ≤ et)⟩

/-- tmr.tof. -/
def timerTof (n : Nat) (inp : Bool) (b : TimerBlock) : TimerOut :=
  if inp then ⟨0, b.run, inp, true⟩
  else
    let et := if b.prev then 0 else elapse b n
    ⟨et, b.run, inp, decide (et < b.pt)⟩

/-- tmr.tp. -/
def timerTp (n : Nat) (inp : Bool) (b : TimerBlock) : TimerOut :=
  if b.run then
    let et := elapse b n
    let run := decide (et < b.pt)
    ⟨et, run, inp, run⟩
  else if inp && !b.prev then ⟨0, decide (0 < b.pt), inp, decide (0 < b.pt)⟩
  else ⟨if inp then b.et else 0, false, inp, false⟩

/-- tmr.rst. -/
def timerRst (_ : Nat) (_ : Bool) (_ : TimerBlock) : TimerOut := ⟨0, false, false, false⟩

/-- The checks of a timer block (R126). -/
def timerCheck (b : Bank) (a : Nat) : Option Trap :=
  if imgBit a ≠ 0 ∨ imgByte a % 16 ≠ 0 then some ⟨.loadAlign, a, 0, 0, 0⟩ else imgRange b a 16 true

/-- The task whose activation the lane runs now (R182, R195). -/
def runningTask (x : Lane) : Option Nat :=
  if x.inG then x.run.map (·.task)
  else if x.f.status.mode = .t then x.cur.bind (·.2) else none

/-- The count n of R126 for the code that runs (R182). -/
def periods (s : State) (l : Fin 52) : Nat :=
  let x := s.lane l
  if x.inG then (x.run.map (·.nper)).getD 1
  else ((runningTask x).bind s.task |>.map (·.nper)).getD 1

/-- A timer instruction: reads the block, updates it in one step, writes Q to rd; PT and TAG stay. -/
def timerOp (l : Fin 52) (i : Instr) (rd rs1 : Fin 32) (imm : BitVec 8) (inp : Bank → Bool)
    (f : Nat → Bool → TimerBlock → TimerOut) (s : State) : State :=
  issue l i plain
    (imgPlan l 5 (fun b => timerCheck b (blockAddr b rs1 imm))
      (fun b s =>
        let o := imgOffset b (blockAddr b rs1 imm)
        match readData l o 8 s with
        | (.error t, s) => .trap t s
        | (.ok lo, s) =>
          match readData l (o + 8) 4 s with
          | (.error t, s) => .trap t s
          | (.ok fl, s) =>
            let r := f (periods s l) (inp b) ⟨lo % 2 ^ 32, lo / 2 ^ 32, bitOf fl 1, bitOf fl 2⟩
            match writeData l o 4 r.et s with
            | (.error t, s) => .trap t s
            | (.ok (), s) =>
              match writeData l (o + 8) 4 (b2n r.run * 4 + b2n r.inp * 2 + b2n r.q) s with
              | (.error t, s) => .trap t s
              | (.ok (), s) => .next (s.modBank l (Bank.setReg rd (w32 (b2n r.q)))))) s

/-- IN: bit 0 of g[rs2]. -/
def inBit (rs2 : Fin 32) (b : Bank) : Bool := (b.reg rs2).getLsbD 0

/-- TMR_TON. -/
def execTmrTon (l : Fin 52) (rd rs1 rs2 : Fin 32) (imm : BitVec 8) (s : State) : Result :=
  .next (timerOp l (.tmrTon l rd rs1 rs2 imm) rd rs1 imm (inBit rs2) timerTon s)

/-- TMR_TOF. -/
def execTmrTof (l : Fin 52) (rd rs1 rs2 : Fin 32) (imm : BitVec 8) (s : State) : Result :=
  .next (timerOp l (.tmrTof l rd rs1 rs2 imm) rd rs1 imm (inBit rs2) timerTof s)

/-- TMR_TP. -/
def execTmrTp (l : Fin 52) (rd rs1 rs2 : Fin 32) (imm : BitVec 8) (s : State) : Result :=
  .next (timerOp l (.tmrTp l rd rs1 rs2 imm) rd rs1 imm (inBit rs2) timerTp s)

/-- TMR_RST. -/
def execTmrRst (l : Fin 52) (rd rs1 : Fin 32) (imm : BitVec 8) (s : State) : Result :=
  .next (timerOp l (.tmrRst l rd rs1 imm) rd rs1 imm (fun _ => false) timerRst s)

/-! ### edg (R127, R195) -/

/-- What an edge instruction reports from PREV and IN. -/
def edgeResult (op : Nat) (prev inp : Bool) : Bool :=
  if op = 0 then inp && !prev else if op = 1 then prev && !inp else if op = 2 then inp != prev else false

/-- An edge instruction of func3 `op`. PREV in the lane's edge-init set makes edg.r, edg.f and edg.b behave as edg.init and
frees the entry. -/
def edgeOp (l : Fin 52) (i : Instr) (op : Nat) (rd rs1 rs2 : Fin 32) (imm : BitVec 8) (s : State) : State :=
  issue l i plain
    (imgPlan l 3 (fun b => imgRange b (blockAddr b rs1 imm) 1 true)
      (fun b s =>
        let a := blockAddr b rs1 imm
        let inp := inBit rs2 b
        let entry := (runningTask (s.lane l)).map (fun t => (t, a))
        let hit := decide (op < 3) && (match entry with
          | some e => (s.lane l).edges.contains e
          | none => false)
        match modBit l (imgOffset b a) (imgBit a) (fun _ => inp)
            (fun prev => Bank.setReg rd (w32 (b2n (edgeResult (if hit then 3 else op) prev inp)))) s with
        | .next s =>
          .next (if hit then s.modLane l (fun x => { x with edges := (entry.map x.edges.erase).getD x.edges }) else s)
        | a => a)) s

/-- EDG_R. -/
def execEdgR (l : Fin 52) (rd rs1 rs2 : Fin 32) (imm : BitVec 8) (s : State) : Result :=
  .next (edgeOp l (.edgR l rd rs1 rs2 imm) 0 rd rs1 rs2 imm s)

/-- EDG_F. -/
def execEdgF (l : Fin 52) (rd rs1 rs2 : Fin 32) (imm : BitVec 8) (s : State) : Result :=
  .next (edgeOp l (.edgF l rd rs1 rs2 imm) 1 rd rs1 rs2 imm s)

/-- EDG_B. -/
def execEdgB (l : Fin 52) (rd rs1 rs2 : Fin 32) (imm : BitVec 8) (s : State) : Result :=
  .next (edgeOp l (.edgB l rd rs1 rs2 imm) 2 rd rs1 rs2 imm s)

/-- EDG_INIT. -/
def execEdgInit (l : Fin 52) (rd rs1 rs2 : Fin 32) (imm : BitVec 8) (s : State) : Result :=
  .next (edgeOp l (.edgInit l rd rs1 rs2 imm) 3 rd rs1 rs2 imm s)

end Sys2Proof.Machine
end

