-- ==== Sys2Proof/Machine/Mem.lean ====
section
/-! DEFINITION. Loads and stores (R117, R118), the response of an outstanding load (R65), and atomics (R95, R120). -/
namespace Sys2Proof.Machine

open Reg

/-- Bytes a load reads. -/
def loadSize (op : LoadOp) : Nat :=
  match op with
  | .b | .bu => 1
  | .h | .hu => 2
  | .w => 4
  | .d => 8

/-- A load that sign-extends. -/
def loadSigned (op : LoadOp) : Bool :=
  match op with
  | .b | .h => true
  | .bu | .hu | .w | .d => false

/-- Bytes a store writes. -/
def storeSize (op : StoreOp) : Nat :=
  match op with
  | .b => 1
  | .h => 2
  | .w => 4
  | .d => 8

/-- A loaded value enters its register or pair. All ones stand for an untrapped device error (R102). -/
def loadReg (rd : Fin 32) (bytes : Nat) (signed : Bool) (v : Nat) (b : Bank) : Bank :=
  if bytes = 8 then b.setPair rd v
  else b.setReg rd (if signed then w32i (signedOf (8 * bytes) v) else w32 v)

/-- LOAD. With `split` the access of bank F stays outstanding until LOAD_RESPONSE (R65). -/
def execLoad (l : Fin 52) (op : LoadOp) (rd rs1 : Fin 32) (imm : BitVec 16) (split : Bool) (s : State) : Result :=
  .next (issue l (.load l op rd rs1 imm split) plain (fun s =>
    memPlan l .r (vaOf (s.lane l).bank rs1 imm) (loadSize op) 2 6 (fun p s =>
      let x := s.lane l
      if split ∧ ¬ x.timed then
        .done (s.modLane l (fun x => { x with out := some ⟨rd, loadSize op, loadSigned op, p.pa, p.dev⟩ }))
      else loadEnd l (loadReg rd (loadSize op) (loadSigned op)) (loadBytes l x.inG p (loadSize op) s)) s) s)

/-- LOAD_RESPONSE: the outstanding load of bank F completes or raises its exception, whichever bank runs. -/
def execLoadResponse (l : Fin 52) (s : State) : Result :=
  .next (
    match (s.lane l).out with
    | none => s
    | some o =>
      let s := s.modLane l (fun x => { x with out := none })
      match loadBytes l false ⟨o.pa, o.dev⟩ o.bytes s with
      | (.error t, s) => takeF l t false s
      | (.ok v, s) =>
        s.modLane l (Lane.modOf false (fun b => { loadReg o.rd o.bytes o.signed v b with pc := b.pc + 4 })))

/-- STORE: rd names the data source. -/
def execStore (l : Fin 52) (op : StoreOp) (rd rs1 : Fin 32) (imm : BitVec 16) (s : State) : Result :=
  .next (issue l (.store l op rd rs1 imm) plain (fun s =>
    let b := (s.lane l).bank
    let v := if op = .d then b.pair rd else (b.reg rd).toNat
    memPlan l .w (vaOf b rs1 imm) (storeSize op) 1 4 (fun p s => storeEnd (storeBytes l p (storeSize op) v s)) s) s)

/-- V_LD. -/
def execVLd (l : Fin 52) (d rs1 : Fin 32) (imm : BitVec 16) (s : State) : Result :=
  .next (issue l (.vLd l d rs1 imm) plain (fun s =>
    memPlan l .r (vaOf (s.lane l).bank rs1 imm) 16 3 7 (fun p s =>
      loadEnd l (fun v => Bank.setVec d (BitVec.ofNat 128 v)) (loadBytes l (s.lane l).inG p 16 s)) s) s)

/-- V_ST. -/
def execVSt (l : Fin 52) (d rs1 : Fin 32) (imm : BitVec 16) (s : State) : Result :=
  .next (issue l (.vSt l d rs1 imm) plain (fun s =>
    let b := (s.lane l).bank
    memPlan l .w (vaOf b rs1 imm) 16 2 5 (fun p s => storeEnd (storeBytes l p 16 (b.vec d).toNat s)) s) s)

/-! ### Atomics (R95, R120) -/

/-- What an atomic writes, from the old word, g[rs2] and g[rd]; none where at.cas does not match. -/
def atomicValue (op : AtOp) (old b d : Word) : Option Word :=
  match op with
  | .swap => some b
  | .add => some (old + b)
  | .and => some (old &&& b)
  | .or => some (old ||| b)
  | .xor => some (old ^^^ b)
  | .max => some (if old.slt b then b else old)
  | .min => some (if b.slt old then b else old)
  | .maxu => some (if old.ult b then b else old)
  | .minu => some (if b.ult old then b else old)
  | .cas => if old = d then some b else none

/-- The regions an atomic may reach: normal memory in lane-local memory, cluster SRAM and DRAM. -/
def atomicRegion (s : State) (p : Phys) : Bool :=
  !p.dev && (match regionOf (s.canon p.pa) with
    | .dram _ | .sram _ _ | .laneMem _ _ _ => true
    | .checkpoint _ | .align _ | .block _ _ | .rom _ | .hole => false)

/-- The indivisible read and write of an atomic; release lets every earlier store of the bank reach its target first. -/
def atomicBody (l : Fin 52) (op : AtOp) (rel : Bool) (rd : Fin 32) (b d : Word) (p : Phys) (s : State) : Ans :=
  if ¬ atomicRegion s p then .trap ⟨.atomicRegion, addrEval p.pa, 0, 0, 0⟩ s
  else
    let x := s.lane l
    let rq := x.req l x.inG
    let s := if rel then drainBuf l x.inG s else drainRegion l x.inG p.pa s
    let (r, v, s) := memReadAcc rq p.pa 4 .atomic s
    if r ≠ .ok then .trap (busTrap .loadBus r p.pa) s
    else
      match atomicValue op (w32 v) b d with
      | none => .next (s.modBank l (Bank.setReg rd (w32 v)))
      | some n =>
        let (r, s) := memWriteAcc rq p.pa (leBytes 4 n.toNat) .atomic s
        if r ≠ .ok then .trap (busTrap .storeBus r p.pa) s else .next (s.modBank l (Bank.setReg rd (w32 v)))

/-- ATOMIC. -/
def execAtomic (l : Fin 52) (op : AtOp) (h rel acq : Bool) (rd rs1 rs2 : Fin 32) (s : State) : Result :=
  .next (issue l (.atomic l op h rel acq rd rs1 rs2) { modes := .all, untimed := true, absent := none } (fun s =>
    let k := (s.lane l).bank
    memPlan l .a (atomicVa k rs1 h) 4 0 0 (atomicBody l op rel rd (k.reg rs2) (k.reg rd)) s) s)

end Sys2Proof.Machine
end

