-- ==== Sys2Proof/Machine/SysReg.lean ====
section
/-! DEFINITION. The system registers (R72 to R80): who may reach them, what they read and what a write does. -/
namespace Sys2Proof.Machine

open Reg

/-- The lowest mode code with access to a system register; none for an unlisted number (R72). The dirty-log registers belong
to a cluster. -/
def srLevel (l : Fin 52) (n : Nat) : Option Nat :=
  if n ≤ 0x004 ∨ n = 0x008 ∨ (0x010 ≤ n ∧ n ≤ 0x012) ∨ n = 0x100 then some 0
  else if (0x101 ≤ n ∧ n ≤ 0x106) ∨ n = 0x110 ∨ n = 0x111 ∨ n = 0x120 ∨ n = 0x121 ∨ (0x130 ≤ n ∧ n ≤ 0x132) ∨ n = 0x211 then
    some 1
  else if (0x200 ≤ n ∧ n ≤ 0x205) ∨ n = 0x210 ∨ n = 0x220 then some 2
  else if 0x230 ≤ n ∧ n ≤ 0x233 ∧ isCluster l then some 2
  else none

/-- A mode reaches a register. -/
def srReadable (l : Fin 52) (n : Nat) (m : Mode) : Bool :=
  match srLevel l n with
  | some k => decide (k ≤ m.code)
  | none => false

/-- A register is RO in a mode that reaches it (R72). -/
def srReadOnly (n : Nat) (m : Mode) : Bool :=
  decide (n ≤ 0x003) || (((decide (0x010 ≤ n) && decide (n ≤ 0x012)) || n == 0x100) && m == .t) || n == 0x121 || n == 0x131 ||
    n == 0x132 || (n == 0x211 && m != .s) || n == 0x232

/-- LANEID (R77). -/
def laneIdWord (s : State) (l : Fin 52) : Nat :=
  (if isCluster l then (s.roleOf (laneGroup l)).getD 0xF else 0xF) * 256 + laneIdOf l

/-- KIE shows the causes routed to K alone (R72). -/
def kieShown (x : Lane) : Nat := x.k.kie.toNat % 256 &&& ((List.range 8).filter (routesK x)).foldl (fun m n => m + 2 ^ n) 0

/-- DLOGCTL as a word (R80). -/
def dlogCtl (d : DirtyLog) : Nat := b2n d.half * 1024 + b2n d.ovf * 512 + b2n d.en * 256 + d.size

/-- What a system register reads, BEATCNT as the lane counts it. -/
def srValue (s : State) (l : Fin 52) (n : Nat) : Nat :=
  let x := s.lane l
  let b := x.bank
  let d := laneDlog s l
  match n with
  | 0x000 => laneIdWord s l
  | 0x001 => s.unitsWord
  | 0x002 => s.variantWord
  | 0x003 => x.beatcnt.toNat
  | 0x004 => b.lastResp.toNat
  | 0x008 => b.fcsr.toNat
  | 0x010 => b.imgI.toNat
  | 0x011 => b.imgQ.toNat
  | 0x012 => b.imgM.toNat
  | 0x100 => statusWord x.inG { b.status with xoff := b.status.xoff && x.mode == .s }
  | 0x101 => x.k.kepc.toNat
  | 0x102 => x.k.kestatus.toNat
  | 0x103 => x.k.kcause.toNat + 2 ^ 31
  | 0x104 => x.k.keval.toNat
  | 0x105 => x.k.kvec.toNat
  | 0x106 => x.k.kscratch.toNat
  | 0x110 => x.k.st1root.toNat
  | 0x111 => x.k.asid.toNat
  | 0x120 => kieShown x
  | 0x121 => ipBits s l
  | 0x130 => x.g0cause.toNat
  | 0x131 => x.g0epc.toNat
  | 0x132 => x.g0eval.toNat
  | 0x200 => x.sr.sepc.toNat
  | 0x201 => x.sr.sestatus.toNat
  | 0x202 => x.sr.scause.toNat + 2 ^ 31
  | 0x203 => x.sr.seval.toNat
  | 0x204 => x.sr.svec.toNat
  | 0x205 => x.sr.sscratch.toNat
  | 0x210 => x.k.st2root.toNat
  | 0x211 => b.vmid.toNat
  | 0x220 => x.sr.sie.toNat
  | 0x230 => d.base.toNat
  | 0x231 => dlogCtl d
  | 0x232 => d.head
  | 0x233 => d.tail
  | _ => 0

/-- What a read changes: LASTRESP clears. -/
def srAfterRead (l : Fin 52) (n : Nat) (s : State) : State :=
  if n = 0x004 then s.modBank l (fun b => { b with lastResp := 0 }) else s

/-- Two image areas share a byte. -/
def areasOverlap (d e : Nat) : Bool :=
  decide (descSize d ≠ 0) && decide (descSize e ≠ 0) && decide (descBase d < descBase e + descSize e) &&
    decide (descBase e < descBase d + descSize d)

/-- An image descriptor keeps the limits of R103, on its own and against the other two. -/
def imgDescOk (area d : Nat) (others : List Nat) : Bool :=
  descSize d % 8 == 0 && descBase d % 8 == 0 && decide (descSize d ≤ imgLimit area) &&
    decide (descBase d + descSize d ≤ 65536) && others.all (fun e => !areasOverlap d e)

/-- A value that a register's map declares invalid (R75, R78, R80). -/
def srInvalid (x : Lane) (n v : Nat) : Bool :=
  let b := x.bank
  if n = 0x010 then !imgDescOk 0 v [b.imgQ.toNat, b.imgM.toNat]
  else if n = 0x011 then !imgDescOk 1 v [b.imgI.toNat, b.imgM.toNat]
  else if n = 0x012 then !imgDescOk 2 v [b.imgI.toNat, b.imgQ.toNat]
  else if n = 0x102 ∨ n = 0x201 then decide (x.mode.code < bitsOf v 3 2)
  else if n = 0x231 then decide (v % 32 < 6) || decide (16 < v % 32)
  else false

/-- A sys.rd or sys.wr traps with SYSREG (R73). -/
def srDenied (l : Fin 52) (x : Lane) (n : Nat) (write : Option Nat) : Bool :=
  !srReadable l n x.mode || (match write with
    | some v => srReadOnly n x.mode || srInvalid x n v
    | none => false)

/-- A write of an ESTATUS register would name a mode the lane does not support (R63). -/
def srBadMode (l : Fin 52) (x : Lane) (n v : Nat) : Bool :=
  (n == 0x102 || n == 0x201) && srReadable l n x.mode && !supportsMode l (modeOf (bitsOf v 3 2))

/-- Writes a dirty-log register of the lane's cluster. -/
def modDlog (l : Fin 52) (f : DirtyLog → DirtyLog) (s : State) : State :=
  if h : l.val / 8 < 5 then { s with dlogs := s.dlogs.set (l.val / 8) (f s.dlogs[l.val / 8]) } else s

/-- STATUS as a write leaves it: EXL, BET and IE, and XOFF in S (R74). -/
def statusWrite (m : Mode) (v : Nat) (st : Status) : Status :=
  { st with exl := bitOf v 2, bet := bitOf v 1, ie := bitOf v 0, xoff := if m = .s then bitOf v 7 else st.xoff }

/-- The effect of a permitted write; reserved bits are not kept (R72). -/
def srWrite (l : Fin 52) (n v : Nat) (s : State) : State :=
  let m := (s.lane l).mode
  let w := fun (mask : Nat) => w32 (v &&& mask)
  let bank := fun (f : Bank → Bank) => s.modBank l f
  let k := fun (f : KRegs → KRegs) => s.modLane l (fun x => { x with k := f x.k })
  let sr := fun (f : SRegs → SRegs) => s.modLane l (fun x => { x with sr := f x.sr })
  match n with
  | 0x008 => bank (fun b => { b with fcsr := BitVec.ofNat 9 v })
  | 0x010 => bank (fun b => { b with imgI := w 0x7FFFFFFF })
  | 0x011 => bank (fun b => { b with imgQ := w 0x7FFFFFFF })
  | 0x012 => bank (fun b => { b with imgM := w 0x7FFFFFFF })
  | 0x100 => bank (fun b => { b with status := statusWrite m v b.status })
  | 0x101 => k (fun r => { r with kepc := w 0xFFFFFFFF })
  | 0x102 => k (fun r => { r with kestatus := w 0xFF })
  | 0x103 => k (fun r => { r with kcause := w 0x7FFF077F })
  | 0x104 => k (fun r => { r with keval := w 0xFFFFFFFF })
  | 0x105 => k (fun r => { r with kvec := w 0xFFFFFFFC })
  | 0x106 => k (fun r => { r with kscratch := w 0xFFFFFFFF })
  | 0x110 => k (fun r => { r with st1root := w 0x0FFFFFFF })
  | 0x111 => k (fun r => { r with asid := w 0xFF })
  | 0x120 => k (fun r => { r with kie := w 0xFF })
  | 0x130 => s.modLane l (fun x => { x with g0cause := if bitOf v 31 then x.g0cause &&& 0x7FFFFFFF#32 else x.g0cause })
  | 0x200 => sr (fun r => { r with sepc := w 0xFFFFFFFF })
  | 0x201 => sr (fun r => { r with sestatus := w 0xFF })
  | 0x202 => sr (fun r => { r with scause := w 0x7FFF077F })
  | 0x203 => sr (fun r => { r with seval := w 0xFFFFFFFF })
  | 0x204 => sr (fun r => { r with svec := w 0xFFFFFFFC })
  | 0x205 => sr (fun r => { r with sscratch := w 0xFFFFFFFF })
  | 0x210 => k (fun r => { r with st2root := w 0x0FFFFFFE })
  | 0x211 => bank (fun b => { b with vmid := BitVec.ofNat 8 v })
  | 0x220 => sr (fun r => { r with sie := w 0xFF })
  | 0x230 => modDlog l (fun d => { d with base := w 0x0FFFFFFF }) s
  | 0x231 => modDlog l (fun d => { d with size := v % 32, en := bitOf v 8, ovf := d.ovf && !bitOf v 9 }) s
  | 0x233 => modDlog l (fun d => { d with tail := v % 65536 }) s
  | _ => s

/-- SYS_RD. Outside a timed window the beat count is open (assumption 34). -/
def execSysRd (l : Fin 52) (rd : Fin 32) (num : BitVec 12) (s : State) : Result :=
  let i : Instr := .sysRd l rd num
  let n := num.toNat
  .next (issue l i plain (fun s =>
    if srDenied l (s.lane l) n none then (.error (wordTrap .sysreg (instrWord i) 0), s)
    else (.ok ⟨2, none, fun s =>
      if n = 0x003 ∧ ¬ (s.lane l).timed then
        let (v, s) := s.draw Site.beats 32
        .next (s.modLane l (fun x => { x with beatcnt := w32 v, f := x.f.setReg rd (w32 v) }))
      else .next ((srAfterRead l n s).modBank l (Bank.setReg rd (w32 (srValue s l n))))⟩, s)) s)

/-- SYS_WR. -/
def execSysWr (l : Fin 52) (rs1 : Fin 32) (num : BitVec 12) (s : State) : Result :=
  let i : Instr := .sysWr l rs1 num
  let n := num.toNat
  let v := ((s.lane l).bank.reg rs1).toNat
  .next (issue l i { plain with badMode := srBadMode l (s.lane l) n v } (fun s =>
    if srDenied l (s.lane l) n (some v) then (.error (wordTrap .sysreg (instrWord i) 0), s)
    else (.ok ⟨2, none, fun s => .next (srWrite l n v s)⟩, s)) s)

end Sys2Proof.Machine
end

