-- ==== Sys2Proof/Machine/System.lean ====
section
/-! DEFINITION. Windows, checkpoint commits, synchronisation, system calls, translation-buffer and kernel instructions (R128
to R134), illegal words (R108), and what ends a wait or a tsync. -/
namespace Sys2Proof.Machine

open Reg

/-- An untimed instruction. -/
def untimed (m : Modes) : Kind := { modes := m, untimed := true, absent := none }

/-- An instruction whose only effect is `f`, at `cost` beats. -/
def stateOp (l : Fin 52) (i : Instr) (k : Kind) (cost : Nat) (f : State → Ans) (s : State) : Result :=
  .next (issue l i k (fun s => (.ok ⟨cost, none, f⟩, s)) s)

/-- An instruction that raises an exception of priority 10 where `c` says so. -/
def checkedOp (l : Fin 52) (i : Instr) (cost : Nat) (c : Lane → Option Trap) (f : State → Ans) (s : State) : Result :=
  .next (issue l i plain (fun s =>
    match c (s.lane l) with
    | some t => (.error t, s)
    | none => (.ok ⟨cost, none, f⟩, s)) s)

/-! ### bez (R128) -/

/-- BEZEL of bez.open and bez.close. -/
def bezelTrap (i : Instr) (open_ : Bool) (x : Lane) : Option Trap :=
  if x.inG then some (wordTrap .bezel (instrWord i) 2)
  else if open_ ∧ x.timed then some (wordTrap .bezel (instrWord i) 0)
  else if ¬ open_ ∧ ¬ x.timed then some (wordTrap .bezel (instrWord i) 1)
  else none

/-- Sets STATUS.TIMED of bank F. -/
def setTimed (b : Bool) (x : Lane) : Lane := { x with f := { x.f with status := { x.f.status with timed := b } } }

/-- BEZ_OPEN: the store buffer empties, then the window starts; BEATCNT at its start is open (assumption 34). -/
def execBezOpen (l : Fin 52) (s : State) : Result :=
  checkedOp l (.bezOpen l) 1 (bezelTrap (.bezOpen l) true) (fun s =>
    let (n, s) := (drainBuf l false s).draw Site.beats 32
    .next (s.modLane l (fun x => { setTimed true x with winBeats := 0, beatcnt := w32 n }))) s

/-- BEZ_CLOSE: rd takes the beats of the window, its own among them. -/
def execBezClose (l : Fin 52) (rd : Fin 32) (s : State) : Result :=
  checkedOp l (.bezClose l rd) 1 (bezelTrap (.bezClose l rd) false) (fun s =>
    .next (s.modLane l (fun x => { setTimed false x with winBeats := 0, f := (setTimed false x).f.setReg rd (w32 x.winBeats) }))) s

/-! ### chk (R129) -/

/-- Bytes committed so far. -/
def committed (x : Lane) : Nat := ((x.run.map (fun r => r.items.map (fun i => i.bytes.length))).getD []).sum

/-- Appends a commit; one that begins where the previous item ends joins it (R343). -/
def addItem (src : Nat) (bytes : List Byte) (items : List ChkItem) : List ChkItem :=
  match items.getLast? with
  | some i => if i.src + i.bytes.length = src then items.dropLast ++ [⟨i.src, i.bytes ++ bytes⟩] else items ++ [⟨src, bytes⟩]
  | none => [⟨src, bytes⟩]

/-- The checks of chk.commit in their own order (R129). -/
def commitTrap (s : State) (i : Instr) (x : Lane) (v n : Nat) : Option Trap :=
  let off := v % 65536
  let limit := ((x.run.bind (fun r => s.task r.task)).map (fun t => t.desc.chkSize)).getD 0
  if ¬ x.inG then some (wordTrap .checkpoint (instrWord i) 0)
  else if off % 8 ≠ 0 then some ⟨.loadAlign, off, 0, 0, 0⟩
  else if v ≠ off ∨ 65536 < off + n then some ⟨.class0Mem, v, 1, 0, 0⟩
  else if limit < committed x + n then some (wordTrap .checkpoint (instrWord i) 1)
  else none

/-- CHK_COMMIT. -/
def execChkCommit (l : Fin 52) (rs1 : Fin 32) (imm : BitVec 9) (s : State) : Result :=
  let i : Instr := .chkCommit l rs1 imm
  let w := imm.toNat + 1
  .next (issue l i plain (fun s =>
    let v := ((s.lane l).bank.reg rs1).toNat
    match commitTrap s i (s.lane l) v (8 * w) with
    | some t => (.error t, s)
    | none => (.ok ⟨6 + ceilDiv w 2, none, fun s =>
        match readData l v (8 * w) s with
        | (.error t, s) => .trap t s
        | (.ok d, s) =>
          .next (s.modLane l (fun x =>
            { x with run := x.run.map (fun r => { r with items := addItem v (leBytes (8 * w) d) r.items }) }))⟩, s)) s)

/-- CHK_SIZE. -/
def execChkSize (l : Fin 52) (rd : Fin 32) (s : State) : Result :=
  checkedOp l (.chkSize l rd) 1
    (fun x => if x.inG then none else some (wordTrap .checkpoint (instrWord (.chkSize l rd)) 0))
    (fun s => .next (s.modBank l (Bank.setReg rd (w32 (committed (s.lane l)))))) s

/-! ### Fences (R93) -/

/-- Every store of the running bank reaches its target. -/
def fenceState (l : Fin 52) (s : State) : State := drainBuf l (s.lane l).inG s

/-- FENCE: no load of the bank is outstanding when it starts. -/
def execFence (l : Fin 52) (s : State) : Result := stateOp l (.fence l) plain 1 (fun s => .next (fenceState l s)) s

/-- FENCE_W. -/
def execFenceW (l : Fin 52) (s : State) : Result := stateOp l (.fenceW l) plain 1 (fun s => .next (fenceState l s)) s

/-- FENCE_I: later fetches read memory, which then holds every acknowledged store. -/
def execFenceI (l : Fin 52) (s : State) : Result :=
  stateOp l (.fenceI l) (untimed .all) 0 (fun s => .next (fenceState l s)) s

/-! ### tsync (R96, R172, R215) -/

/-- Changes of an engine's table so far. -/
def tsyncMark (s : State) (e : Nat) : Nat :=
  if e = 0 then s.net.epoch else if e = 1 then s.sfe.epoch else if e = 2 then s.wams.epoch else 0

/-- Tasks with an activation of an older generation than their current one. -/
def olderActs (s : State) : List (Nat × Nat) :=
  (s.tasks.filter (fun p => p.2.active && p.2.actGens != p.2.gens)).map (fun p => (p.1, p.2.actGens))

/-- The engine holds nothing of an older generation (R215). -/
def tsyncOver (s : State) (e mark : Nat) (olds : List (Nat × Nat)) : Bool :=
  let young := fun (n : Nat) => decide (mark ≤ n)
  if e = 0 then
    s.net.bufs.all (fun p => young p.2.epoch) && s.net.missq.all (fun f => young f.epoch) &&
      s.net.replayQ.all (fun f => young f.epoch)
  else if e = 1 then
    let open_ := fun (c : SfeCtx) => c.groups.all (fun p => p.2.sets.all (fun t => young t.epoch))
    open_ s.sfe.live && (match s.sfe.replay with
      | some (_, c) => open_ c
      | none => true) && s.sfe.compl.all (fun c => young c.epoch)
  else if e = 2 then s.wams.open_.all (fun b => young b.epoch) && s.wams.pend.all (fun p => young p.epoch)
  else olds.all (fun o => match s.task o.1 with
    | some t => !(t.active && t.actGens == o.2)
    | none => true)

/-- TSYNC: the fence, then the wait; without die W engine 2 holds nothing (R130). -/
def execTsync (l : Fin 52) (engine : Fin 4) (s : State) : Result :=
  stateOp l (.tsync l engine) (untimed .ks) 0 (fun s =>
    let s := fenceState l s
    if engine.val = 2 ∧ ¬ s.dieW then .next s
    else .done (s.modLane l (fun x => { x with st := .tsync engine (tsyncMark s engine) (olderActs s) }))) s

/-- A waiting instruction of bank F completes. -/
def completeF (l : Fin 52) (s : State) : State :=
  s.modLane l (fun x => { x with st := .running, f := { x.f with pc := x.f.pc + 4 } })

/-- TSYNC_COMPLETE. -/
def execTsyncComplete (l : Fin 52) (s : State) : Result :=
  .next (
    let x := s.lane l
    match x.st with
    | .tsync e mark olds => if tsyncOver s e mark olds ∧ ¬ x.inG ∧ ¬ x.halted then completeF l s else s
    | _ => s)

/-! ### wait and yield (R130) -/

/-- WAIT. -/
def execWait (l : Fin 52) (s : State) : Result :=
  stateOp l (.wait l) (untimed .ks) 0 (fun s =>
    if waitOver s l (s.lane l).k then .next s else .done (s.modLane l (fun x => { x with st := .waiting }))) s

/-- WAIT_COMPLETE. -/
def execWaitComplete (l : Fin 52) (s : State) : Result :=
  .next (
    let x := s.lane l
    if x.st = .waiting ∧ ¬ x.inG ∧ ¬ x.halted ∧ ¬ x.gated ∧ waitOver s l x.k then completeF l s else s)

/-- Reads `n` bytes at a virtual address for the module, byte by byte (R299). -/
def readVirtual (l : Fin 52) : Nat → Nat → State → Except Trap (List Byte) × State
  | 0, _, s => (.ok [], s)
  | n + 1, va, s =>
    match translate l va .r s with
    | (.error t, s) => (.error t, s)
    | (.ok p, s) =>
      match loadPiece l false p 1 s with
      | (.error t, s) => (.error t, s)
      | (.ok v, s) =>
        match readVirtual l n (va + 1) s with
        | (.error t, s) => (.error t, s)
        | (.ok bs, s) => (.ok (BitVec.ofNat 8 v :: bs), s)

/-- A kernel activation ends at yield, with the alarm record that g1 = 1 announces at g2 (R299). -/
def kernelYield (l : Fin 52) (a : Fin 8) (s : State) : Ans :=
  let x := s.lane l
  let alm := ((x.ticket.bind (ticketOf s.wams)).map (·.alm)).getD false
  if alm ∧ x.f.reg 1 = 1 then
    match readVirtual l 32 (x.f.reg 2).toNat s with
    | (.error t, s) => .trap t s
    | (.ok r, s) => .done (kernelEnd a (some r) s)
  else .done (kernelEnd a none s)

/-- What yield does in bank F. -/
def yieldF (l : Fin 52) (s : State) : Ans :=
  let x := s.lane l
  if h : 44 ≤ l.val ∧ x.ticket.isSome then kernelYield l ⟨l.val - 44, by omega⟩ s
  else
    match (if x.f.status.mode = .t then x.cur.bind (·.2) else none) with
    | some t => .done (endActivationF l t s)
    | none => .done (dispatch l true (s.setPc l (x.f.pc + 4)))

/-- YIELD. -/
def execYieldLane (l : Fin 52) (s : State) : Result :=
  let k : Kind := if (s.lane l).inG then plain else untimed .all
  stateOp l (.yieldLane l) k 2 (fun s => if (s.lane l).inG then .done (finishRun l s) else yieldF l s) s

/-! ### Calls and returns (R98, R131) -/

/-- SYS_CALL. -/
def execSysCall (l : Fin 52) (imm : BitVec 8) (s : State) : Result :=
  let i : Instr := .sysCall l imm
  stateOp l i (untimed .all) 0 (fun s =>
    .trap (wordTrap (if (s.lane l).mode = .t then .callT else .callK) (instrWord i) imm.toNat) s) s

/-- BREAK. -/
def execBrk (l : Fin 52) (imm : BitVec 8) (s : State) : Result :=
  let i : Instr := .brk l imm
  stateOp l i (untimed .all) 0 (fun s => .trap (wordTrap .brk (instrWord i) imm.toNat) s) s

/-- The saved STATUS that eret restores. -/
def savedStatus (x : Lane) : Nat := (if x.mode = .k then x.k.kestatus else x.sr.sestatus).toNat

/-- STATUS after eret: no timed window reopens; XOFF is not K's to change (R74, R98). -/
def eretStatus (x : Lane) (v : Nat) : Status :=
  { xoff := if x.mode = .k then x.f.status.xoff else bitOf v 7, timed := false, mode := modeOf (bitsOf v 3 2),
    exl := bitOf v 2, bet := bitOf v 1, ie := bitOf v 0 }

/-- ERET. -/
def execEret (l : Fin 52) (s : State) : Result :=
  let x := s.lane l
  let k := { untimed .ks with badMode := x.mode != .t && !supportsMode l (modeOf (bitsOf (savedStatus x) 3 2)) }
  stateOp l (.eret l) k 0 (fun s =>
    let x := s.lane l
    .goto (if x.mode = .k then x.k.kepc else x.sr.sepc)
      (s.modLane l (fun x => { x with f := { x.f with status := eretStatus x (savedStatus x) } }))) s

/-! ### sys.ipi (R107, R131) -/

/-- The absent unit of an addressed lane (R107). -/
def absentLane (s : State) (g lane : Nat) : Option Nat :=
  if 8 ≤ lane then none
  else if g = 9 ∧ ¬ s.dieW then some 0
  else if g = 2 ∧ ¬ s.clusterFitted 2 then some 2
  else if g = 3 ∧ ¬ s.clusterFitted 3 then some 3
  else none

/-- IPI is latched on a lane whose domain is ON. -/
def sendIpi (sender : Nat) (id : Nat) (s : State) : State :=
  match laneOfId id with
  | none => s
  | some t =>
    if (isCluster t && !s.domOn (laneGroup t)) || (s.lane t).st == .off then s
    else s.modLane t (fun x => { x with ipi := some sender })

/-- SYS_IPI. -/
def execSysIpi (l : Fin 52) (rs1 : Fin 32) (s : State) : Result :=
  let id := ((s.lane l).bank.reg rs1).toNat % 256
  stateOp l (.sysIpi l rs1) { untimed .s with absent := absentLane s (id / 16) (id % 16) } 0
    (fun s => .next (sendIpi (laneIdOf l) id s)) s

/-! ### Translation buffer and pins (R132, R133) -/

/-- TLB_INV. -/
def execTlbInv (l : Fin 52) (rd rs1 : Fin 32) (imm : BitVec 12) (s : State) : Result :=
  let m := imm.toNat
  let absent := if bitOf m 3 then absentLane s (bitsOf m 7 3) 0 else none
  stateOp l (.tlbInv l rd rs1 imm) { untimed .ks with absent := absent } 0 (fun s =>
    let x := s.lane l
    let a := (x.f.reg rs1).toNat
    let d := (x.f.reg rd).toNat
    let scope := m % 4
    let own := if x.mode = .k then some x.f.vmid.toNat else none
    let hits := invHits own scope (a % 2 ^ 27) (d % 256) (if scope < 2 then bitsOf d 8 8 else a % 256)
    .next (s.each (invLanes s l m) (tlbDrop hits))) s

/-- TLB_PIN. -/
def execTlbPin (l : Fin 52) (rd rs1 : Fin 32) (s : State) : Result :=
  stateOp l (.tlbPin l rd rs1) (untimed .s) 0 (fun s =>
    let x := s.lane l
    let d := (x.f.reg rd).toNat
    if bitsOf d 16 16 ≠ 0 ∨ bitsOf d 4 4 ≠ 0 then .next (s.modBank l (Bank.setReg rd 0xFFFFFFFF))
    else loadEnd l (fun v => Bank.setReg rd (w32 v))
      (pinOp l ((x.f.reg rs1).toNat % 2 ^ 27) (bitsOf d 8 8) (Fin.ofNat 16 d) s)) s

/-- TLB_UNPIN. -/
def execTlbUnpin (l : Fin 52) (rs1 : Fin 32) (all : Bool) (s : State) : Result :=
  stateOp l (.tlbUnpin l rs1 all) (untimed .s) 0 (fun s =>
    let slot := Fin.ofNat 16 ((s.lane l).f.reg rs1).toNat
    .next (s.each (if all then List.finRange 16 else [slot]) (fun i => setPin l i none))) s

/-! ### alk (R134, R298) -/

/-- Kernel instructions need die W. -/
def alkKind (s : State) : Kind := { untimed .ks with absent := if s.dieW then none else some 0 }

/-- ALK_POST: the descriptor is read as one naturally aligned load of 64 bytes. -/
def execAlkPost (l : Fin 52) (rd rs1 : Fin 32) (s : State) : Result :=
  .next (issue l (.alkPost l rd rs1) (alkKind s) (fun s =>
    memPlan l .r ((s.lane l).bank.reg rs1).toNat 64 0 0 (fun p s =>
      match loadBytes l false p 64 s with
      | (.error t, s) => .trap t s
      | (.ok v, s) =>
        let x := s.lane l
        let (t, s) := kernelPost (leBytes 64 v) x.f.vmid.toNat x.k.asid.toNat x.k.st1root.toNat x.k.st2root.toNat s
        .next (s.modBank l (Bank.setReg rd (w32 t)))) s) s)

/-- ALK_POLL. -/
def execAlkPoll (l : Fin 52) (rd rs1 : Fin 32) (s : State) : Result :=
  stateOp l (.alkPoll l rd rs1) (alkKind s) 0 (fun s =>
    .next (s.modBank l (Bank.setReg rd (w32 (kernelPoll s ((s.lane l).bank.reg rs1).toNat))))) s

/-! ### Illegal words (R63, R108) -/

/-- ILLEGAL_INSTRUCTION: the fetched word is none that the lane implements. -/
def execIllegalInstruction (l : Fin 52) (word : Word) (s : State) : Result :=
  .next (
    if illegalWord l (isCluster l) word.toNat then
      issueWord l word.toNat false plain (fun s => (.ok ⟨0, none, .next⟩, s)) s
    else s)

/-! ### Handshake watchdog (R18, R19) -/

/-- The access a watchdog ends, towards its requester: an outstanding load of a lane ends with TIMEOUT, another access with
the completion. -/
def timeoutReply (rq : Req) (addr : Nat) (s : State) : State :=
  match laneOfId rq.id with
  | some l =>
    match (if rq.bankG then none else (s.lane l).out) with
    | some o =>
      let s := s.modLane l (fun x => { x with out := none })
      if o.dev ∧ ¬ (s.lane l).f.status.bet then
        (noteResp l false .timeout s).modLane l
          (Lane.modOf false (fun b => { loadReg o.rd o.bytes true (2 ^ 64 - 1) b with pc := b.pc + 4 }))
      else takeF l (busTrap .loadBus .timeout addr) false s
    | none => s.complete .timeout 0
  | none => s.complete .timeout 0

/-- HANDSHAKE_WATCHDOG_EXPIRY: TIMEOUT to the requester, the fault syndrome with the channel's kind and virtual channel, an
event with the syndrome, and check 1 of an active cluster. -/
def execHandshakeWatchdogExpiry (rq : Req) (addr : Nat) (kind : AccKind) (vc chan : Nat) (cluster : Option (Fin 5))
    (lane : Nat) (s : State) : Result :=
  .next (
    let first := ¬ s.fbit SYS_FSYND0_VALID
    let s := s.recordFault rq addr kind .timeout 0xF chan
    let s := if first then s.fset SYS_FSYND0_VC vc else s
    let s := s.log' SYS_FCNT_TMO false 5 rq.vmid s.syndrome
    let s := timeoutReply rq addr s
    match cluster with
    | some g => if s.domOn g then relinquish g 1 (lane % 16) 4 s else s
    | none => s)

end Sys2Proof.Machine
end

