-- ==== Sys2Proof/Machine/Dispatch.lean ====
section
/-! DEFINITION. One arm per command: a direct call of its meaning. -/
namespace Sys2Proof.Machine

/-- The effect of a command on everything but the queue. -/
def exec (i : Instr) (s : State) : Host.Outcome State Fault Refusal :=
  match i with
  | .registerWrite rq addr size v => Sys2Proof.Machine.execRegisterWrite rq addr size v s
  | .rcRegisterRead rq addr => Sys2Proof.Machine.execRcRegisterRead rq addr s
  | .octetCounterLowRead rq port tx => Sys2Proof.Machine.execOctetCounterLowRead rq port tx s
  | .handshakeWatchdogExpiry rq addr kind vc chan cluster lane => Sys2Proof.Machine.execHandshakeWatchdogExpiry rq addr kind vc chan cluster lane s
  | .beatPllReferenceLoss => Sys2Proof.Machine.execBeatPllReferenceLoss s
  | .locketCardInserted => Sys2Proof.Machine.execLocketCardInserted s
  | .locketCardRemoved => Sys2Proof.Machine.execLocketCardRemoved s
  | .tbIncrWrite rq v => Sys2Proof.Machine.execTbIncrWrite rq v s
  | .tbStepRequest rq v => Sys2Proof.Machine.execTbStepRequest rq v s
  | .tbSet rq v => Sys2Proof.Machine.execTbSet rq v s
  | .tbInval rq v => Sys2Proof.Machine.execTbInval rq v s
  | .ocxoWarm => Sys2Proof.Machine.execOcxoWarm s
  | .tbReferenceLost => Sys2Proof.Machine.execTbReferenceLost s
  | .tbReferenceRelock => Sys2Proof.Machine.execTbReferenceRelock s
  | .tbNowLatch rq => Sys2Proof.Machine.execTbNowLatch rq s
  | .tsqEntryRead rq => Sys2Proof.Machine.execTsqEntryRead rq s
  | .launchFrameArrival port handle => Sys2Proof.Machine.execLaunchFrameArrival port handle s
  | .launchSlotOpen port => Sys2Proof.Machine.execLaunchSlotOpen port s
  | .tdcEdge k rise raw => Sys2Proof.Machine.execTdcEdge k rise raw s
  | .tdcResultRead rq k => Sys2Proof.Machine.execTdcResultRead rq k s
  | .tbTdcctlWrite rq k v => Sys2Proof.Machine.execTbTdcctlWrite rq k v s
  | .aluOp l op rd rs1 rs2 => Sys2Proof.Machine.execAluOp l op rd rs1 rs2 s
  | .mulOp l op rd rs1 rs2 => Sys2Proof.Machine.execMulOp l op rd rs1 rs2 s
  | .divOp l op rd rs1 rs2 => Sys2Proof.Machine.execDivOp l op rd rs1 rs2 s
  | .immediateOp l op rd rs1 imm => Sys2Proof.Machine.execImmediateOp l op rd rs1 imm s
  | .shiftImmediate l op rd rs1 sh => Sys2Proof.Machine.execShiftImmediate l op rd rs1 sh s
  | .movHi l rd imm => Sys2Proof.Machine.execMovHi l rd imm s
  | .pcHi l rd imm => Sys2Proof.Machine.execPcHi l rd imm s
  | .load l op rd rs1 imm split => Sys2Proof.Machine.execLoad l op rd rs1 imm split s
  | .store l op rd rs1 imm => Sys2Proof.Machine.execStore l op rd rs1 imm s
  | .vLd l d rs1 imm => Sys2Proof.Machine.execVLd l d rs1 imm s
  | .vSt l d rs1 imm => Sys2Proof.Machine.execVSt l d rs1 imm s
  | .loadResponse l => Sys2Proof.Machine.execLoadResponse l s
  | .bufferedStoreComplete l bankG slot => Sys2Proof.Machine.execBufferedStoreComplete l bankG slot s
  | .postedBusError l bankG slot rsp => Sys2Proof.Machine.execPostedBusError l bankG slot rsp s
  | .interruptTake l => Sys2Proof.Machine.execInterruptTake l s
  | .branch l op rs1 rs2 off => Sys2Proof.Machine.execBranch l op rs1 rs2 off s
  | .jmp l off => Sys2Proof.Machine.execJmp l off s
  | .call l off => Sys2Proof.Machine.execCall l off s
  | .jmpR l rd rs1 imm => Sys2Proof.Machine.execJmpR l rd rs1 imm s
  | .atomic l op h rel acq rd rs1 rs2 => Sys2Proof.Machine.execAtomic l op h rel acq rd rs1 rs2 s
  | .f32Op l op rd rs1 rs2 => Sys2Proof.Machine.execF32Op l op rd rs1 rs2 s
  | .vectorOp l op d a b e => Sys2Proof.Machine.execVectorOp l op d a b e s
  | .cmul l cf d a b => Sys2Proof.Machine.execCmul l cf d a b s
  | .cconj l cf d a => Sys2Proof.Machine.execCconj l cf d a s
  | .cmag l e d a => Sys2Proof.Machine.execCmag l e d a s
  | .cang l e d a => Sys2Proof.Machine.execCang l e d a s
  | .cmac l d a b => Sys2Proof.Machine.execCmac l d a b s
  | .cmacC l d a b => Sys2Proof.Machine.execCmacC l d a b s
  | .acClr l d => Sys2Proof.Machine.execAcClr l d s
  | .acRd l e d a sh => Sys2Proof.Machine.execAcRd l e d a sh s
  | .imgLd l op rd rs1 rs2 imm => Sys2Proof.Machine.execImgLd l op rd rs1 rs2 imm s
  | .imgSt l op rd rs1 rs2 imm => Sys2Proof.Machine.execImgSt l op rd rs1 rs2 imm s
  | .imgSet l rs1 rs2 imm => Sys2Proof.Machine.execImgSet l rs1 rs2 imm s
  | .imgClr l rs1 rs2 imm => Sys2Proof.Machine.execImgClr l rs1 rs2 imm s
  | .tmrTon l rd rs1 rs2 imm => Sys2Proof.Machine.execTmrTon l rd rs1 rs2 imm s
  | .tmrTof l rd rs1 rs2 imm => Sys2Proof.Machine.execTmrTof l rd rs1 rs2 imm s
  | .tmrTp l rd rs1 rs2 imm => Sys2Proof.Machine.execTmrTp l rd rs1 rs2 imm s
  | .tmrRst l rd rs1 imm => Sys2Proof.Machine.execTmrRst l rd rs1 imm s
  | .edgR l rd rs1 rs2 imm => Sys2Proof.Machine.execEdgR l rd rs1 rs2 imm s
  | .edgF l rd rs1 rs2 imm => Sys2Proof.Machine.execEdgF l rd rs1 rs2 imm s
  | .edgB l rd rs1 rs2 imm => Sys2Proof.Machine.execEdgB l rd rs1 rs2 imm s
  | .edgInit l rd rs1 rs2 imm => Sys2Proof.Machine.execEdgInit l rd rs1 rs2 imm s
  | .bezOpen l => Sys2Proof.Machine.execBezOpen l s
  | .bezClose l rd => Sys2Proof.Machine.execBezClose l rd s
  | .chkCommit l rs1 imm => Sys2Proof.Machine.execChkCommit l rs1 imm s
  | .chkSize l rd => Sys2Proof.Machine.execChkSize l rd s
  | .fence l => Sys2Proof.Machine.execFence l s
  | .fenceW l => Sys2Proof.Machine.execFenceW l s
  | .fenceI l => Sys2Proof.Machine.execFenceI l s
  | .tsync l engine => Sys2Proof.Machine.execTsync l engine s
  | .tsyncComplete l => Sys2Proof.Machine.execTsyncComplete l s
  | .wait l => Sys2Proof.Machine.execWait l s
  | .waitComplete l => Sys2Proof.Machine.execWaitComplete l s
  | .yieldLane l => Sys2Proof.Machine.execYieldLane l s
  | .sysRd l rd num => Sys2Proof.Machine.execSysRd l rd num s
  | .sysWr l rs1 num => Sys2Proof.Machine.execSysWr l rs1 num s
  | .sysCall l imm => Sys2Proof.Machine.execSysCall l imm s
  | .brk l imm => Sys2Proof.Machine.execBrk l imm s
  | .eret l => Sys2Proof.Machine.execEret l s
  | .sysIpi l rs1 => Sys2Proof.Machine.execSysIpi l rs1 s
  | .tlbInv l rd rs1 imm => Sys2Proof.Machine.execTlbInv l rd rs1 imm s
  | .tlbPin l rd rs1 => Sys2Proof.Machine.execTlbPin l rd rs1 s
  | .tlbUnpin l rs1 all => Sys2Proof.Machine.execTlbUnpin l rs1 all s
  | .alkPost l rd rs1 => Sys2Proof.Machine.execAlkPost l rd rs1 s
  | .alkPoll l rd rs1 => Sys2Proof.Machine.execAlkPoll l rd rs1 s
  | .rateWrite rq v => Sys2Proof.Machine.execRateWrite rq v s
  | .glideComplete => Sys2Proof.Machine.execGlideComplete s
  | .optgtWrite rq v => Sys2Proof.Machine.execOptgtWrite rq v s
  | .rampStart => Sys2Proof.Machine.execRampStart s
  | .rampComplete => Sys2Proof.Machine.execRampComplete s
  | .op4HotExit => Sys2Proof.Machine.execOp4HotExit s
  | .hotClear => Sys2Proof.Machine.execHotClear s
  | .slackReading c lane slack => Sys2Proof.Machine.execSlackReading c lane slack s
  | .bezelSlackRead rq c => Sys2Proof.Machine.execBezelSlackRead rq c s
  | .quantumExpiry l => Sys2Proof.Machine.execQuantumExpiry l s
  | .sourceFire c => Sys2Proof.Machine.execSourceFire c s
  | .waitingReleaseStart l => Sys2Proof.Machine.execWaitingReleaseStart l s
  | .class0Overrun l => Sys2Proof.Machine.execClass0Overrun l s
  | .admission rq v => Sys2Proof.Machine.execAdmission rq v s
  | .revoke rq v => Sys2Proof.Machine.execRevoke rq v s
  | .reservationFrameEnd dir sent => Sys2Proof.Machine.execReservationFrameEnd dir sent s
  | .arbiterGrant a arrivals => Sys2Proof.Machine.execArbiterGrant a arrivals s
  | .class1Release task => Sys2Proof.Machine.execClass1Release task s
  | .class1DeadlineMiss task => Sys2Proof.Machine.execClass1DeadlineMiss task s
  | .checkpointSeal task => Sys2Proof.Machine.execCheckpointSeal task s
  | .takeup rq => Sys2Proof.Machine.execTakeup rq s
  | .exchange rq => Sys2Proof.Machine.execExchange rq s
  | .exchangeValidated => Sys2Proof.Machine.execExchangeValidated s
  | .stopTask rq => Sys2Proof.Machine.execStopTask rq s
  | .restart rq => Sys2Proof.Machine.execRestart rq s
  | .dropTask rq => Sys2Proof.Machine.execDropTask rq s
  | .frameReceive port fr => Sys2Proof.Machine.execFrameReceive port fr s
  | .streamMissLookupDone => Sys2Proof.Machine.execStreamMissLookupDone s
  | .portFrameStart port => Sys2Proof.Machine.execPortFrameStart port s
  | .frameTransmitComplete port => Sys2Proof.Machine.execFrameTransmitComplete port s
  | .t1sCollision late => Sys2Proof.Machine.execT1sCollision late s
  | .t1sBackoffExpiry => Sys2Proof.Machine.execT1sBackoffExpiry s
  | .linkStateChange port link sigLos pcsLock => Sys2Proof.Machine.execLinkStateChange port link sigLos pcsLock s
  | .portDisable rq port v => Sys2Proof.Machine.execPortDisable rq port v s
  | .streamUpdate rq index => Sys2Proof.Machine.execStreamUpdate rq index s
  | .streamActivate rq => Sys2Proof.Machine.execStreamActivate rq s
  | .streamActivateDone => Sys2Proof.Machine.execStreamActivateDone s
  | .streamFlush rq => Sys2Proof.Machine.execStreamFlush rq s
  | .frameAgeOut port q => Sys2Proof.Machine.execFrameAgeOut port q s
  | .residueService => Sys2Proof.Machine.execResidueService s
  | .auditorVisit => Sys2Proof.Machine.execAuditorVisit s
  | .replayGo rq v => Sys2Proof.Machine.execReplayGo rq v s
  | .replayDone => Sys2Proof.Machine.execReplayDone s
  | .netswC0useRead rq => Sys2Proof.Machine.execNetswC0useRead rq s
  | .txRingFrame ring => Sys2Proof.Machine.execTxRingFrame ring s
  | .sfeFrameIngest => Sys2Proof.Machine.execSfeFrameIngest s
  | .setWindowExpiry group => Sys2Proof.Machine.execSetWindowExpiry group s
  | .groupCompletion group => Sys2Proof.Machine.execGroupCompletion group s
  | .groupLost group => Sys2Proof.Machine.execGroupLost group s
  | .sfeUpdate rq v => Sys2Proof.Machine.execSfeUpdate rq v s
  | .sfeClear rq v => Sys2Proof.Machine.execSfeClear rq v s
  | .c37FrameIngest => Sys2Proof.Machine.execC37FrameIngest s
  | .feedRingSlot => Sys2Proof.Machine.execFeedRingSlot s
  | .localRecordIngest => Sys2Proof.Machine.execLocalRecordIngest s
  | .bucketDeadline => Sys2Proof.Machine.execBucketDeadline s
  | .alarmFrame => Sys2Proof.Machine.execAlarmFrame s
  | .wamsEnable rq v => Sys2Proof.Machine.execWamsEnable rq v s
  | .wamsUpdate rq v => Sys2Proof.Machine.execWamsUpdate rq v s
  | .wamsFlush rq v => Sys2Proof.Machine.execWamsFlush rq v s
  | .detectorReset rq v => Sys2Proof.Machine.execDetectorReset rq v s
  | .kernelActivationStart a => Sys2Proof.Machine.execKernelActivationStart a s
  | .kernelMaxtExpiry a => Sys2Proof.Machine.execKernelMaxtExpiry a s
  | .kernelCancel rq v => Sys2Proof.Machine.execKernelCancel rq v s
  | .claspFrameReceive port fr => Sys2Proof.Machine.execClaspFrameReceive port fr s
  | .echoRequestSend port => Sys2Proof.Machine.execEchoRequestSend port s
  | .timeFrameSend => Sys2Proof.Machine.execTimeFrameSend s
  | .vpiUpdate rq index => Sys2Proof.Machine.execVpiUpdate rq index s
  | .shareIngressSwitch vmid => Sys2Proof.Machine.execShareIngressSwitch vmid s
  | .pubupd rq index => Sys2Proof.Machine.execPubupd rq index s
  | .subupd rq index => Sys2Proof.Machine.execSubupd rq index s
  | .startVpi rq index => Sys2Proof.Machine.execStartVpi rq index s
  | .freeze rq index => Sys2Proof.Machine.execFreeze rq index s
  | .freezeDone vmid => Sys2Proof.Machine.execFreezeDone vmid s
  | .thaw rq index => Sys2Proof.Machine.execThaw rq index s
  | .resetVpi rq index => Sys2Proof.Machine.execResetVpi rq index s
  | .vpiResetDone vmid => Sys2Proof.Machine.execVpiResetDone vmid s
  | .gooseRetransmit pub => Sys2Proof.Machine.execGooseRetransmit pub s
  | .gooseSubscribe => Sys2Proof.Machine.execGooseSubscribe s
  | .gooseTalExpiry sub => Sys2Proof.Machine.execGooseTalExpiry sub s
  | .heartbeatMissing g => Sys2Proof.Machine.execHeartbeatMissing g s
  | .beatcntMismatch l => Sys2Proof.Machine.execBeatcntMismatch l s
  | .vcompFault g => Sys2Proof.Machine.execVcompFault g s
  | .sparePowerUpDone => Sys2Proof.Machine.execSparePowerUpDone s
  | .sparePowerTimeout => Sys2Proof.Machine.execSparePowerTimeout s
  | .drill rq v => Sys2Proof.Machine.execDrill rq v s
  | .drillBoundary => Sys2Proof.Machine.execDrillBoundary s
  | .cancel rq => Sys2Proof.Machine.execCancel rq s
  | .resync rq => Sys2Proof.Machine.execResync rq s
  | .resyncDone pass test => Sys2Proof.Machine.execResyncDone pass test s
  | .domainCommand rq v => Sys2Proof.Machine.execDomainCommand rq v s
  | .domainChangeDone dom => Sys2Proof.Machine.execDomainChangeDone dom s
  | .governorGrant confirmed => Sys2Proof.Machine.execGovernorGrant confirmed s
  | .unitIdleGate u => Sys2Proof.Machine.execUnitIdleGate u s
  | .unitWake u => Sys2Proof.Machine.execUnitWake u s
  | .accountTick energy => Sys2Proof.Machine.execAccountTick energy s
  | .temperatureReading c f n w cp => Sys2Proof.Machine.execTemperatureReading c f n w cp s
  | .class1MineHold task energy => Sys2Proof.Machine.execClass1MineHold task energy s
  | .wakeSource src => Sys2Proof.Machine.execWakeSource src s
  | .standbyEntry => Sys2Proof.Machine.execStandbyEntry s
  | .standbyTimeout => Sys2Proof.Machine.execStandbyTimeout s
  | .supplyInputChange a b => Sys2Proof.Machine.execSupplyInputChange a b s
  | .holdupUpdate t => Sys2Proof.Machine.execHoldupUpdate t s
  | .sfwClear => Sys2Proof.Machine.execSfwClear s
  | .aonSupplyLoss => Sys2Proof.Machine.execAonSupplyLoss s
  | .ocxoActive => Sys2Proof.Machine.execOcxoActive s
  | .pllLock n => Sys2Proof.Machine.execPllLock n s
  | .pllReferenceLoss n => Sys2Proof.Machine.execPllReferenceLoss n s
  | .movebeat rq => Sys2Proof.Machine.execMovebeat rq s
  | .movemgt rq => Sys2Proof.Machine.execMovemgt rq s
  | .claim rq idx owner => Sys2Proof.Machine.execClaim rq idx owner s
  | .ownershipRelease rq idx owner => Sys2Proof.Machine.execOwnershipRelease rq idx owner s
  | .eventRecordWrite => Sys2Proof.Machine.execEventRecordWrite s
  | .viewFirst rq self => Sys2Proof.Machine.execViewFirst rq self s
  | .viewNext rq self => Sys2Proof.Machine.execViewNext rq self s
  | .viewSeek rq self => Sys2Proof.Machine.execViewSeek rq self s
  | .viewRelatch rq self => Sys2Proof.Machine.execViewRelatch rq self s
  | .viewRelease rq self => Sys2Proof.Machine.execViewRelease rq self s
  | .viewPost rq self v => Sys2Proof.Machine.execViewPost rq self v s
  | .acqUpdate rq rec => Sys2Proof.Machine.execAcqUpdate rq rec s
  | .arm rq rec => Sys2Proof.Machine.execArm rq rec s
  | .disarm rq rec => Sys2Proof.Machine.execDisarm rq rec s
  | .trig rq rec => Sys2Proof.Machine.execTrig rq rec s
  | .freeSeg rq rec seg => Sys2Proof.Machine.execFreeSeg rq rec seg s
  | .acqRowWrite rec => Sys2Proof.Machine.execAcqRowWrite rec s
  | .acqRowDeadline rec => Sys2Proof.Machine.execAcqRowDeadline rec s
  | .mailboxSend rq v => Sys2Proof.Machine.execMailboxSend rq v s
  | .mailboxResponse => Sys2Proof.Machine.execMailboxResponse s
  | .mailboxTimeout => Sys2Proof.Machine.execMailboxTimeout s
  | .locketFeedFrame => Sys2Proof.Machine.execLocketFeedFrame s
  | .ident => Sys2Proof.Machine.execIdent s
  | .locketStatus => Sys2Proof.Machine.execLocketStatus s
  | .readPoint => Sys2Proof.Machine.execReadPoint s
  | .readHallmark => Sys2Proof.Machine.execReadHallmark s
  | .readLog => Sys2Proof.Machine.execReadLog s
  | .readParam => Sys2Proof.Machine.execReadParam s
  | .paramWrite => Sys2Proof.Machine.execParamWrite s
  | .fwChunk => Sys2Proof.Machine.execFwChunk s
  | .commit => Sys2Proof.Machine.execCommit s
  | .sealSwitchOpen => Sys2Proof.Machine.execSealSwitchOpen s
  | .sealSwitchClose => Sys2Proof.Machine.execSealSwitchClose s
  | .locketPowerUp => Sys2Proof.Machine.execLocketPowerUp s
  | .locketPeriodicSave => Sys2Proof.Machine.execLocketPeriodicSave s
  | .locketSupplyFail => Sys2Proof.Machine.execLocketSupplyFail s
  | .demandIntervalEnd => Sys2Proof.Machine.execDemandIntervalEnd s
  | .advance rq v => Sys2Proof.Machine.execAdvance rq v s
  | .rma rq v => Sys2Proof.Machine.execRma rq v s
  | .scrap rq v => Sys2Proof.Machine.execScrap rq v s
  | .lifeCycleReset => Sys2Proof.Machine.execLifeCycleReset s
  | .dbgopen rq v => Sys2Proof.Machine.execDbgopen rq v s
  | .progroot rq v => Sys2Proof.Machine.execProgroot rq v s
  | .svnup rq v => Sys2Proof.Machine.execSvnup rq v s
  | .challenge rq v => Sys2Proof.Machine.execChallenge rq v s
  | .progkey rq v => Sys2Proof.Machine.execProgkey rq v s
  | .bootKeyRevoke rq v => Sys2Proof.Machine.execBootKeyRevoke rq v s
  | .writeKey rq v => Sys2Proof.Machine.execWriteKey rq v s
  | .derive rq v => Sys2Proof.Machine.execDerive rq v s
  | .invalidate rq v => Sys2Proof.Machine.execInvalidate rq v s
  | .setlink rq v => Sys2Proof.Machine.execSetlink rq v s
  | .keyRemask => Sys2Proof.Machine.execKeyRemask s
  | .rngHealthFail => Sys2Proof.Machine.execRngHealthFail s
  | .keyRngRead rq => Sys2Proof.Machine.execKeyRngRead rq s
  | .dramWipeDone => Sys2Proof.Machine.execDramWipeDone s
  | .canFrameReceive bus fr => Sys2Proof.Machine.execCanFrameReceive bus fr s
  | .canFrameSent bus obj => Sys2Proof.Machine.execCanFrameSent bus obj s
  | .canTxError bus obj e => Sys2Proof.Machine.execCanTxError bus obj e s
  | .recover rq bus v => Sys2Proof.Machine.execRecover rq bus v s
  | .canRecoveryDone bus => Sys2Proof.Machine.execCanRecoveryDone bus s
  | .iobusUpdate rq index => Sys2Proof.Machine.execIobusUpdate rq index s
  | .objConfig rq => Sys2Proof.Machine.execObjConfig rq s
  | .objLatch rq => Sys2Proof.Machine.execObjLatch rq s
  | .objSend rq => Sys2Proof.Machine.execObjSend rq s
  | .objClear rq => Sys2Proof.Machine.execObjClear rq s
  | .ioGroupRefresh group => Sys2Proof.Machine.execIoGroupRefresh group s
  | .slotPresenceClose slot => Sys2Proof.Machine.execSlotPresenceClose slot s
  | .slotDebounceDone slot identity => Sys2Proof.Machine.execSlotDebounceDone slot identity s
  | .slotEnable slot => Sys2Proof.Machine.execSlotEnable slot s
  | .slotPresenceOpen slot => Sys2Proof.Machine.execSlotPresenceOpen slot s
  | .slotForce rq slot v => Sys2Proof.Machine.execSlotForce rq slot v s
  | .sfpInsert cage a0 => Sys2Proof.Machine.execSfpInsert cage a0 s
  | .sfpRead rq v data => Sys2Proof.Machine.execSfpRead rq v data s
  | .sfpWrite rq v ack => Sys2Proof.Machine.execSfpWrite rq v ack s
  | .cageOvercurrent cage => Sys2Proof.Machine.execCageOvercurrent cage s
  | .dtripArmWrite rq v => Sys2Proof.Machine.execDtripArmWrite rq v s
  | .dtripTestWrite rq v => Sys2Proof.Machine.execDtripTestWrite rq v s
  | .dtOutChange line out => Sys2Proof.Machine.execDtOutChange line out s
  | .dtReadbackMismatch line => Sys2Proof.Machine.execDtReadbackMismatch line s
  | .biDebouncedChange line level => Sys2Proof.Machine.execBiDebouncedChange line level s
  | .biPeriodWrite => Sys2Proof.Machine.execBiPeriodWrite s
  | .bicfgWrite rq k v => Sys2Proof.Machine.execBicfgWrite rq k v s
  | .xtEdge line rise => Sys2Proof.Machine.execXtEdge line rise s
  | .xtdrvWrite rq v => Sys2Proof.Machine.execXtdrvWrite rq v s
  | .xtPulseEnd line => Sys2Proof.Machine.execXtPulseEnd line s
  | .powerOnReset => Sys2Proof.Machine.execPowerOnReset s
  | .warmReset cause => Sys2Proof.Machine.execWarmReset cause s
  | .sysRstcmdWrite rq v => Sys2Proof.Machine.execSysRstcmdWrite rq v s
  | .watchdogExpiry => Sys2Proof.Machine.execWatchdogExpiry s
  | .watchdogHalf => Sys2Proof.Machine.execWatchdogHalf s
  | .sysWdogWrite rq v => Sys2Proof.Machine.execSysWdogWrite rq v s
  | .sysWdkickWrite rq v => Sys2Proof.Machine.execSysWdkickWrite rq v s
  | .sysLanerelWrite rq v => Sys2Proof.Machine.execSysLanerelWrite rq v s
  | .crcSeedWrite rq v => Sys2Proof.Machine.execCrcSeedWrite rq v s
  | .crcDataWrite rq v => Sys2Proof.Machine.execCrcDataWrite rq v s
  | .debugHaltRequest => Sys2Proof.Machine.execDebugHaltRequest s
  | .debugResetRequest => Sys2Proof.Machine.execDebugResetRequest s
  | .commandComplete blk => Sys2Proof.Machine.execCommandComplete blk s
  | .illegalInstruction l word => Sys2Proof.Machine.execIllegalInstruction l word s
  | .cmpOutputChange k out => Sys2Proof.Machine.execCmpOutputChange k out s
  | .cageModuleRemoved cage => Sys2Proof.Machine.execCageModuleRemoved cage s
  | .locketSecondEnd => Sys2Proof.Machine.execLocketSecondEnd s
  | .mailboxLineLockChange locked => Sys2Proof.Machine.execMailboxLineLockChange locked s
  | .canRxError bus severe => Sys2Proof.Machine.execCanRxError bus severe s

end Sys2Proof.Machine
end

