-- ==== Sys2Proof/Safety.lean ====
section
/-! DEFINITION. The terms in which claims are made: that a command completes, that a lane can issue an instruction, what a
register access needs to be granted, what changes and what does not, and what the spec's tables say of integer, floating
and fixed-point results. -/
namespace Sys2Proof.Machine

/-! ### Completion and frames -/

/-- The command runs to a next state of which `P` holds. -/
def Completes (c : Instr) (s : State) (P : State → Prop) : Prop := ∃ t, exec c s = .next t ∧ P t

/-- The command leaves the state as it is. -/
def Ignored (c : Instr) (s : State) : Prop := exec c s = .next s

/-- Every register field but the listed ones reads as before. -/
def RegsExcept (fs : List Fld) (s t : State) : Prop := ∀ f : Fld, f.key ∉ fs.map Fld.key → t.fget f = s.fget f

/-- Two states agree in everything but one lane. -/
def OnlyLane (l : Fin 52) (s t : State) : Prop := t = { s with lanes := t.lanes } ∧ ∀ j, j ≠ l → t.lane j = s.lane j

/-- Memory holds `bs` from address `a` on and is otherwise unchanged. -/
def Stored (m m' : Mem) (a : Nat) (bs : List Byte) : Prop :=
  ∀ x, memGet m' x = if a ≤ x ∧ x < a + bs.length then bs.getD (x - a) 0 else memGet m x

/-- Every memory of the machine is in canonical form. -/
def MemsCanonical (s : State) : Prop :=
  Mem.wf s.mem = true ∧ Mem.wf s.pubMem = true ∧ Mem.wf s.retMem = true ∧ Mem.wf s.flash = true

/-! ### Register accesses -/

/-- A write of the register at `a` passes the steps of R472 before the block. -/
abbrev WriteGranted (rq : Req) (a : Nat) (s : State) : Prop := (s.gate rq.vmid a 4 true).rsp = .ok

/-- A read of the register at `a` passes the steps of R472 before the block. -/
abbrev ReadGranted (rq : Req) (a : Nat) (s : State) : Prop := (s.gate rq.vmid a 4 false).rsp = .ok

/-- An access completed normally towards its requester, a read with its word. -/
def Done (t : State) : Prop := t.resp = .ok

/-! ### Issue of instructions -/

/-- The state after the fetch of the instruction that lane `l` would issue. -/
def fetched (l : Fin 52) (s : State) : State := (fetch l s).2

/-- The fetch raises nothing. -/
def fetchOk (l : Fin 52) (s : State) : Bool :=
  match (fetch l s).1 with
  | .ok none => true
  | .ok (some _) => false
  | .error _ => false

/-- Lane `l` runs, has no posted error to take, fetches, implements `i` in its mode and window, and has beats for it. -/
abbrev Issues (l : Fin 52) (i : Instr) (k : Kind) (n : Nat) (s : State) : Prop :=
  (s.lane l).canRun = true ∧ ((s.lane l).inG = true ∨ (s.lane l).posted = []) ∧ fetchOk l s = true ∧ fieldsOk i = true ∧
    (clusterOnly (instrWord i / 2 ^ 26) = true → isCluster l = true) ∧ k.badMode = false ∧ k.absent = none ∧
    k.modes.allow (s.lane l).mode = true ∧ (k.untimed = true → (s.lane l).timed = false) ∧
    affords (s.lane l) n = true

/-- The bank the lane runs, once the instruction is fetched. -/
def bankAt (l : Fin 52) (s : State) : Bank := ((fetched l s).lane l).bank

/-- A lane with `n` beats of a timed window counted (R72, R128, R154). -/
def spentLane (n : Nat) (x : Lane) : Lane :=
  if x.inG then { x with beatcnt := x.beatcnt + w32 n, run := x.run.map (fun r => { r with beats := r.beats + n }) }
  else if x.f.status.timed then { x with beatcnt := x.beatcnt + w32 n, winBeats := x.winBeats + n }
  else x

/-- From `s` to `t` one instruction of `n` beats changed the running bank of lane `l` by `f`, and nothing else changed. -/
def BankStep (l : Fin 52) (n : Nat) (f : Bank → Bank) (s t : State) : Prop :=
  OnlyLane l s t ∧ t.lane l = (spentLane n (s.lane l)).modBank f

/-- The next instruction follows. -/
def onward (f : Bank → Bank) (b : Bank) : Bank := { f b with pc := b.pc + 4 }

/-- An instruction that changes its bank by `f` alone completes so. -/
def Runs (l : Fin 52) (i : Instr) (n : Nat) (f : Bank → Bank) (s : State) : Prop :=
  Completes i s (BankStep l n (onward f) (fetched l s))

/-! ### Integer results (R115, R116) -/

/-- The low 32 bits of an integer. -/
def wordOf (i : Int) : Word := BitVec.ofInt 32 i

/-- An integer held between the ends of the signed 32-bit range. -/
def sat32 (i : Int) : Int := max (-2147483648) (min 2147483647 i)

/-- What R115 says of `v`, the result of an ALU operation on `a` and `b`. -/
def AluSays (op : AluOp) (a b v : Word) : Prop :=
  match op with
  | .add => v.toNat = (a.toNat + b.toNat) % 2 ^ 32
  | .sub => v = wordOf (a.toInt - b.toInt)
  | .and => ∀ i, v.getLsbD i = (a.getLsbD i && b.getLsbD i)
  | .or => ∀ i, v.getLsbD i = (a.getLsbD i || b.getLsbD i)
  | .xor => ∀ i, v.getLsbD i = (a.getLsbD i ^^ b.getLsbD i)
  | .shl => v.toNat = a.toNat * 2 ^ (b.toNat % 32) % 2 ^ 32
  | .shr => v.toNat = a.toNat / 2 ^ (b.toNat % 32)
  | .sar => v.toInt = a.toInt / 2 ^ (b.toNat % 32)
  | .cmpLt => v.toNat = if a.toInt < b.toInt then 1 else 0
  | .cmpLtu => v.toNat = if a.toNat < b.toNat then 1 else 0
  | .min => v.toInt = min a.toInt b.toInt
  | .max => v.toInt = max a.toInt b.toInt
  | .minu => v.toNat = min a.toNat b.toNat
  | .maxu => v.toNat = max a.toNat b.toNat
  | .clz => v.toNat ≤ 32 ∧ a.toNat < 2 ^ (32 - v.toNat) ∧ (v.toNat < 32 → 2 ^ (31 - v.toNat) ≤ a.toNat)
  | .addsat => v.toInt = sat32 (a.toInt + b.toInt)
  | .subsat => v.toInt = sat32 (a.toInt - b.toInt)

/-- What R115 says of a product as far as one register holds it. -/
def MulSays (op : MulOp) (a b v : Word) : Prop :=
  match op with
  | .mul | .mulD => v.toNat = a.toNat * b.toNat % 2 ^ 32
  | .hss => v.toInt = a.toInt * b.toInt / 2 ^ 32
  | .huu => v.toNat = a.toNat * b.toNat / 2 ^ 32
  | .hsu => v.toInt = a.toInt * b.toNat / 2 ^ 32
  | .mulq => v.toInt = min 2147483647 ((a.toInt * b.toInt + 2 ^ 30) / 2 ^ 31)

/-- What R115 says of a quotient or remainder `v`, and whether IDV is set. -/
def DivSays (op : DivOp) (a b v : Word) (idv : Bool) : Prop :=
  match op with
  | .div =>
    if b.toNat = 0 then v.toInt = (if a.toInt < 0 then -2147483648 else 2147483647) ∧ idv = true
    else if a.toInt = -2147483648 ∧ b.toInt = -1 then v.toInt = 2147483647 ∧ idv = true
    else v.toInt = a.toInt.tdiv b.toInt ∧ idv = false
  | .divu => if b.toNat = 0 then v.toNat = 2 ^ 32 - 1 ∧ idv = true else v.toNat = a.toNat / b.toNat ∧ idv = false
  | .rem =>
    if b.toNat = 0 ∨ (a.toInt = -2147483648 ∧ b.toInt = -1) then v.toNat = 0 ∧ idv = true
    else v.toInt = a.toInt - b.toInt * a.toInt.tdiv b.toInt ∧ idv = false
  | .remu => if b.toNat = 0 then v.toNat = 0 ∧ idv = true else v.toNat = a.toNat % b.toNat ∧ idv = false

/-- The immediate of R110 as the operation of R116 reads it: zero-extended for the bitwise ones. -/
def immOf (op : ImmOp) (imm : BitVec 16) : Word :=
  match op with
  | .andi | .ori | .xori => imm.zeroExtend 32
  | .addi | .cmpLti | .cmpLtui => imm.signExtend 32

/-- The register operation an immediate form applies (R116). -/
def aluOfImm (op : ImmOp) : AluOp :=
  match op with
  | .addi => .add
  | .andi => .and
  | .ori => .or
  | .xori => .xor
  | .cmpLti => .cmpLt
  | .cmpLtui => .cmpLtu

/-- What R116 says of a shift by `n`. -/
def ShiftSays (op : ShiftOp) (a v : Word) (n : Nat) : Prop :=
  match op with
  | .shl => v.toNat = a.toNat * 2 ^ n % 2 ^ 32
  | .shr => v.toNat = a.toNat / 2 ^ n
  | .sar => v.toInt = a.toInt / 2 ^ n
  | .ror => ∀ i, i < 32 → v.getLsbD i = a.getLsbD ((i + n) % 32)

/-- The relation of a branch (R119). -/
def BranchSays (op : BrOp) (a b : Word) : Prop :=
  match op with
  | .eq => a.toNat = b.toNat
  | .ne => a.toNat ≠ b.toNat
  | .lt => a.toInt < b.toInt
  | .ge => b.toInt ≤ a.toInt
  | .ltu => a.toNat < b.toNat
  | .geu => b.toNat ≤ a.toNat

/-- A loaded value as the register takes it (R118). -/
def LoadSays (op : LoadOp) (v : Nat) (w : Word) : Prop :=
  match op with
  | .b => w.toInt = if v < 128 then (v : Int) else v - 256
  | .h => w.toInt = if v < 32768 then (v : Int) else v - 65536
  | .bu | .hu | .w | .d => w.toNat = v % 2 ^ 32

/-! ### binary32 results (R79, R121) -/

/-- A NaN. -/
abbrev FNan (x : Word) : Prop := 0x7F800000 < x.toNat % 2 ^ 31

/-- A signalling NaN. -/
abbrev FSnan (x : Word) : Prop := FNan x ∧ x.toNat / 2 ^ 22 % 2 = 0

/-- Neither infinite nor a NaN. -/
abbrev FFinite (x : Word) : Prop := x.toNat % 2 ^ 31 < 0x7F800000

/-- A finite number in units of 2⁻¹⁴⁹. -/
def fInt (x : Word) : Int :=
  let e := x.toNat / 2 ^ 23 % 256
  let m := x.toNat % 2 ^ 23
  let v : Nat := if e = 0 then m else (m + 2 ^ 23) * 2 ^ (e - 1)
  if x.toNat / 2 ^ 31 = 1 then -(v : Int) else v

/-- The order of numbers that are no NaN, infinities among them; −0 and +0 are equal. -/
def fOrd (x : Word) : Int := if x.toNat / 2 ^ 31 = 1 then -((x.toNat % 2 ^ 31 : Nat) : Int) else (x.toNat % 2 ^ 31 : Nat)

/-- `v` has the magnitude bits of `x` and the sign bit `sign`. -/
def SignOf (x v : Word) (sign : Bool) : Prop := v.toNat % 2 ^ 31 = x.toNat % 2 ^ 31 ∧ v.getLsbD 31 = sign

/-- f.cmp's relation mask (R121). -/
def relMask (x y : Word) : Nat :=
  if FNan x ∨ FNan y then 8 else if fOrd x < fOrd y then 1 else if fOrd x = fOrd y then 2 else 4

/-- f.class's KIND (R121). -/
def classKind (x : Word) : Nat :=
  let e := x.toNat / 2 ^ 23 % 256
  let m := x.toNat % 2 ^ 23
  if e = 255 then (if m = 0 then 3 else if m < 2 ^ 22 then 5 else 4) else if e = 0 then (if m = 0 then 0 else 1) else 2

/-- What R121 says of the result `v` and the flags `fl` of the operations that do not round: `x` is rs1, `y` rs2. -/
def FlatSays (op : FOp) (x y v : Word) (fl : BitVec 9) : Prop :=
  match op with
  | .abs => SignOf x v false ∧ fl = 0
  | .neg => SignOf x v (!x.getLsbD 31) ∧ fl = 0
  | .cpsgn => SignOf x v (y.getLsbD 31) ∧ fl = 0
  | .class => v.toNat = classKind x + 8 * (x.toNat / 2 ^ 31) ∧ fl = 0
  | .cmp => v.toNat = relMask x y ∧ fl = if FSnan x ∨ FSnan y then 128 else 0
  | .cmps => v.toNat = relMask x y ∧ fl = if FNan x ∨ FNan y then 128 else 0
  | .min | .max =>
    (fl = if FSnan x ∨ FSnan y then 128 else 0) ∧
    (FNan x → FNan y → v = 0x7FC00000) ∧ (FNan x → ¬ FNan y → v = y) ∧ (¬ FNan x → FNan y → v = x) ∧
    (¬ FNan x → ¬ FNan y → (v = x ∨ v = y) ∧
      fOrd v = (if op = .min then min (fOrd x) (fOrd y) else max (fOrd x) (fOrd y)) ∧
      (fOrd x = fOrd y → v.getLsbD 31 = if op = .min then x.getLsbD 31 || y.getLsbD 31 else x.getLsbD 31 && y.getLsbD 31))
  | .add | .sub | .mul | .div | .sqrt | .fma | .itof | .ftoi | .utof | .ftou => True

/-- `v` is nearest to `n / d`, with `d` above 0, among all finite numbers; both in units of 2⁻¹⁴⁹. -/
def Nearest (v : Word) (n : Int) (d : Nat) : Prop := ∀ q : Word, FFinite q → (fInt v * d - n).natAbs ≤ (fInt q * d - n).natAbs

/-! ### Vectors and accumulators (R68, R69, R122, R123) -/

/-- The exact product of two complex integers, real and imaginary part. -/
def complexMul (a b : Int × Int) : Int × Int := (a.1 * b.1 - a.2 * b.2, a.1 * b.2 + a.2 * b.1)

/-- Complex element `e` of a vector as two signed integers. -/
def cplx (q : QWord) (e : Nat) : Int × Int := ((elem q (2 * e)).toInt, (elem q (2 * e + 1)).toInt)

/-- A signed result held in 72 bits (R69). -/
def sat72 (i : Int) : Int := max (-(2 ^ 71)) (min (2 ^ 71 - 1) i)

/-- `q` is the integer nearest to `n / d`, ties to even. -/
def NearestEven (q n : Int) (d : Nat) : Prop :=
  2 * (q * d - n).natAbs ≤ d ∧ (2 * (q * d - n).natAbs = d → q % 2 = 0)

/-! ### Registers of a lane -/

/-- A STATUS value as the word that an ESTATUS register keeps (R74). -/
def statusByte (st : Status) : Nat :=
  (if st.xoff then 128 else 0) + (if st.timed then 64 else 0) + 8 * (match st.mode with
    | .t => 0
    | .k => 1
    | .s => 2
    | .l => 3) + (if st.exl then 4 else 0) + (if st.bet then 2 else 0) + (if st.ie then 1 else 0)

/-- A cause word without VALID (R76): VAHI, INFO, RESP, ASYNC, CODE. -/
def CauseSays (w : Word) (vahi info resp : Nat) (async : Bool) (code : Nat) : Prop :=
  w.toNat = vahi * 2 ^ 24 + info * 2 ^ 16 + resp * 2 ^ 8 + (if async then 64 else 0) + code

/-! ### Memory accesses of lanes -/

/-- A lane's read of `n` bytes of normal memory answers the number `v` and leaves `s'`. -/
def Reads (l : Fin 52) (p : Phys) (n v : Nat) (s s' : State) : Prop :=
  laneRead l (s.lane l).inG p.pa n .read s = (.ok, v, s')

/-- An instruction of lane `l` reads and writes `n` bytes of the lane's data memory from offset `o`: nothing waits in the
store buffer, the memory answers and no error lies in any memory. -/
def DataReady (l : Fin 52) (o n : Nat) (s : State) : Prop :=
  (s.lane l).bank.sbuf = [] ∧ s.ecc = [] ∧ s.cecc = [] ∧ o + n ≤ 65536 ∧
    ∀ k, k < n → ∀ m, m ≤ n → ∀ w : Bool, (s.gate ((s.lane l).req l (s.lane l).inG).vmid (ownData s l (o + k)) m w).rsp = .ok

/-- The canonical address of byte `o` of the lane's data memory. -/
def dataByte (s : State) (l : Fin 52) (o : Nat) : Nat := s.canon (ownData s l o)

/-- `n` bytes of the lane's data memory as a number, lowest first. -/
def dataVal (s : State) (l : Fin 52) (o n : Nat) : Nat := leVal (memRead s.mem (dataByte s l o) n)

/-- One instruction of `n` beats wrote `bs` at canonical address `a`, changed the running bank of `l` by `f`, and changed
nothing else. -/
def MemStep (l : Fin 52) (n : Nat) (f : Bank → Bank) (a : Nat) (bs : List Byte) (s t : State) : Prop :=
  t = { s with mem := t.mem, lanes := t.lanes } ∧ (∀ j, j ≠ l → t.lane j = s.lane j) ∧
    t.lane l = (spentLane n (s.lane l)).modBank f ∧ Stored s.mem t.mem a bs

/-! ### Images (R103, R104, R124 to R127) -/

/-- The checks of R104 pass for `n` bytes, or one bit, at an image address. -/
def ImageOk (b : Bank) (a n : Nat) (bit write : Bool) : Prop :=
  imgArea a ≠ 3 ∧ (write = true → imgArea a ≠ 0) ∧ imgByte a + n ≤ descSize (b.imgDesc (imgArea a)) ∧
    (bit = false → imgBit a = 0 ∧ imgByte a % n = 0)

/-- `c` is byte value `v` with bit `i` made `x`. -/
def BitPut (v i : Nat) (x : Bool) (c : Byte) : Prop :=
  ∀ j, j < 8 → c.getLsbD j = if j = i then x else v.testBit j

/-- The timer instructions (R126). -/
inductive TmrFn where
  | ton | tof | tp | rst
  deriving DecidableEq, Repr

/-- The update of R126 by `n` periods: ET, RUN, INPREV and Q after it. -/
def tmrSays (fn : TmrFn) (n et pt : Nat) (inp prev run : Bool) : Nat × Bool × Bool × Bool :=
  let up := min (min (et + n) (2 ^ 32 - 1)) pt
  match fn with
  | .ton =>
    let e := if ¬ inp then 0 else if ¬ prev then 0 else up
    (e, run, inp, inp && decide (pt ≤ e))
  | .tof => if inp then (0, run, inp, true) else
    let e := if prev then 0 else up
    (e, run, inp, decide (e < pt))
  | .tp =>
    if run then (up, !decide (pt ≤ up), inp, !decide (pt ≤ up))
    else if inp && !prev then (0, decide (0 < pt), inp, decide (0 < pt))
    else (if inp then et else 0, false, inp, false)
  | .rst => (0, false, false, false)

/-- The edge instructions (R127): what they report from PREV and IN. -/
inductive EdgFn where
  | r | f | b | init
  deriving DecidableEq, Repr

/-- rd of an edge instruction. -/
def edgSays (fn : EdgFn) (prev inp : Bool) : Bool :=
  match fn with
  | .r => inp && !prev
  | .f => prev && !inp
  | .b => inp ^^ prev
  | .init => false

/-! ### Exceptions (R74, R76, R98) -/

/-- Lane `y` is lane `x` after its bank F has taken an exception to K (`toK`) or S as R98 says. -/
def Entered (toK : Bool) (code eval info resp vahi : Nat) (async : Bool) (x y : Lane) : Prop :=
  y = { x with
    st := .running, winBeats := 0, k := y.k, sr := y.sr,
    f := { x.f with
      status := { x.f.status with mode := if toK then .k else .s, ie := false, exl := true, timed := false },
      pc := if toK then x.k.kvec else x.sr.svec } } ∧
  (toK = true → y.sr = x.sr ∧ CauseSays y.k.kcause vahi info resp async code ∧
    y.k = { x.k with kepc := x.f.pc, kestatus := BitVec.ofNat 32 (statusByte x.f.status), kcause := y.k.kcause,
                     keval := BitVec.ofNat 32 eval }) ∧
  (toK = false → y.k = x.k ∧ CauseSays y.sr.scause vahi info resp async code ∧
    y.sr = { x.sr with sepc := x.f.pc, sestatus := BitVec.ofNat 32 (statusByte x.f.status), scause := y.sr.scause,
                       seval := BitVec.ofNat 32 eval })

/-- Bank F of the lane can take an exception to S or K without a double fault, and no kernel runs on it. -/
def CanEnter (toK : Bool) (x : Lane) : Prop :=
  x.inG = false ∧ x.ticket = none ∧ (toK = true ∨ ¬ (x.f.status.mode = .s ∧ x.f.status.exl = true))

/-- The system registers that a permitted write stores as written, with the bits they hold (R72). -/
def plainSysRegs : List (Nat × Nat) :=
  [(0x008, 0x1FF), (0x010, 0x7FFFFFFF), (0x011, 0x7FFFFFFF), (0x012, 0x7FFFFFFF), (0x101, 0xFFFFFFFF), (0x102, 0xFF),
   (0x104, 0xFFFFFFFF), (0x105, 0xFFFFFFFC), (0x106, 0xFFFFFFFF), (0x110, 0x0FFFFFFF), (0x111, 0xFF), (0x200, 0xFFFFFFFF),
   (0x201, 0xFF), (0x203, 0xFFFFFFFF), (0x204, 0xFFFFFFFC), (0x205, 0xFFFFFFFF), (0x210, 0x0FFFFFFE), (0x211, 0xFF),
   (0x220, 0xFF)]

/-! ### Block commands -/

/-- The fields that the record of an error response may change (R473). -/
def faultFields : List Fld :=
  [Reg.SYS_FCNT_ABS, Reg.SYS_FCNT_UNP, Reg.SYS_FCNT_DEN, Reg.SYS_FCNT_TMO, Reg.SYS_FECC_N, Reg.SYS_FSYND0_VALID,
   Reg.SYS_FSYND0_RESP, Reg.SYS_FSYND0_KIND, Reg.SYS_FSYND0_VC, Reg.SYS_FSYND0_VMID, Reg.SYS_FSYND0_REQ,
   Reg.SYS_FSYND1_ADDRLO, Reg.SYS_FSYND2_DOM, Reg.SYS_FSYND2_CHAN, Reg.SYS_FSYND2_ADDRHI, Reg.SYS_FSYND3_NS]

/-- From `u` to `t` the register fields `fs` may have changed, and nothing else. -/
def OnlyRegs (fs : List Fld) (u t : State) : Prop := t = { u with regs := t.regs } ∧ RegsExcept fs u t

/-- A write access was accepted: from `u` to `t` the fields `fs` may have changed, and nothing else but the completion. -/
def Accepted (fs : List Fld) (u t : State) : Prop :=
  t = { u with regs := t.regs, resp := .ok, rdata := 0 } ∧ RegsExcept fs u t

/-- A read access answered `v`: from `u` to `t` the fields `fs` may have changed, and nothing else but the completion. -/
def Answered (v : Nat) (fs : List Fld) (u t : State) : Prop :=
  t = { u with regs := t.regs, resp := .ok, rdata := v } ∧ RegsExcept fs u t

/-- An access was refused with `r`: a read's word is all ones, and only the fault record may have changed (R471, R473). -/
def Refused (r : Rsp) (s t : State) : Prop :=
  t = { s with regs := t.regs, resp := r, rdata := 0xFFFFFFFF } ∧ RegsExcept faultFields s t

/-- The event queue has room (R386). -/
abbrev LogRoom (s : State) : Prop := s.log.queue.length < 256

/-- The module event about field `f` that is logged now (R384, R385). -/
def eventOf (s : State) (f : Fld) (p : Bool) (sev vmid : Nat) (args : List Nat) : Ev :=
  { clsP := p, sev := sev, code := evCode f, vmid := vmid, part := s.evPart vmid, sw := false, orig := 0xFF,
    tsinv := !s.fbit Reg.TB_STAT_VALID, ts := s.now, args := argWords args }

/-- The event log of `s` with events added to its queue. -/
def logPlus (s : State) (es : List Ev) : EventLog := { s.log with queue := s.log.queue ++ es }

/-- The value of a counter field after one count; it saturates. -/
def Counted (f : Fld) (s t : State) : Prop := t.fget f = min (s.fget f + 1) (2 ^ f.width - 1)

end Sys2Proof.Machine
end

