-- ==== Sys2Proof/Certificates/Slice0/Obligations.lean ====
section
/-! DEFINITION. What is claimed of the model: statements for the provers. -/

open Sys2Proof Sys2Proof.Machine Sys2Proof.Machine.Reg

/-! ### The machine -/

/-- A step with a command at the front of the queue is that command on the state with the queue's rest. -/
def Obligations.StepTakesTheFrontCommand : Prop :=
  ∀ (c : Instr) (rest : List Instr) (s : State), s.pending = c :: rest → step s = exec c { s with pending := rest }

/-- The model's choice (assumption 6): on an empty queue one TB cycle passes. The time base counts on by its rate, or by
its rate after a pending TB_INCR (R29, R33), and the queue, the lanes, the memories and the last completion stay.
Where the spec leaves a point open it follows the model's choice: assumptions 12, 13. -/
def Obligations.EmptyQueueIsOneTimeBaseCycle : Prop :=
  ∀ s : State, s.pending = [] → ∃ t, step s = .next t ∧ t.pending = [] ∧ t.lanes = s.lanes ∧ t.mem = s.mem ∧
    t.resp = s.resp ∧ t.rdata = s.rdata ∧ t.since = s.since + 1 ∧
    t.tb.count = (s.tb.count + t.tb.incr) % (2 ^ 48 * secUnits * 4096)

/-! ### Encodings -/

/-- The word of every instruction a lane can hold stands for that instruction: no operand bit is dropped. A load decodes
without the model's mark for an outstanding access. Where the spec leaves a point open it follows the model's choice:
assumption 54. -/
def Obligations.InstructionWordsDecodeBack : Prop :=
  ∀ (i : Instr) (l : Fin 52) (w : Nat), laneWord i = some (l, w) → fieldsOk i = true →
    w < 2 ^ 32 ∧ decodeFields l w = some (match i with
      | .load l op rd rs1 imm _ => .load l op rd rs1 imm false
      | i => i)

/-- Words written out from R109 to R111 and the tables of R115 to R134, the worked example among them. -/
def Obligations.WrittenWordsDecode : Prop :=
  ∀ l : Fin 52,
    decodeFields l 0xA4221808 = some (.cmac l 1 2 3) ∧
    decodeFields l 0b00000100011000010001000000000001 = some (.aluOp l .sub 3 1 2) ∧
    decodeFields l 0b00001000010001000010100000001011 = some (.divOp l .remu 2 4 5) ∧
    decodeFields l 0b00001100101001011111111111111111 = some (.immediateOp l .addi 5 5 0xFFFF) ∧
    decodeFields l 0b01000000111001011000000000010000 = some (.load l .b 7 5 0x8010 false) ∧
    decodeFields l 0b01110100111000001111111111111010 = some (.branch l .ne 7 0 0xFFFA) ∧
    decodeFields l 0b10001100011001000010100001101001 = some (.atomic l .cas true true false 3 4 5) ∧
    decodeFields l 0b11000001000001010011000000010000 = some (.imgLd l .bit 8 5 6 16) ∧
    decodeFields l 0b11100100001000000010000000000000 = some (.sysRd l 1 0x200) ∧
    decodeFields l 0b11100000000000000000000000000101 = some (.yieldLane l) ∧
    decodeFields l 0xFC000000 = none

/-! ### Integer instructions, branches (R115, R116, R119) -/

/-- ALU, multiply and divide instructions give rd what R115 says, at its beats; IDV is set as it says; nothing else changes. -/
def Sys2Proof.Machine.IntegerOperationResults : Prop :=
  ∀ (s : State) (l : Fin 52) (rd rs1 rs2 : Fin 32),
    let a := (bankAt l s).reg rs1
    let b := (bankAt l s).reg rs2
    (∀ op : AluOp, Issues l (.aluOp l op rd rs1 rs2) plain 1 s →
      ∃ v, AluSays op a b v ∧ Runs l (.aluOp l op rd rs1 rs2) 1 (Bank.setReg rd v) s) ∧
    (∀ op : MulOp, op ≠ .mulD → Issues l (.mulOp l op rd rs1 rs2) plain 2 s →
      ∃ v, MulSays op a b v ∧ Runs l (.mulOp l op rd rs1 rs2) 2 (Bank.setReg rd v) s) ∧
    (Issues l (.mulOp l .mulD rd rs1 rs2) plain 3 s →
      ∃ p : Nat, p < 2 ^ 64 ∧ signedOf 64 p = a.toInt * b.toInt ∧
        Runs l (.mulOp l .mulD rd rs1 rs2) 3 (Bank.setPair rd p) s) ∧
    (∀ op : DivOp, Issues l (.divOp l op rd rs1 rs2) plain 18 s →
      ∃ v idv, DivSays op a b v idv ∧
        Runs l (.divOp l op rd rs1 rs2) 18
          (fun k => { k.setReg rd v with fcsr := k.fcsr ||| (if idv then 4#9 else 0#9) }) s)

/-- The immediate forms, shift-immediate, mov.hi and pc.hi (R116). -/
def Sys2Proof.Machine.ImmediateFormResults : Prop :=
  ∀ (s : State) (l : Fin 52) (rd rs1 : Fin 32),
    let a := (bankAt l s).reg rs1
    (∀ (op : ImmOp) (imm : BitVec 16), Issues l (.immediateOp l op rd rs1 imm) plain 1 s →
      ∃ v, AluSays (aluOfImm op) a (immOf op imm) v ∧ Runs l (.immediateOp l op rd rs1 imm) 1 (Bank.setReg rd v) s) ∧
    (∀ (op : ShiftOp) (sh : BitVec 5), Issues l (.shiftImmediate l op rd rs1 sh) plain 1 s →
      ∃ v, ShiftSays op a v sh.toNat ∧ Runs l (.shiftImmediate l op rd rs1 sh) 1 (Bank.setReg rd v) s) ∧
    (∀ imm : BitVec 21, Issues l (.movHi l rd imm) plain 1 s →
      ∃ v : Word, v.toNat = imm.toNat * 2 ^ 11 ∧ Runs l (.movHi l rd imm) 1 (Bank.setReg rd v) s) ∧
    (∀ imm : BitVec 21, Issues l (.pcHi l rd imm) plain 1 s →
      ∃ v : Word, v.toNat = ((bankAt l s).pc.toNat + imm.toNat * 2 ^ 11) % 2 ^ 32 ∧
        Runs l (.pcHi l rd imm) 1 (Bank.setReg rd v) s)

/-- Integer register and immediate forms: results and frame (R115, R116). -/
def Obligations.IntegerInstructionResults : Prop := IntegerOperationResults ∧ ImmediateFormResults

/-- A register write changes that register alone; g0 reads 0 and discards writes (R67). -/
def Obligations.GeneralRegisterZero : Prop :=
  ∀ (b : Bank) (r : Fin 32) (v : Word), b.reg 0 = 0 ∧ b.setReg 0 v = b ∧ (r ≠ 0 → (b.setReg r v).reg r = v) ∧
    (∀ q, q ≠ r → (b.setReg r v).reg q = b.reg q) ∧
    { b.setReg r v with g := b.g } = b

/-- Branches and jumps (R119): the target, the link register and the beats; a misaligned target of jmp.r raises
FETCH_ALIGN there once the jump has completed. -/
def Obligations.BranchesAndJumps : Prop :=
  ∀ (s : State) (l : Fin 52) (rd rs1 rs2 : Fin 32),
    let b := bankAt l s
    (∀ (op : BrOp) (off : BitVec 16), BranchSays op (b.reg rs1) (b.reg rs2) → Issues l (.branch l op rs1 rs2 off) plain 2 s →
      Completes (.branch l op rs1 rs2 off) s
        (BankStep l 2 (fun k => { k with pc := wordOf (k.pc.toNat + off.toInt * 4) }) (fetched l s))) ∧
    (∀ (op : BrOp) (off : BitVec 16), ¬ BranchSays op (b.reg rs1) (b.reg rs2) → Issues l (.branch l op rs1 rs2 off) plain 1 s →
      Runs l (.branch l op rs1 rs2 off) 1 id s) ∧
    (∀ off : BitVec 26, Issues l (.jmp l off) plain 2 s →
      Completes (.jmp l off) s
        (BankStep l 2 (fun k => { k with pc := wordOf (k.pc.toNat + off.toInt * 4) }) (fetched l s))) ∧
    (∀ off : BitVec 26, Issues l (.call l off) plain 2 s →
      Completes (.call l off) s
        (BankStep l 2 (fun k => { k.setReg 31 (k.pc + 4) with pc := wordOf (k.pc.toNat + off.toInt * 4) })
          (fetched l s))) ∧
    (∀ imm : BitVec 16, Issues l (.jmpR l rd rs1 imm) plain 3 s →
      let tgt := wordOf ((b.reg rs1).toNat + imm.toInt)
      (tgt.toNat % 4 = 0 → Completes (.jmpR l rd rs1 imm) s
        (BankStep l 3 (fun k => { k.setReg rd (k.pc + 4) with pc := tgt }) (fetched l s))) ∧
      (tgt.toNat % 4 ≠ 0 → ∃ u, BankStep l 3 (fun k => { k.setReg rd (k.pc + 4) with pc := tgt }) (fetched l s) u ∧
        exec (.jmpR l rd rs1 imm) s = .next (takeTrap l ⟨.fetchAlign, tgt.toNat, 0, 0, 0⟩ u)))

/-! ### binary32, vector and complex instructions (R121 to R123) -/

/-- Operations that do not round give what R121 says; every result that is a NaN of a rounding operation is 0x7FC0_0000;
no flag of FCSR is ever cleared; beats as the table has them. -/
def Obligations.FloatInstructionResults : Prop :=
  ∀ (s : State) (l : Fin 52) (op : FOp) (rd rs1 rs2 : Fin 32),
    Issues l (.f32Op l op rd rs1 rs2) plain (fBeats op) s →
    let x := (bankAt l s).reg rs1
    let y := (bankAt l s).reg rs2
    let c := (bankAt l s).reg rd
    ∃ (v : Word) (fl : BitVec 9), FlatSays op x y v fl ∧
      (op ∈ [FOp.add, .sub, .mul, .div, .sqrt, .fma] → (FNan v → v = 0x7FC00000) ∧
        (FNan x ∨ (op ≠ .sqrt ∧ FNan y) ∨ (op = .fma ∧ FNan c) → v = 0x7FC00000) ∧
        (FSnan x ∨ (op ≠ .sqrt ∧ FSnan y) ∨ (op = .fma ∧ FSnan c) → fl.getLsbD 7 = true)) ∧
      (op ∈ [FOp.ftoi, .ftou] → FNan x → v = 0 ∧ fl.getLsbD 7 = true) ∧
      Runs l (.f32Op l op rd rs1 rs2) (fBeats op) (fun k => { k.setReg rd v with fcsr := k.fcsr ||| fl }) s

/-- Under round-to-nearest a finite sum, difference, product, quotient, fused product or converted integer is the nearest
of all finite numbers to the exact result (R121: IEEE 754 under FCSR.RM). -/
def Obligations.FloatResultsAreNearest : Prop :=
  ∀ (x y c v : Word) (op : FOp), v = (fValue op 0 c x y).1 → FFinite v →
    (op = .itof → Nearest v (x.toInt * 2 ^ 149) 1) ∧
    (op = .utof → Nearest v (x.toNat * 2 ^ 149) 1) ∧
    (FFinite x → FFinite y →
      (op = .add → Nearest v (fInt x + fInt y) 1) ∧
      (op = .sub → Nearest v (fInt x - fInt y) 1) ∧
      (op = .mul → Nearest v (fInt x * fInt y) (2 ^ 149)) ∧
      (op = .div → fInt y ≠ 0 → Nearest v ((if fInt y < 0 then -1 else 1) * fInt x * 2 ^ 149) (fInt y).natAbs) ∧
      (op = .fma → FFinite c → Nearest v (fInt c * 2 ^ 149 + fInt x * fInt y) (2 ^ 149)))

/-- Vector operations (R122): integers and bits element by element, binary32 as the scalar operation element by element,
v.sum.f32 in its fixed order, and the moves. -/
def Obligations.VectorInstructionResults : Prop :=
  ∀ (s : State) (l : Fin 52) (op : VOp) (d a b : Fin 32) (e : Fin 4),
    Issues l (.vectorOp l op d a b e) plain (vBeats op) s →
    let k := bankAt l s
    let p := k.vec a
    let q := k.vec b
    let rm := k.fcsr.toNat % 4
    let sum := fun (x y : Word) => fValue .add rm 0 x y
    (∀ f : Word → Word → Word, (op, f) ∈ [(VOp.addI, fun x y => x + y), (.subI, fun x y => x - y), (.mulI, fun x y => x * y),
        (.and, fun x y => x &&& y), (.or, fun x y => x ||| y), (.xor, fun x y => x ^^^ y)] →
      ∃ v : QWord, (∀ i < 4, elem v i = f (elem p i) (elem q i)) ∧
        Runs l (.vectorOp l op d a b e) (vBeats op) (Bank.setVec d v) s) ∧
    (∀ f : FOp, (op, f) ∈ [(VOp.addF, FOp.add), (.subF, .sub), (.mulF, .mul), (.fmaF, .fma)] →
      ∃ (v : QWord) (fl : BitVec 9), (∀ i < 4, elem v i = (fValue f rm (elem (k.vec d) i) (elem p i) (elem q i)).1) ∧
        (∀ n < 9, fl.getLsbD n = (List.range 4).any (fun i =>
          (BitVec.ofNat 9 (fValue f rm (elem (k.vec d) i) (elem p i) (elem q i)).2).getLsbD n)) ∧
        Runs l (.vectorOp l op d a b e) (vBeats op) (fun k => { k.setVec d v with fcsr := k.fcsr ||| fl }) s) ∧
    (op = .sumF → ∃ fl : BitVec 9,
      Runs l (.vectorOp l op d a b e) (vBeats op)
        (fun k => { k.setReg d (sum (sum (elem p 0) (elem p 1)).1 (sum (elem p 2) (elem p 3)).1).1 with fcsr := k.fcsr ||| fl }) s) ∧
    (op = .splat → ∃ v : QWord, (∀ i < 4, elem v i = k.reg a) ∧ Runs l (.vectorOp l op d a b e) (vBeats op) (Bank.setVec d v) s) ∧
    (op = .ins → ∃ v : QWord, (∀ i < 4, elem v i = if i = e.val then k.reg a else elem (k.vec d) i) ∧
      Runs l (.vectorOp l op d a b e) (vBeats op) (Bank.setVec d v) s) ∧
    (op = .ext → Runs l (.vectorOp l op d a b e) (vBeats op) (Bank.setReg d (elem p e)) s) ∧
    (op = .mov → Runs l (.vectorOp l op d a b e) (vBeats op) (Bank.setVec d p) s)

/-- cmul, cconj, cmag, cang (R123). -/
def Sys2Proof.Machine.ComplexInstructionResults : Prop :=
  ∀ (s : State) (l : Fin 52) (d a b : Fin 32),
    let k := bankAt l s
    let p := k.vec a
    (Issues l (.cmul l false d a b) plain 3 s → ∃ v : QWord,
      (∀ e < 2, (cplx v e).1 = sat32 (((complexMul (cplx p e) (cplx (k.vec b) e)).1 + 2 ^ 30) / 2 ^ 31) ∧
        (cplx v e).2 = sat32 (((complexMul (cplx p e) (cplx (k.vec b) e)).2 + 2 ^ 30) / 2 ^ 31)) ∧
      Runs l (.cmul l false d a b) 3 (Bank.setVec d v) s) ∧
    (Issues l (.cmul l true d a b) plain 4 s → ∃ (v : QWord) (fl : BitVec 9),
      (∀ e < 2,
        let rm := k.fcsr.toNat % 4
        let m := fun (i j : Nat) => (fValue .mul rm 0 (elem p (2 * e + i)) (elem (k.vec b) (2 * e + j))).1
        elem v (2 * e) = (fValue .sub rm 0 (m 0 0) (m 1 1)).1 ∧ elem v (2 * e + 1) = (fValue .add rm 0 (m 0 1) (m 1 0)).1) ∧
      Runs l (.cmul l true d a b) 4 (fun k => { k.setVec d v with fcsr := k.fcsr ||| fl }) s) ∧
    (Issues l (.cconj l false d a) plain 1 s → ∃ v : QWord,
      (∀ e < 2, cplx v e = ((cplx p e).1, sat32 (-(cplx p e).2))) ∧ Runs l (.cconj l false d a) 1 (Bank.setVec d v) s) ∧
    (Issues l (.cconj l true d a) plain 1 s → ∃ v : QWord,
      (∀ e < 2, elem v (2 * e) = elem p (2 * e) ∧ SignOf (elem p (2 * e + 1)) (elem v (2 * e + 1)) (!(elem p (2 * e + 1)).getLsbD 31)) ∧
      Runs l (.cconj l true d a) 1 (Bank.setVec d v) s) ∧
    (∀ e : Fin 2, Issues l (.cmag l e d a) plain 6 s → ∃ v : Word,
      let sq := ((cplx p e).1 * (cplx p e).1 + (cplx p e).2 * (cplx p e).2).toNat
      4 * sq < (2 * v.toNat + 1) ^ 2 ∧ (v.toNat ≠ 0 → (2 * v.toNat - 1) ^ 2 ≤ 4 * sq) ∧
      Runs l (.cmag l e d a) 6 (Bank.setReg d v) s) ∧
    (∀ e : Fin 2, Issues l (.cang l e d a) plain 8 s → ∃ v : Word,
      ((cplx p e).2 = 0 → v = if (cplx p e).1 < 0 then 0x80000000 else 0) ∧
      Runs l (.cang l e d a) 8 (Bank.setReg d v) s)

/-- cmac, cmac.c, ac.clr and ac.rd (R69, R123): one saturating addition of the exact sum to each part, ACSAT when a part
saturates, and a read-out that rounds to even. -/
def Sys2Proof.Machine.AccumulatorInstructionResults : Prop :=
  ∀ (s : State) (l : Fin 52) (n : Fin 2) (d a b : Fin 32),
    let k := bankAt l s
    let dot := fun (conj : Bool) (e : Nat) =>
      complexMul (cplx (k.vec a) e) ((cplx (k.vec b) e).1, if conj then -(cplx (k.vec b) e).2 else (cplx (k.vec b) e).2)
    let after := fun (conj : Bool) (f : Bank → Bank) =>
      let re := k.ac[n].re.toInt + ((dot conj 0).1 + (dot conj 1).1)
      let im := k.ac[n].im.toInt + ((dot conj 0).2 + (dot conj 1).2)
      f = (fun (k : Bank) => { k with
        ac := k.ac.set n ⟨BitVec.ofInt 72 (sat72 re), BitVec.ofInt 72 (sat72 im)⟩,
        fcsr := k.fcsr ||| (if sat72 re ≠ re ∨ sat72 im ≠ im then 256 else 0) })
    (Issues l (.cmac l n a b) plain 3 s → ∃ f, after false f ∧ Runs l (.cmac l n a b) 3 f s) ∧
    (Issues l (.cmacC l n a b) plain 3 s → ∃ f, after true f ∧ Runs l (.cmacC l n a b) 3 f s) ∧
    (Issues l (.acClr l n) plain 1 s → Runs l (.acClr l n) 1 (fun k => { k with ac := k.ac.set n ⟨0, 0⟩ }) s) ∧
    (∀ (e : Fin 2) (sh : Fin 32), Issues l (.acRd l e d n sh) plain 2 s → ∃ (v : QWord) (re im : Int),
      NearestEven re k.ac[n].re.toInt (2 ^ (31 + sh.val)) ∧ NearestEven im k.ac[n].im.toInt (2 ^ (31 + sh.val)) ∧
      cplx v e = (sat32 re, sat32 im) ∧ cplx v (1 - e.val) = cplx (k.vec d) (1 - e.val) ∧
      Runs l (.acRd l e d n sh) 2
        (fun k => { k.setVec d v with fcsr := k.fcsr ||| (if sat32 re ≠ re ∨ sat32 im ≠ im then 256 else 0) }) s)

/-- Complex products and the 72-bit accumulators. -/
def Obligations.ComplexAndAccumulatorResults : Prop := ComplexInstructionResults ∧ AccumulatorInstructionResults

/-! ### Memory (R84, R90 to R92, R118, R120) -/

/-- A load of any size from normal memory gives rd, the pair or the vector the bytes its address reads as, lowest first,
extended as R118 says; memory and the buffered stores stay. A load whose access stays outstanding changes nothing yet. -/
def Sys2Proof.Machine.LoadsReadMemory : Prop :=
  ∀ (s : State) (l : Fin 52) (rd rs1 : Fin 32) (imm : BitVec 16) (p : Phys) (s2 : State),
    (let va := vaOf (bankAt l s) rs1 imm
     translate l va .r (fetched l s) = (.ok p, s2) ∧ targetTrap s2 l p = none ∧ p.dev = false ∧ isDev p.pa = false) →
    (∀ (op : LoadOp) (v : Nat) (s3 : State), vaOf (bankAt l s) rs1 imm % loadSize op = 0 →
      Issues l (.load l op rd rs1 imm false) plain (targetCost s2 l p 2 6) s →
      Reads l p (loadSize op) v (spend l (targetCost s2 l p 2 6) s2) s3 →
      Completes (.load l op rd rs1 imm false) s (fun t => OnlyLane l s3 t ∧ t.mem = s2.mem ∧
        (op ≠ .d → ∃ w, LoadSays op v w ∧ t.lane l = (s3.lane l).modBank (onward (Bank.setReg rd w))) ∧
        (op = .d → t.lane l = (s3.lane l).modBank (onward (Bank.setPair rd v))))) ∧
    (∀ op : LoadOp, vaOf (bankAt l s) rs1 imm % loadSize op = 0 → (s.lane l).timed = false → (s2.lane l).timed = false →
      Issues l (.load l op rd rs1 imm true) plain (targetCost s2 l p 2 6) s →
      Completes (.load l op rd rs1 imm true) s (fun t => OnlyLane l s2 t ∧ t.lane l =
        { s2.lane l with out := some ⟨rd, loadSize op, op == .b || op == .h, p.pa, false⟩ })) ∧
    (∀ (v w : Nat) (s3 s4 : State), vaOf (bankAt l s) rs1 imm % 16 = 0 →
      Issues l (.vLd l rd rs1 imm) plain (targetCost s2 l p 3 7) s →
      Reads l p 8 v (spend l (targetCost s2 l p 3 7) s2) s3 → Reads l ⟨p.pa + 8, false⟩ 8 w s3 s4 →
      Completes (.vLd l rd rs1 imm) s (fun t => OnlyLane l s4 t ∧ t.mem = s2.mem ∧
        t.lane l = (s4.lane l).modBank (onward (Bank.setVec rd (BitVec.ofNat 128 (v + w * 2 ^ 64))))))

/-- A read of normal memory sees the bank's own buffered stores, and behind them memory itself (R90): each byte is that of the
newest buffered store that holds it, else memory's. -/
def Sys2Proof.Machine.ReadsSeeBufferedStores : Prop :=
  ∀ (s s' : State) (l : Fin 52) (inG : Bool) (a n v : Nat), laneRead l inG a n .read s = (.ok, v, s') →
    (∀ o, regionOf a ≠ .rom o ∧ regionOf a ≠ .align o) →
    (∀ i < n, s.canon (a + i) = s.canon a + i) →
    s'.mem = s.mem ∧ s'.lanes = s.lanes ∧
    ∀ i < n, BitVec.ofNat 8 (v / 256 ^ i) =
      (match (((s.lane l).buf inG).reverse.find? (fun b => decide (b.pa ≤ a + i) && decide (a + i < b.pa + b.bytes.length))) with
       | some b => b.bytes.getD (a + i - b.pa) 0
       | none => memGet s.mem (s.canon a + i))

/-- Loads: their value, their frame, and the stores a read sees. Where the spec leaves a point open it follows the model's
choice: assumptions 51, 52, 54. -/
def Obligations.LoadsReadMemoryAndBuffer : Prop := LoadsReadMemory ∧ ReadsSeeBufferedStores

/-- A store of any size to normal memory outside a timed window enters the lane's store buffer, oldest first, while fewer
than eight wait, and changes no memory (R91); in a timed window or bank G, with nothing buffered, its bytes are in
memory when it has completed, at the address its operands give, and every other byte is as before (R92). Where the
spec leaves a point open it follows the model's choice: assumptions 51, 52. -/
def Obligations.StoresReachTheirAddress : Prop :=
  ∀ (s : State) (l : Fin 52) (rd rs1 : Fin 32) (imm : BitVec 16) (p : Phys) (s2 : State),
    (let va := vaOf (bankAt l s) rs1 imm
     translate l va .w (fetched l s) = (.ok p, s2) ∧ targetTrap s2 l p = none ∧ p.dev = false ∧ isDev p.pa = false) →
    (∀ op : StoreOp, vaOf (bankAt l s) rs1 imm % storeSize op = 0 →
      let n := targetCost s2 l p 1 4
      let v := if op = .d then (bankAt l s).pair rd else ((bankAt l s).reg rd).toNat
      Issues l (.store l op rd rs1 imm) plain n s →
      ((s2.lane l).timed = false → (s.lane l).timed = false → (s2.lane l).f.sbuf.length < 8 →
        Completes (.store l op rd rs1 imm) s (fun t => OnlyLane l s2 t ∧
          t.lane l = (s2.lane l).modBank (fun k => { k with
            sbuf := k.sbuf ++ [⟨p.pa, leBytes (storeSize op) v, k.vmid.toNat⟩], pc := k.pc + 4 }))) ∧
      ((s2.lane l).timed = true → (s2.lane l).bank.sbuf = [] →
        (memWriteAcc ((s2.lane l).req l (s2.lane l).inG) p.pa (leBytes (storeSize op) v) .write s2).1 = .ok →
        Completes (.store l op rd rs1 imm) s (fun t =>
          Stored s2.mem t.mem (s2.canon p.pa) (leBytes (storeSize op) v) ∧
          t = { s2 with mem := t.mem, ecc := t.ecc, cecc := t.cecc, lanes := t.lanes } ∧
          (∀ j, j ≠ l → t.lane j = s2.lane j) ∧ t.lane l = (spentLane n (s2.lane l)).modBank (onward id)))) ∧
    (vaOf (bankAt l s) rs1 imm % 16 = 0 →
      let n := targetCost s2 l p 2 5
      let v := ((bankAt l s).vec rd).toNat
      Issues l (.vSt l rd rs1 imm) plain n s →
      ((s2.lane l).timed = false → (s.lane l).timed = false → (s2.lane l).f.sbuf.length < 7 →
        Completes (.vSt l rd rs1 imm) s (fun t => OnlyLane l s2 t ∧
          t.lane l = (s2.lane l).modBank (fun k => { k with
            sbuf := k.sbuf ++ [⟨p.pa, leBytes 8 v, k.vmid.toNat⟩, ⟨p.pa + 8, leBytes 8 (v / 2 ^ 64), k.vmid.toNat⟩],
            pc := k.pc + 4 }))) ∧
      ((s2.lane l).timed = true → (s2.lane l).bank.sbuf = [] → s2.ecc = [] → s2.cecc = [] →
        s2.canon (p.pa + 8) = s2.canon p.pa + 8 →
        (∀ o ∈ [0, 8], (memWriteAcc ((s2.lane l).req l (s2.lane l).inG) (p.pa + o) (zeroBytes 8) .write s2).1 = .ok) →
        Completes (.vSt l rd rs1 imm) s (fun t =>
          Stored s2.mem t.mem (s2.canon p.pa) (leBytes 16 v) ∧ t = { s2 with mem := t.mem, lanes := t.lanes } ∧
          (∀ j, j ≠ l → t.lane j = s2.lane j) ∧ t.lane l = (spentLane n (s2.lane l)).modBank (onward id))))

/-- The response of an outstanding load enters bank F whichever bank runs (R65); a buffered store that reaches its target
is in memory and gone from the buffer (R91); one whose target answers an error is kept as a posted error or taken
(R102). Where the spec leaves a point open it follows the model's choice: assumptions 54, 61. -/
def Obligations.OutstandingAccessesComplete : Prop :=
  ∀ (s : State) (l : Fin 52),
    (∀ (o : OutLoad) (v : Nat) (s3 : State), (s.lane l).out = some o → o.dev = false → isDev o.pa = false → o.bytes ∈ [1, 2, 4] →
      laneRead l false o.pa o.bytes .read (s.modLane l (fun x => { x with out := none })) = (.ok, v, s3) →
      Completes (.loadResponse l) s (fun t => OnlyLane l s3 t ∧ ∃ w : Word,
        (o.signed = false → w.toNat = v % 2 ^ 32) ∧ (o.signed = true → w.toInt = signedOf (8 * o.bytes) v) ∧
        t.lane l = { s3.lane l with f := onward (Bank.setReg o.rd w) (s3.lane l).f })) ∧
    (∀ (bankG : Bool) (b : BufStore) (i : Nat), nextOut l bankG i s = some b →
      let s1 := dropBuf l bankG i s
      (memWriteAcc (laneReq l bankG b.vmid) b.pa b.bytes .write s1).1 = .ok →
      Completes (.bufferedStoreComplete l bankG i) s (fun t => Stored s.mem t.mem (s.canon b.pa) b.bytes ∧
        t = { s with mem := t.mem, ecc := t.ecc, cecc := t.cecc, lanes := t.lanes } ∧ (∀ j, j ≠ l → t.lane j = s.lane j) ∧
        (t.lane l).buf bankG = ((s.lane l).buf bankG).eraseIdx i ∧ (t.lane l).buf (!bankG) = (s.lane l).buf (!bankG))) ∧
    (∀ (o : OutLoad) (v : Nat) (s3 : State), (s.lane l).out = some o → o.dev = false → isDev o.pa = false → o.bytes = 8 →
      laneRead l false o.pa 8 .read (s.modLane l (fun x => { x with out := none })) = (.ok, v, s3) →
      Completes (.loadResponse l) s (fun t => OnlyLane l s3 t ∧
        t.lane l = { s3.lane l with f := onward (Bank.setPair o.rd v) (s3.lane l).f })) ∧
    (∀ (bankG : Bool) (b : BufStore) (i : Nat) (r : Rsp) (s2 : State), nextOut l bankG i s = some b → r ≠ .ok →
      memWriteAcc (laneReq l bankG b.vmid) b.pa b.bytes .write (dropBuf l bankG i s) = (r, s2) →
      ((s2.lane l).atBoundary = false →
        Completes (.postedBusError l bankG i r) s (fun t => OnlyLane l s2 t ∧ t.mem = s.mem ∧
          (t.lane l).posted = (s2.lane l).posted ++ [(b.pa, rspCode r)])) ∧
      ((s2.lane l).atBoundary = true → (s2.lane l).posted = [] →
        exec (.postedBusError l bankG i r) s = .next (takeF l ⟨.postedBus, addrEval b.pa, 0, rspCode r, 0⟩ true s2)))

/-- An atomic reads the word and writes what R120 says in one step; at.cas without a match writes nothing; rd takes the
old word. Where the spec leaves a point open it follows the model's choice: assumption 52. -/
def Obligations.AtomicsReadModifyWrite : Prop :=
  ∀ (s : State) (l : Fin 52) (op : AtOp) (h rel acq : Bool) (rd rs1 rs2 : Fin 32) (p : Phys) (s2 : State),
    atomicVa (bankAt l s) rs1 h % 4 = 0 → translate l (atomicVa (bankAt l s) rs1 h) .a (fetched l s) = (.ok p, s2) →
    targetTrap s2 l p = none → atomicRegion s2 p = true → (s2.lane l).bank.sbuf = [] → s2.ecc = [] → s2.cecc = [] →
    (∀ w, (s2.gate ((s2.lane l).req l (s2.lane l).inG).vmid p.pa 4 w).rsp = .ok) →
    Issues l (.atomic l op h rel acq rd rs1 rs2) { modes := .all, untimed := true, absent := none } (targetCost s2 l p 0 0) s →
    Completes (.atomic l op h rel acq rd rs1 rs2) s (fun t => ∃ old : Word,
      let b := (bankAt l s).reg rs2
      let d := (bankAt l s).reg rd
      old.toNat = leVal (memRead s2.mem (s2.canon p.pa) 4) ∧
      t = { s2 with mem := t.mem, lanes := t.lanes } ∧ (∀ j, j ≠ l → t.lane j = s2.lane j) ∧
      t.lane l = (spentLane (targetCost s2 l p 0 0) (s2.lane l)).modBank (onward (Bank.setReg rd old)) ∧
      (op = .cas → old ≠ d → t.mem = s2.mem) ∧
      (op = .cas → old = d → Stored s2.mem t.mem (s2.canon p.pa) (leBytes 4 b.toNat)) ∧
      (op = .swap → Stored s2.mem t.mem (s2.canon p.pa) (leBytes 4 b.toNat)) ∧
      (∀ f : AluOp, (op, f) ∈ [(AtOp.add, AluOp.add), (.and, .and), (.or, .or), (.xor, .xor), (.max, .max), (.min, .min),
        (.maxu, .maxu), (.minu, .minu)] → ∃ v, AluSays f old b v ∧ Stored s2.mem t.mem (s2.canon p.pa) (leBytes 4 v.toNat)))

/-! ### Image, timer and edge instructions (R104, R105, R124 to R127, R182, R195) -/

/-- Image loads and stores, img.set and img.clr reach the addressed bit or bytes of data memory and nothing else. -/
def Obligations.ImageInstructions : Prop :=
  ∀ (s : State) (l : Fin 52) (rd rs1 rs2 : Fin 32) (imm : BitVec 8),
    let s1 := fetched l s
    let b := bankAt l s
    let a := imgAddr b rs1 rs2 imm
    let o := imgOffset b a
    (∀ op : ImgLd, ImageOk b a (imgLdSize op) (op == .bit) false → DataReady l o (imgLdSize op) s1 →
      Issues l (.imgLd l op rd rs1 rs2 imm) plain 2 s →
      let v := dataVal s1 l o (imgLdSize op)
      (op = .d → Runs l (.imgLd l op rd rs1 rs2 imm) 2 (Bank.setPair rd v) s) ∧
      (op ≠ .d → ∃ w : Word, Runs l (.imgLd l op rd rs1 rs2 imm) 2 (Bank.setReg rd w) s ∧
        (op = .bit → w.toNat = v / 2 ^ imgBit a % 2) ∧ (op = .bu ∨ op = .hu ∨ op = .w → w.toNat = v) ∧
        (op = .b → w.toInt = signedOf 8 v) ∧ (op = .h → w.toInt = signedOf 16 v))) ∧
    (∀ op : ImgSt, ImageOk b a (imgStSize op) (op == .bit) true → DataReady l o (imgStSize op) s1 →
      let n := if op = .bit then 2 else 1
      let v := if op = .d then b.pair rd else (b.reg rd).toNat
      Issues l (.imgSt l op rd rs1 rs2 imm) plain n s →
      (op ≠ .bit → Completes (.imgSt l op rd rs1 rs2 imm) s
        (MemStep l n (onward id) (dataByte s1 l o) (leBytes (imgStSize op) v) s1)) ∧
      (op = .bit → ∃ c, BitPut (dataVal s1 l o 1) (imgBit a) ((b.reg rd).getLsbD 0) c ∧
        Completes (.imgSt l op rd rs1 rs2 imm) s (MemStep l n (onward id) (dataByte s1 l o) [c] s1))) ∧
    (ImageOk b a 1 true true → DataReady l o 1 s1 → Issues l (.imgSet l rs1 rs2 imm) plain 2 s →
      ∃ c, BitPut (dataVal s1 l o 1) (imgBit a) true c ∧
        Completes (.imgSet l rs1 rs2 imm) s (MemStep l 2 (onward id) (dataByte s1 l o) [c] s1)) ∧
    (ImageOk b a 1 true true → DataReady l o 1 s1 → Issues l (.imgClr l rs1 rs2 imm) plain 2 s →
      ∃ c, BitPut (dataVal s1 l o 1) (imgBit a) false c ∧
        Completes (.imgClr l rs1 rs2 imm) s (MemStep l 2 (onward id) (dataByte s1 l o) [c] s1))

/-- What a timer instruction leaves (R125, R126): ET and FLAGS of its block, Q in rd, PT and TAG as they were. -/
def Sys2Proof.Machine.TimerInstructions : Prop :=
  ∀ (s : State) (l : Fin 52) (rd rs1 rs2 : Fin 32) (imm : BitVec 8) (fn : TmrFn) (i : Instr),
    (fn, i) ∈ [(TmrFn.ton, Instr.tmrTon l rd rs1 rs2 imm), (.tof, .tmrTof l rd rs1 rs2 imm), (.tp, .tmrTp l rd rs1 rs2 imm),
      (.rst, .tmrRst l rd rs1 imm)] →
    let s1 := fetched l s
    let b := bankAt l s
    let a := blockAddr b rs1 imm
    let o := imgOffset b a
    imgBit a = 0 → imgByte a % 16 = 0 → ImageOk b a 16 false true → DataReady l o 16 s1 → Issues l i plain 5 s →
    let fl := dataVal s1 l (o + 8) 4
    let r := tmrSays fn (periods s1 l) (dataVal s1 l o 4) (dataVal s1 l (o + 4) 4) ((b.reg rs2).getLsbD 0) (fl.testBit 1)
      (fl.testBit 2)
    Completes i s (fun t =>
      t = { s1 with mem := t.mem, lanes := t.lanes } ∧ (∀ j, j ≠ l → t.lane j = s1.lane j) ∧
      t.lane l = (spentLane 5 (s1.lane l)).modBank (onward (Bank.setReg rd (if r.2.2.2 then 1 else 0))) ∧
      ∃ m, Stored s1.mem m (dataByte s1 l o) (leBytes 4 r.1) ∧
        Stored m t.mem (dataByte s1 l o + 8)
          (leBytes 4 ((if r.2.1 then 4 else 0) + (if r.2.2.1 then 2 else 0) + if r.2.2.2 then 1 else 0)))

/-- What an edge instruction leaves (R127): its report in rd and PREV := IN; on an address of the edge-init set it reports 0
and frees the entry (R195). -/
def Sys2Proof.Machine.EdgeInstructions : Prop :=
  ∀ (s : State) (l : Fin 52) (rd rs1 rs2 : Fin 32) (imm : BitVec 8) (fn : EdgFn) (i : Instr),
    (fn, i) ∈ [(EdgFn.r, Instr.edgR l rd rs1 rs2 imm), (.f, .edgF l rd rs1 rs2 imm), (.b, .edgB l rd rs1 rs2 imm),
      (.init, .edgInit l rd rs1 rs2 imm)] →
    let s1 := fetched l s
    let b := bankAt l s
    let a := blockAddr b rs1 imm
    let o := imgOffset b a
    let inp := (b.reg rs2).getLsbD 0
    ImageOk b a 1 true true → DataReady l o 1 s1 → Issues l i plain 3 s →
    let old := dataVal s1 l o 1
    ∃ c, BitPut old (imgBit a) inp c ∧
      (fn = .init ∨ (∀ t, runningTask (s1.lane l) = some t → (t, a) ∉ (s1.lane l).edges) →
        Completes i s (MemStep l 3 (onward (Bank.setReg rd (if edgSays fn (old.testBit (imgBit a)) inp then 1 else 0)))
          (dataByte s1 l o) [c] s1)) ∧
      (∀ t, fn ≠ .init → runningTask (s1.lane l) = some t → (t, a) ∈ (s1.lane l).edges →
        Completes i s (fun u => u = { s1 with mem := u.mem, lanes := u.lanes } ∧ Stored s1.mem u.mem (dataByte s1 l o) [c] ∧
          (u.lane l).bank.reg rd = 0 ∧ (u.lane l).edges = (s1.lane l).edges.erase (t, a)))

/-- Timer and edge instructions over an image. -/
def Obligations.TimersAndEdges : Prop := TimerInstructions ∧ EdgeInstructions

/-! ### Windows and checkpoint commits (R128, R129) -/

/-- bez.open empties bank F's store buffer and opens a window; bez.close gives rd the beats of the window, its own among
them, and closes it; chk.commit takes a snapshot of data memory into the activation's record and chk.size counts it.
Where the spec leaves a point open it follows the model's choice: assumption 34. -/
def Obligations.WindowsAndCommits : Prop :=
  ∀ (s : State) (l : Fin 52) (rd rs1 : Fin 32),
    let s1 := fetched l s
    let x := s1.lane l
    (Issues l (.bezOpen l) plain 1 s → x.inG = false → x.timed = false →
      Completes (.bezOpen l) s (fun t =>
        let u := drainBuf l false s1
        t = { u with lanes := t.lanes, draws := t.draws } ∧ (∀ j, j ≠ l → t.lane j = u.lane j) ∧
        (t.lane l).f.sbuf = [] ∧ t.lane l = { u.lane l with
          f := { (u.lane l).f with status := { (u.lane l).f.status with timed := true }, pc := x.f.pc + 4 },
          winBeats := 0, beatcnt := (t.lane l).beatcnt })) ∧
    (Issues l (.bezClose l rd) plain 1 s → x.inG = false → x.timed = true →
      Completes (.bezClose l rd) s (fun t => OnlyLane l s1 t ∧ t.lane l = { x with
        f := { x.f.setReg rd (BitVec.ofNat 32 (x.winBeats + 1)) with
          status := { x.f.status with timed := false }, pc := x.f.pc + 4 },
        winBeats := 0, beatcnt := x.beatcnt + 1 })) ∧
    (∀ (imm : BitVec 9) (r : C0Run) (k : Task), x.inG = true → x.run = some r → s1.task r.task = some k →
      let n := 8 * (imm.toNat + 1)
      let o := (x.g.reg rs1).toNat
      let cost := 6 + (imm.toNat + 2) / 2
      o % 8 = 0 → (r.items.map (fun i => i.bytes.length)).sum + n ≤ k.desc.chkSize → DataReady l o n s1 →
      Issues l (.chkCommit l rs1 imm) plain cost s →
      Completes (.chkCommit l rs1 imm) s (fun t => OnlyLane l s1 t ∧ ∃ r', (t.lane l).run = some r' ∧
        r'.beats = r.beats + cost ∧
        r'.items.flatMap (·.bytes) = r.items.flatMap (·.bytes) ++ memRead s1.mem (dataByte s1 l o) n ∧
        (t.lane l).g = { x.g with pc := x.g.pc + 4 } ∧ (t.lane l).f = x.f)) ∧
    (∀ r : C0Run, x.inG = true → x.run = some r → Issues l (.chkSize l rd) plain 1 s →
      Runs l (.chkSize l rd) 1 (Bank.setReg rd (BitVec.ofNat 32 (r.items.map (fun i => i.bytes.length)).sum)) s)

/-! ### Synchronisation (R93, R96, R130) -/

/-- fence, fence.w and fence.i empty the running bank's store buffer into memory; tsync does so and starts to wait, and
completes at once for the concentrator of a module without die W; wait starts to wait, or completes when an enabled
interrupt is pending; both waits end as R130 and R215 say, one instruction further. Where the spec leaves a point open
it follows the model's choice: assumption 62. -/
def Obligations.FencesAndWaits : Prop :=
  ∀ (s : State) (l : Fin 52),
    let s1 := fetched l s
    let drained := drainBuf l (s1.lane l).inG (spend l 1 s1)
    let drained0 := drainBuf l (s1.lane l).inG s1
    let ended := fun (u t : State) => OnlyLane l u t ∧ (t.lane l).bank.sbuf = [] ∧ t.lane l = (u.lane l).modBank (onward id)
    (Issues l (.fence l) plain 1 s → Completes (.fence l) s (ended drained)) ∧
    (Issues l (.fenceW l) plain 1 s → Completes (.fenceW l) s (ended drained)) ∧
    (Issues l (.fenceI l) (untimed .all) 0 s → (s1.lane l).timed = false → Completes (.fenceI l) s (ended drained0)) ∧
    (∀ e : Fin 4, Issues l (.tsync l e) (untimed .ks) 0 s → (s1.lane l).timed = false →
      (e.val = 2 ∧ s1.dieW = false → Completes (.tsync l e) s (ended drained0)) ∧
      (¬ (e.val = 2 ∧ s1.dieW = false) → Completes (.tsync l e) s (fun t => OnlyLane l drained0 t ∧
        (t.lane l).bank.sbuf = [] ∧ ∃ mark olds, t.lane l = { drained0.lane l with st := .tsync e mark olds }))) ∧
    (∀ e mark olds, (s.lane l).st = .tsync e mark olds → (s.lane l).inG = false → (s.lane l).halted = false →
      (tsyncOver s e mark olds = true → Completes (.tsyncComplete l) s (fun t => OnlyLane l s t ∧
        t.lane l = { s.lane l with st := .running, f := onward id (s.lane l).f })) ∧
      (tsyncOver s e mark olds = false → Ignored (.tsyncComplete l) s)) ∧
    (Issues l (.wait l) (untimed .ks) 0 s → (s1.lane l).timed = false →
      (waitOver s1 l (s1.lane l).k = true → Runs l (.wait l) 0 id s) ∧
      (waitOver s1 l (s1.lane l).k = false → Completes (.wait l) s (fun t => OnlyLane l s1 t ∧
        t.lane l = { s1.lane l with st := .waiting }))) ∧
    ((s.lane l).st = .waiting → (s.lane l).inG = false → (s.lane l).halted = false → (s.lane l).gated = false →
      (waitOver s l (s.lane l).k = true → Completes (.waitComplete l) s (fun t => OnlyLane l s t ∧
        t.lane l = { s.lane l with st := .running, f := onward id (s.lane l).f })) ∧
      (waitOver s l (s.lane l).k = false → Ignored (.waitComplete l) s))

/-- yield: in K or S with no other context on the lane it completes at once; in bank F mode T it ends the activation of
the task that runs; in bank G the last entry of a sequence gives the lane back to bank F as it stood (R130, R152).
Where the spec leaves a point open it follows the model's choice: assumptions 58, 89. -/
def Obligations.YieldEndsOrOffers : Prop :=
  ∀ (s : State) (l : Fin 52),
    let s1 := fetched l s
    let x := s1.lane l
    (x.inG = false → x.timed = false → x.ticket = none → x.f.status.mode ≠ .t → x.ctxs = [] → (s.lane l).inG = false →
      Issues l (.yieldLane l) (untimed .all) 2 s → Runs l (.yieldLane l) 0 id s) ∧
    (∀ (t : Nat) (k : Task), isCluster l = true → x.inG = false → x.timed = false → x.ticket = none → x.f.status.mode = .t → x.cur = some (t / 256, some t) →
      x.f.sbuf = [] → x.ctxs = [] → s1.task t = some k → k.desc.cls = 1 → k.desc.omapn = 0 → k.stopReq = false →
      k.dropReq = false → (s.lane l).inG = false → Issues l (.yieldLane l) (untimed .all) 2 s →
      Completes (.yieldLane l) s (fun u => (u.lane l).cur = none ∧ (u.lane l).st = .idle ∧ (∀ k', u.task t = some k' → k'.active = false) ∧
        ∀ j, j ≠ l → u.lane j = s1.lane j))

/-! ### Exceptions (R97 to R101, R131) -/

/-- Taking an exception in bank F: what is saved, what STATUS becomes, where PC goes; no other state changes. To K go
CALL_T, and what mode T raises, but for causes that always go to S; on lanes without mode K everything goes to S (R97,
R98). Where the spec leaves a point open it follows the model's choice: assumption 55. -/
def Obligations.ExceptionEntryFollowsR98 : Prop :=
  ∀ (s : State) (l : Fin 52) (t : Trap) (async : Bool),
    let x := s.lane l
    let always : List Cause := [.fetchS2, .fetchBus, .callK, .brk, .loadS2, .storeS2, .memEcc]
    let toK := takesK l x t
    (t.cause ∈ always → toK = false) ∧ (isCluster l = false → toK = false) ∧
    (isCluster l = true → t.cause = .callT → toK = true) ∧
    (isCluster l = true → t.cause ∉ always → t.cause ≠ .callT → (∀ n, t.cause ≠ .irq n) →
      (toK = true ↔ x.f.status.mode = .t)) ∧
    (t.cause ≠ .memEcc → (∀ n, t.cause = .irq n → n < 8) → t.resp < 4 → t.info < 256 → t.vahi < 128 → CanEnter toK x →
      OnlyLane l s (takeF l t async s) ∧
      Entered toK t.cause.code t.eval t.info t.resp t.vahi async x ((takeF l t async s).lane l))

/-- An exception to S that meets STATUS.MODE = S and EXL = 1 on a management or analytic lane resets that lane and logs an
event; M0 and analytic lanes restart idle, M1 to M3 at the boot ROM (R99, R465). -/
def Sys2Proof.Machine.DoubleFaultResetsTheLane : Prop :=
  ∀ (s : State) (l : Fin 52) (t : Trap) (async : Bool),
    isCluster l = false → (s.lane l).ticket = none → (s.lane l).f.status.mode = .s → (s.lane l).f.status.exl = true →
    t.cause ≠ .memEcc → (s.log.queue.length < 256) →
    let u := takeF l t async s
    u.lane l = { lane0 (if l.val = 40 ∨ 44 ≤ l.val then .idle else .running) with halted := (s.lane l).halted } ∧
      (∀ j, j ≠ l → u.lane j = s.lane j) ∧ u.log.queue.length = s.log.queue.length + 1 ∧
      u = { s with lanes := u.lanes, log := u.log }

/-- An exception in bank G is not handled there: its record goes to G0CAUSE with VALID, G0EPC and G0EVAL, and from the last
entry of a sequence the lane is back in bank F, whose registers stand as they were (R100). -/
def Sys2Proof.Machine.BankGAbortReturnsToBankF : Prop :=
  ∀ (s : State) (l : Fin 52) (t : Trap) (r : C0Run),
    let x := s.lane l
    x.inG = true → x.run = some r → x.cur.isSome = true → x.st = .running →
    t.cause ≠ .memEcc → (∀ n, t.cause ≠ .irq n) → t.resp < 4 → t.info < 256 → t.vahi < 128 →
    (∀ k, s.task r.task = some k → k.desc.flim = 0 ∧ k.stopReq = false ∧ k.dropReq = false) →
    (∀ p ∈ (List.range 16).zip x.entries, p.1 ≤ r.entry ∨ p.2.v = false ∨ p.2.src ≠ r.src) →
    let y := (takeTrap l t s).lane l
    y.inG = false ∧ y.run = none ∧ y.f = x.f ∧ y.k = x.k ∧ y.g0epc = x.g.pc ∧ y.g0eval = BitVec.ofNat 32 t.eval ∧
      y.g0cause.getLsbD 31 = true ∧ CauseSays (y.g0cause &&& 0x7FFFFFFF#32) t.vahi t.info t.resp false t.cause.code

/-- What a second fault in S and a fault of bank G do (R99, R101). Where the spec leaves a point open it follows the
model's choice: assumption 60. -/
def Obligations.BankFaultsResetOrReturn : Prop := DoubleFaultResetsTheLane ∧ BankGAbortReturnsToBankF

/-- sys.call raises CALL_T in T and CALL_K in K and S, break raises BREAK, an unimplemented word raises ILLEGAL with its
major opcode, each before any effect of its own (R108, R131). -/
def Obligations.CallsBreaksAndIllegalWords : Prop :=
  ∀ (s : State) (l : Fin 52),
    let s1 := fetched l s
    let x := s1.lane l
    (∀ imm : BitVec 8, Issues l (.sysCall l imm) (untimed .all) 0 s → x.timed = false →
      let toK := isCluster l && x.f.status.mode == .t
      CanEnter toK x → Completes (.sysCall l imm) s (fun t => OnlyLane l s1 t ∧
        Entered toK (if x.f.status.mode = .t then 0x11 else 0x12) (instrWord (.sysCall l imm)) imm.toNat 0 0 false x (t.lane l))) ∧
    (∀ imm : BitVec 8, Issues l (.brk l imm) (untimed .all) 0 s → x.timed = false → CanEnter false x →
      Completes (.brk l imm) s (fun t => OnlyLane l s1 t ∧
        Entered false 0x13 (instrWord (.brk l imm)) imm.toNat 0 0 false x (t.lane l))) ∧
    (∀ w : Word, illegalWord l (isCluster l) w.toNat = true → (s.lane l).canRun = true → (s.lane l).inG = false →
      (s.lane l).posted = [] → fetchOk l s = true →
      let toK := isCluster l && x.f.status.mode == .t
      CanEnter toK x → Completes (.illegalInstruction l w) s (fun t => OnlyLane l s1 t ∧
        Entered toK 0x05 w.toNat (w.toNat / 2 ^ 26) 0 0 false x (t.lane l)))

/-- eret in K or S restores PC and STATUS from the saved pair, opens no timed window, and leaves the saved pair (R98).
Where the spec leaves a point open it follows the model's choice: assumption 55. -/
def Obligations.EretRestoresTheSavedState : Prop :=
  ∀ (s : State) (l : Fin 52),
    let s1 := fetched l s
    let x := s1.lane l
    let inK := x.f.status.mode == .k
    let tgt := if inK then x.k.kepc else x.sr.sepc
    let w := if inK then x.k.kestatus else x.sr.sestatus
    x.inG = false → x.timed = false → (s.lane l).inG = false → (s.lane l).f.status.mode = x.f.status.mode →
    savedStatus (s.lane l) = w.toNat → x.f.status.mode ≠ .t →
    Issues l (.eret l) { untimed .ks with badMode := !supportsMode l (modeOf (bitsOf w.toNat 3 2)) } 0 s → tgt.toNat % 4 = 0 →
    Completes (.eret l) s (fun t => OnlyLane l s1 t ∧ ∃ st : Status, t.lane l = { x with f := { x.f with pc := tgt, status := st } } ∧
      st.timed = false ∧ st.exl = w.getLsbD 2 ∧ st.bet = w.getLsbD 1 ∧ st.ie = w.getLsbD 0 ∧
      st.mode.code = w.toNat / 8 % 4 ∧ st.xoff = if inK then x.f.status.xoff else w.getLsbD 7)

/-- At a boundary of bank F the lowest pending interrupt whose conditions hold is taken, as an asynchronous exception to
the mode it is routed to; IPI's latch is cleared by it and no other source is (R97, R101). Where the spec leaves a
point open it follows the model's choice: assumptions 31, 59. -/
def Obligations.InterruptsAreTakenInOrder : Prop :=
  ∀ (s : State) (l : Fin 52),
    let x := s.lane l
    (∀ n : Nat, x.atBoundary = true → x.posted = [] → x.ticket = none → takeable s l = some n →
      (∀ m < n, ¬ (enabledPending s l x.k m = true ∧ (routesK x m = true → x.f.status.mode ≠ .s))) ∧
      Completes (.interruptTake l) s (fun t =>
        t = { s with lanes := t.lanes, power := t.power } ∧ (∀ j, j ≠ l → t.lane j = s.lane j) ∧
        ∃ eval info, Entered (isCluster l && routesK x n) (0x30 + n) eval info 0 0 true
            (if n = 4 then { x with ipi := none } else x) (t.lane l) ∧
          (n = 1 → eval = x.g0epc.toNat) ∧ (n ≠ 1 → eval = 0) ∧
          (∀ id, n = 4 → x.ipi = some id → id < 256 → info = id))) ∧
    (x.atBoundary = false → Ignored (.interruptTake l) s)

/-! ### System registers, translation-buffer and kernel instructions (R72, R73, R131 to R134) -/

/-- sys.rd gives rd the register's value; a permitted sys.wr of a plain register stores the bits it holds, other plain
registers stay; a forbidden one traps with SYSREG and has no effect. Where the spec leaves a point open it follows the
model's choice: assumptions 34, 64. -/
def Obligations.SystemRegisterAccess : Prop :=
  ∀ (s : State) (l : Fin 52) (r : Fin 32) (num : BitVec 12),
    let s1 := fetched l s
    let x := s1.lane l
    let n := num.toNat
    let v := (x.bank.reg r).toNat
    (Issues l (.sysRd l r num) plain 2 s → srDenied l x n none = false → n ≠ 3 → n ≠ 4 →
      Runs l (.sysRd l r num) 2 (Bank.setReg r (BitVec.ofNat 32 (srValue s1 l n))) s) ∧
    (Issues l (.sysRd l r 4) plain 2 s →
      Runs l (.sysRd l r 4) 2 (fun b => { b.setReg r (b.lastResp.zeroExtend 32) with lastResp := 0 }) s) ∧
    (∀ m, (n, m) ∈ plainSysRegs → srDenied l x n (some v) = false → bankAt l s = (s.lane l).bank → x.inG = (s.lane l).inG →
      Issues l (.sysWr l r num) { plain with badMode := srBadMode l (s.lane l) n v } 2 s →
      Completes (.sysWr l r num) s (fun t => OnlyLane l s1 t ∧ srValue t l n = v &&& m ∧
        ∀ q ∈ plainSysRegs, q.1 ≠ n → srValue t l q.1 = srValue s1 l q.1)) ∧
    (Issues l (.sysRd l r num) plain 2 s → srDenied l x n none = true → x.inG = false →
      let toK := isCluster l && x.f.status.mode == .t
      CanEnter toK x → Completes (.sysRd l r num) s (fun t => OnlyLane l s1 t ∧
        Entered toK 0x07 (instrWord (.sysRd l r num)) 0 0 0 false x (t.lane l)))

/-- sys.ipi latches the sender on the addressed powered lane; tlb.inv removes the entries of its scope from the lanes it
reaches and no other; tlb.pin and tlb.unpin change the lane's pins alone; alk.post and alk.poll answer as R134 says.
Where the spec leaves a point open it follows the model's choice: assumptions 46, 47, 58, 59. -/
def Obligations.LaneServiceInstructions : Prop :=
  ∀ (s : State) (l : Fin 52) (rd rs1 : Fin 32),
    let s1 := fetched l s
    let x := s1.lane l
    let a := (x.f.reg rs1).toNat
    let d := (x.f.reg rd).toNat
    x.inG = false → x.timed = false → (s.lane l).inG = false → bankAt l s = (s.lane l).bank →
    (∀ j : Fin 52, laneIdOf j = a % 256 → absentLane s (a % 256 / 16) (a % 256 % 16) = none →
      (isCluster j = true → s1.domOn (laneGroup j) = true) → (s1.lane j).st ≠ .off → j ≠ l →
      Issues l (.sysIpi l rs1) { untimed .s with absent := none } 0 s →
      Completes (.sysIpi l rs1) s (fun t => t = { s1 with lanes := t.lanes } ∧
        t.lane j = { s1.lane j with ipi := some (laneIdOf l) } ∧ t.lane l = { x with f := onward id x.f } ∧
        ∀ i, i ≠ j → i ≠ l → t.lane i = s1.lane i)) ∧
    (∀ imm : BitVec 12, Issues l (.tlbInv l rd rs1 imm) { untimed .ks with absent := none } 0 s →
      (imm.getLsbD 3 = true → absentLane s (imm.toNat / 128 % 8) 0 = none) →
      Completes (.tlbInv l rd rs1 imm) s (fun t => t = { s1 with lanes := t.lanes } ∧ ∀ j : Fin 52,
        let gone := fun (e : TlbEntry) =>
          (if x.f.status.mode = .k then e.vmid = x.f.vmid.toNat
           else imm.toNat % 4 = 3 ∨ e.vmid = if imm.toNat % 4 < 2 then d / 256 % 256 else a % 256) ∧
          (imm.toNat % 4 = 0 → e.asid = d % 256 ∧
            (if e.big then e.page / 512 = a % 2 ^ 27 / 512 else e.page = a % 2 ^ 27)) ∧
          (imm.toNat % 4 = 1 → e.asid = d % 256)
        (∀ e, e ∈ (t.lane j).tlb ↔ e ∈ (s1.lane j).tlb ∧ ¬ (j ∈ invLanes s1 l imm.toNat ∧ gone e)) ∧
        { t.lane j with tlb := [] } = { (if j = l then { x with f := onward id x.f } else s1.lane j) with tlb := [] })) ∧
    (Issues l (.tlbPin l rd rs1) (untimed .s) 0 s →
      ((d / 2 ^ 16 ≠ 0 ∨ d / 16 % 16 ≠ 0) → Runs l (.tlbPin l rd rs1) 0 (Bank.setReg rd 0xFFFFFFFF) s) ∧
      (∀ v s2, d / 2 ^ 16 = 0 → d / 16 % 16 = 0 → pinOp l (a % 2 ^ 27) (d / 256) ⟨d % 16, by omega⟩ s1 = (.ok v, s2) →
        Completes (.tlbPin l rd rs1) s (fun t => OnlyLane l s2 t ∧
          t.lane l = (s2.lane l).modBank (onward (Bank.setReg rd (BitVec.ofNat 32 v)))))) ∧
    (∀ all : Bool, Issues l (.tlbUnpin l rs1 all) (untimed .s) 0 s →
      Completes (.tlbUnpin l rs1 all) s (fun t =>
        (∀ i : Fin 16, (t.lane l).pins[i] = if all ∨ i.val = a % 16 then none else x.pins[i]) ∧
        { t.lane l with pins := x.pins } = { x with f := onward id x.f } ∧ (∀ j, j ≠ l → t.lane j = s1.lane j) ∧
        (s1.roleOf (laneGroup l) = none ∨ isCluster l = false → t.mem = s1.mem))) ∧
    (∀ (p : Phys) (s2 s3 : State) (v : Nat), s1.dieW = true → s.dieW = true → a % 64 = 0 → translate l a .r s1 = (.ok p, s2) →
      targetTrap s2 l p = none → loadBytes l false p 64 s2 = (.ok v, s3) →
      Issues l (.alkPost l rd rs1) (alkKind s) (targetCost s2 l p 0 0) s →
      Completes (.alkPost l rd rs1) s (fun t =>
        (32 ≤ (s3.wams.tickets.filter (·.live)).length → OnlyLane l s3 t ∧
          t.lane l = (s3.lane l).modBank (onward (Bank.setReg rd 0xFFFFFFFF))) ∧
        ((s3.wams.tickets.filter (·.live)).length < 32 → ticketOf s3.wams s3.wams.nextTicket = none →
          (t.lane l).bank = onward (Bank.setReg rd (BitVec.ofNat 32 s3.wams.nextTicket)) (s3.lane l).bank ∧
          ∃ k, ticketOf t.wams s3.wams.nextTicket = some k ∧ k.pc = v % 2 ^ 32 ∧ k.vmid = (s3.lane l).f.vmid.toNat))) ∧
    (s.dieW = true → Issues l (.alkPoll l rd rs1) (alkKind s) 0 s →
      ∃ r : Nat, (ticketOf s1.wams a = none → r = 4) ∧
        (∀ k, ticketOf s1.wams a = some k → r = if 64 < (s1.wams.nextTicket + 2 ^ 31 - a % 2 ^ 31) % 2 ^ 31 then 4
          else if k.st < 2 ∧ (laneOfTicket s1 a).isSome then 1 else k.st) ∧
        Runs l (.alkPoll l rd rs1) 0 (Bank.setReg rd (BitVec.ofNat 32 r)) s)

/-! ### The fabric's answers and register accesses (R10 to R13, R471 to R473, R496) -/

/-- A refused access has no effect but its completion and the fault record: the count of its response, and the syndrome when
none is held (R471 to R473). -/
def Sys2Proof.Machine.RefusedAccessesAreRecorded : Prop :=
  ∀ (s : State) (rq : Req) (a size : Nat) (v : Word),
    let synd := fun (g : Gate) (k : Nat) (t : State) =>
      t.fbit SYS_FSYND0_VALID = true ∧ t.fget SYS_FSYND0_RESP = rspCode g.rsp ∧ t.fget SYS_FSYND0_KIND = k ∧
        t.fget SYS_FSYND0_VC = reqVc rq ∧ t.fget SYS_FSYND0_VMID = rq.vmid % 256 ∧ t.fget SYS_FSYND0_REQ = rq.id % 256 ∧
        t.fget SYS_FSYND1_ADDRLO = a % 2 ^ 32 ∧ t.fget SYS_FSYND2_ADDRHI = a / 2 ^ 32 % 256 ∧ t.fget SYS_FSYND2_DOM = g.dom ∧
        t.fget SYS_FSYND3_NS = nsWord s.now
    let refusing := fun (g : Gate) (k : Nat) (t : State) => Refused g.rsp s t ∧ Counted (rspCounter g.rsp) s t ∧
      (s.fbit SYS_FSYND0_VALID = false → synd g k t) ∧
      (s.fbit SYS_FSYND0_VALID = true → RegsExcept [rspCounter g.rsp] s t)
    ((s.gate rq.vmid a size true).rsp ≠ .ok →
      Completes (.registerWrite rq a size v) s (refusing (s.gate rq.vmid a size true) 1)) ∧
    ((s.gate rq.vmid a 4 false).rsp ≠ .ok → Completes (.rcRegisterRead rq a) s (refusing (s.gate rq.vmid a 4 false) 0))

/-- The order in which an access is answered: an absent unit, then an address, width or ticket that is not allowed, then an
unpowered domain, then a stopped clock (R472). -/
def Sys2Proof.Machine.AccessesAreCheckedInOrder : Prop :=
  ∀ (s : State) (vmid a size : Nat) (write : Bool),
    let g := s.gate vmid a size write
    let register := ∃ i off, regionOf a = .block i off
    (g.rsp = .ok ∨ g.rsp = .absent ∨ g.rsp = .denied ∨ g.rsp = .unpowered) ∧
    (s.isAbsent a = true → g.rsp = .absent) ∧
    (s.isAbsent a = false → regionOf a = .hole → g.rsp = .denied) ∧
    (s.isAbsent a = false → register → (size ≠ 4 ∨ a % 4 ≠ 0) → g.rsp = .denied) ∧
    (s.isAbsent a = false → register → vmid < 64 → write = true →
      (∀ off, regionOf a ≠ .block 15 off ∧ regionOf a ≠ .block 21 off) → g.rsp = .denied) ∧
    (g.rsp = .unpowered → (g.dom < 15 ∧ g.dom = s.targetDom a ∧ s.domOn g.dom = false) ∨ (g.dom = 14 ∧ s.clockStopped a = true)) ∧
    (g.rsp = .ok → s.isAbsent a = false ∧ (s.targetDom a < 15 → s.domOn (s.targetDom a) = true) ∧ s.clockStopped a = false)

/-- Register accesses: the order of the checks, and what a refusal records (R472, R473). Where the spec leaves a point
open it follows the model's choice: assumptions 16, 53. -/
def Obligations.AccessesAreCheckedAndRecorded : Prop := RefusedAccessesAreRecorded ∧ AccessesAreCheckedInOrder

/-- What a permitted write does to each field of a register by its access code, and what it answers (R10, R11, R496). -/
def Obligations.FieldsFollowTheirAccessCodes : Prop :=
  ∀ (s : State) (fs : List Fld) (v : Nat), (fs.map Fld.key).Nodup →
    let bits := fun (f : Fld) => v / 2 ^ f.lo % 2 ^ f.width
    let lock := fun (a lo r : Nat) => (alookup (a * 32 + lo) s.regs).getD r ≠ 0
    (writeIllegal fs v = true → regWrite fs v s = (.denied, s)) ∧
    (writeIllegal fs v = false →
      let t := (regWrite fs v s).2
      ((regWrite fs v s).1 = .denied ↔ ∃ f ∈ fs, ∃ a lo r, f.acc = .rwl a lo r ∧ lock a lo r ∧ bits f ≠ s.fget f) ∧
      OnlyRegs fs s t ∧
      ∀ f ∈ fs, match f.acc with
        | .ro | .rc => t.fget f = s.fget f
        | .rw | .wo => t.fget f = bits f
        | .w1c => s.fget f < 2 ^ f.width → ∀ i, (t.fget f).testBit i = ((s.fget f).testBit i && !(bits f).testBit i)
        | .rws => t.fget f = if bits f = 0 then s.fget f else bits f
        | .rwl a lo r | .rwn a lo r => (lock a lo r → t.fget f = s.fget f) ∧ (¬ lock a lo r → t.fget f = bits f))

/-- Writes of memory and of a register of the FAB block, and reads that clear, as the commands complete them. Where the
spec leaves a point open it follows the model's choice: assumption 67. -/
def Obligations.BusCommandsComplete : Prop :=
  ∀ (s : State) (rq : Req) (a size off : Nat) (v : Word) (fs : List Fld),
    (∀ n, size = 2 ^ n → n ≤ 3 → regionOf a = .dram off → (s.gate rq.vmid a size true).rsp = .ok → s.ecc = [] → s.cecc = [] →
      Completes (.registerWrite rq a size v) s (fun t =>
        t = { s with mem := t.mem, resp := .ok, rdata := 0 } ∧ Stored s.mem t.mem a (leBytes size v.toNat))) ∧
    (regionOf a = .block 5 off → WriteGranted rq a s → findReg regsFAB a = some fs →
      Completes (.registerWrite rq a 4 v) s (fun t => ∃ u, (regWrite fs v.toNat s).2 = u ∧
        (writeIllegal fs v.toNat = false → writeLocked s fs v.toNat = false → t = { u with resp := .ok, rdata := 0 }) ∧
        (writeIllegal fs v.toNat = true ∨ writeLocked s fs v.toNat = true → Refused .denied u t))) ∧
    (regionOf a = .block 5 off → ReadGranted rq a s → findReg regsFAB a = some fs →
      Completes (.rcRegisterRead rq a) s (fun t => Answered (regValue s fs % 2 ^ 32) (fs.filter (·.acc = .rc)) s t ∧
        ∀ f ∈ fs, f.acc = .rc → t.fget f = 0)) ∧
    (∀ (p : Fin 13) (tx : Bool), ReadGranted rq (0xF0000B0000 + 0x1000 * p + (if tx then 0x28 else 0x20)) s →
      let n := if tx then s.net.oct[p].2 else s.net.oct[p].1
      Completes (.octetCounterLowRead rq p tx) s (fun t =>
        Answered (n % 2 ^ 32) [if tx then PORT_TXOCT_HI_N p else PORT_RXOCT_HI_N p]
          { s with net := { s.net with oct := s.net.oct.set p (if tx then (s.net.oct[p].1, 0) else (0, s.net.oct[p].2)) } } t ∧
        t.fget (if tx then PORT_TXOCT_HI_N p else PORT_RXOCT_HI_N p) = n / 2 ^ 32 % 2 ^ 32)) ∧
    (∀ (k : AccKind) (vc chan lane : Nat), LogRoom s → (∀ l, laneOfId rq.id = some l → rq.bankG = true ∨ (s.lane l).out = none) →
      Completes (.handshakeWatchdogExpiry rq a k vc chan none lane) s (fun t =>
        t = { s with regs := t.regs, log := t.log, resp := .timeout, rdata := 0xFFFFFFFF } ∧ RegsExcept faultFields s t ∧
        Counted SYS_FCNT_TMO s t ∧ t.log = logPlus s [eventOf s SYS_FCNT_TMO false 5 rq.vmid t.syndrome] ∧
        (s.fbit SYS_FSYND0_VALID = false → t.fget SYS_FSYND0_RESP = 4 ∧ t.fget SYS_FSYND0_KIND = accCode k ∧
          t.fget SYS_FSYND0_VC = vc % 4 ∧ t.fget SYS_FSYND2_CHAN = chan % 16)))

/-! ### Time base (R29 to R39, R58, R61) -/

/-- TB_INCR takes the values of R33; a step or set within TB_STEPMAX is applied and logged, a larger one refused and
counted, and TB_CTL.INVAL is barred by the lock (R33 to R37). Where the spec leaves a point open it follows the
model's choice: assumptions 12, 14, 19. -/
def Obligations.TimeBaseIsSteered : Prop :=
  ∀ (s : State) (rq : Req) (v : Word),
    let limit := s.fget TB_STEPMAX_MAX * 65536
    let d := signedOf 64 (v.toNat * 2 ^ 32 + s.fget TB_STEP_LO_STEP)
    let stepRefused := fun (fs : List Fld) (f : Fld) (args : List Nat) (t : State) =>
      t.fget TB_STAT_STEPREF = 1 ∧ Counted TB_CNT_STEPREF s t ∧
        Accepted (TB_STAT_STEPREF :: TB_CNT_STEPREF :: fs) { s with log := logPlus s [eventOf s f false 4 0xFF args] } t
    let ctl := [TB_CTL_REFIE, TB_CTL_TSQIE, TB_CTL_STEPIE]
    let enables := fun (t : State) =>
      t.fget TB_CTL_REFIE = v.toNat / 16 % 2 ∧ t.fget TB_CTL_TSQIE = v.toNat / 8 % 2 ∧ t.fget TB_CTL_STEPIE = v.toNat / 4 % 2
    let ns := s.fget TB_SET_NS_V
    let time := timeOfTriple ns (s.fget TB_SET_SECLO_V) (s.fget TB_SET_SECHI_V)
    (WriteGranted rq 0xF000090008 s →
      (0x3FEF9DB2 ≤ v.toNat ∧ v.toNat ≤ 0x4010624E → Completes (.tbIncrWrite rq v) s (fun t =>
        t.fget TB_INCR_INCR = v.toNat ∧ Accepted [TB_INCR_INCR] { s with tb := { s.tb with incrPend := some (v.toNat, 3) } } t)) ∧
      (v.toNat < 0x3FEF9DB2 ∨ 0x4010624E < v.toNat → Completes (.tbIncrWrite rq v) s (Refused .denied s))) ∧
    (WriteGranted rq 0xF000090014 s →
      (s.fbit TB_STAT_VALID = true → d.natAbs ≤ limit → LogRoom s → Completes (.tbStepRequest rq v) s (fun t =>
        (t.tb.count : Int) = (s.tb.count + d * 4096) % (2 ^ 48 * secUnits * 4096 : Nat) ∧
        Accepted [] { s with tb := { s.tb with count := t.tb.count },
                             log := logPlus s [eventOf s TB_STEP_HI_STEP false 3 0xFF (tripleOf t.now ++ [0])] } t)) ∧
      (s.fbit TB_STAT_VALID = true → limit < d.natAbs → LogRoom s → Completes (.tbStepRequest rq v) s
        (stepRefused [] TB_STEP_HI_STEP [s.fget TB_STEP_LO_STEP, v.toNat])) ∧
      (s.fbit TB_STAT_VALID = false → Completes (.tbStepRequest rq v) s (Refused .denied s))) ∧
    (WriteGranted rq 0xF000090000 s →
      (v.getLsbD 1 = true → s.fbit TB_LOCK_LOCK = true → Completes (.tbSet rq v) s (Refused .denied s)) ∧
      (999999999 < ns → Completes (.tbSet rq v) s (Refused .denied s)) ∧
      (ns ≤ 999999999 → LogRoom s →
        ((s.fbit TB_STAT_VALID = false ∧ v.getLsbD 1 = false) ∨ (v.getLsbD 1 = true ∧ s.fbit TB_LOCK_LOCK = false) →
          Completes (.tbSet rq v) s (fun t => t.fbit TB_STAT_VALID = true ∧ enables t ∧
            Accepted (TB_STAT_VALID :: ctl) { s with tb := { s.tb with count := time * 4096 },
                                                     log := logPlus s [{ eventOf s TB_CTL_SET false 3 0xFF (tripleOf time ++ [1]) with tsinv := true }] } t)) ∧
        (s.fbit TB_STAT_VALID = true → v.getLsbD 1 = false →
          (((time * 4096 : Nat) - (s.tb.count : Int)).natAbs ≤ limit * 4096 → Completes (.tbSet rq v) s (fun t => enables t ∧
            Accepted ctl { s with tb := { s.tb with count := time * 4096 },
                                  log := logPlus s [eventOf s TB_CTL_SET false 3 0xFF (tripleOf time ++ [1])] } t)) ∧
          (limit * 4096 < ((time * 4096 : Nat) - (s.tb.count : Int)).natAbs → Completes (.tbSet rq v) s (fun t => enables t ∧
            stepRefused ctl TB_CTL_SET (tripleOf time ++ [1]) t)))) ∧
      (s.fbit TB_LOCK_LOCK = true → Completes (.tbInval rq v) s (Refused .denied s)) ∧
      (s.fbit TB_LOCK_LOCK = false → v.getLsbD 0 = false → Completes (.tbInval rq v) s (fun t =>
        t.fbit TB_STAT_VALID = false ∧ enables t ∧ Accepted (TB_STAT_VALID :: ctl) s t)) ∧
      (s.fbit TB_LOCK_LOCK = false → v.getLsbD 0 = true → exec (.tbInval rq v) s = exec (.tbSet rq (v ||| 2)) s))

/-- The oscillator's warm-up and the loss and return of the TB reference (R38, R39). -/
def Sys2Proof.Machine.TimeReferenceEvents : Prop :=
  ∀ s : State,
    Completes .ocxoWarm s (fun t => t.fget TB_STAT_OCXOWARM = 1 ∧ OnlyRegs [TB_STAT_OCXOWARM] s t) ∧
    (LogRoom s → Completes .tbReferenceLost s (fun t => t.fget TB_STAT_REFLOST = 1 ∧ t.fget TB_STAT_REFLOSTL = 1 ∧
      OnlyRegs [TB_STAT_REFLOST, TB_STAT_REFLOSTL] { s with log := logPlus s [eventOf s TB_STAT_REFLOST false 5 0xFF []] } t)) ∧
    Completes .tbReferenceRelock s (fun t => t.fget TB_STAT_REFLOST = 0 ∧ OnlyRegs [TB_STAT_REFLOST] s t)

/-- A read of TB_NOW_NS latches the requester's own snapshot; TB_TSQ3 and TDC results are removed by their read, results of a
channel the acquisition engine owns are hidden; TB_TDCCTL takes a write while the channel has an owner (R48, R53, R58, R61). -/
def Sys2Proof.Machine.TimeStampsAreReadOnce : Prop :=
  ∀ (s : State) (rq : Req) (k : Fin 8) (v : Word),
    (ReadGranted rq 0xF000090024 s → Completes (.tbNowLatch rq) s (fun t =>
      snapOf rq t = s.now ∧ t.rdata = nsWord s.now ∧
      (∀ q : Req, laneOfId q.id ≠ laneOfId rq.id ∨ ((laneOfId rq.id).isSome = true ∧ q.bankG ≠ rq.bankG) → snapOf q t = snapOf q s) ∧
      t = { s with tb := { s.tb with sharedSnap := t.tb.sharedSnap }, lanes := t.lanes, resp := .ok, rdata := t.rdata } ∧
      ∀ j, t.lane j = { s.lane j with f := { (s.lane j).f with snap := (t.lane j).f.snap },
                                      g := { (s.lane j).g with snap := (t.lane j).g.snap } })) ∧
    (ReadGranted rq 0xF000090050 s →
      (∀ e q, s.tb.tsq = e :: q → Completes (.tsqEntryRead rq) s
        (Answered ((2 ^ 31 + e.port * 2 ^ 20 + e.msgType * 2 ^ 16 + e.seq) % 2 ^ 32) [] { s with tb := { s.tb with tsq := q } })) ∧
      (s.tb.tsq = [] → Completes (.tsqEntryRead rq) s (Answered 0 [] s))) ∧
    (ReadGranted rq (0xF000090414 + 0x20 * k) s →
      (∀ x rise q, s.fget (TB_TDCCTL_OWNER k) ≠ 3 → (s.tdc k).results = (x, rise) :: q → Completes (.tdcResultRead rq k) s (fun t =>
        t.tdc k = { s.tdc k with results := q } ∧ (∀ j, j ≠ k → t.tdc j = s.tdc j) ∧
        Answered (secHiWord x % 2 ^ 32) [] { s with tb := { s.tb with tdc := t.tb.tdc } } t)) ∧
      (s.fget (TB_TDCCTL_OWNER k) = 3 ∨ (s.tdc k).results = [] → Completes (.tdcResultRead rq k) s (Answered 0 [] s))) ∧
    (WriteGranted rq (0xF000090400 + 0x20 * k) s →
      (s.fget (TB_TDCCTL_OWNER k) = 0 ∨ (23 < v.toNat % 32 ∧ v.toNat % 32 < 31) →
        Completes (.tbTdcctlWrite rq k v) s (Refused .denied s)) ∧
      (s.fget (TB_TDCCTL_OWNER k) ≠ 0 → v.toNat % 32 ≤ 23 ∨ v.toNat % 32 = 31 → Completes (.tbTdcctlWrite rq k v) s (fun t =>
        t.fget (TB_TDCCTL_SRC k) = v.toNat % 32 ∧ t.fget (TB_TDCCTL_EDGE k) = v.toNat / 32 % 4 ∧
        Accepted [TB_TDCCTL_EDGE k, TB_TDCCTL_SRC k] s t)))

/-- Reference edges, and captured stamps that are read once. Where the spec leaves a point open it follows the model's
choice: assumption 19. -/
def Obligations.TimeStampsAndReferences : Prop := TimeReferenceEvents ∧ TimeStampsAreReadOnce

/-! ### Resets, watchdog, SYS, CRC and DEBUG (R461 to R468, R474 to R476) -/

/-- A warm, life-cycle or power-on reset and the loss of the always-on supply, of a module whose flash holds no image:
what is kept, what is cleared, and that M0 waits then (R461, R464 to R467, R454). Where the spec leaves a point open
it follows the model's choice: assumptions 25, 27, 28, 29. -/
def Obligations.ResetsKeepWhatTheRulesSay : Prop :=
  ∀ (s : State), bootForm (bootHeader s 0) = false → bootForm (bootHeader s 1) = false → s.sec.life ≠ 4 →
    let fixed := fun (t : State) => t.variant = s.variant ∧ t.flash = s.flash ∧ t.sec.fuseRoot = s.sec.fuseRoot ∧
      t.sec.svn = s.sec.svn ∧ t.sec.rev = s.sec.rev ∧ t.pending = s.pending ∧ t.since = 0 ∧ t.tasks = [] ∧
      t.keys = Vector.replicate 64 0 ∧ (∀ v : Fin 64, t.vpis[v] = vpi0)
    let lanes := fun (t : State) => (∀ j : Fin 52, j.val ≠ 40 → t.lane j = { laneReset j with retired := (t.lane j).retired }) ∧
      (t.lane 40).st = .waiting ∧ (t.lane 40).f.status.ie = false ∧ t.fbit LIFE_STAT_BOOTFAIL = true ∧ t.fbit SYS_STAT_BOOTOK = false
    (∀ c, s.sec.next = none → Completes (.warmReset c) s (fun t => fixed t ∧ lanes t ∧ t.sec.life = s.sec.life ∧
      (∀ j : Fin 52, (t.lane j).retired = (s.lane j).retired) ∧
      t.fget SYS_RSTCAUSE_CAUSE = causeCode c ∧ Counted SYS_RSTCNT_N s t ∧ t.fget SYS_BOOTPREF_SLOT = s.fget SYS_BOOTPREF_SLOT ∧
      t.tb = { s.tb with launch := t.tb.launch } ∧ t.fget TB_STAT_VALID = s.fget TB_STAT_VALID ∧
      ((∀ r : Fin 32, s.recs[r].st = .off) → ∀ x, memGet t.mem x = if keptAddr x then memGet s.mem x else 0) ∧ t.retMem = s.retMem ∧ t.pubMem = [])) ∧
    (∀ c n, s.sec.next = some n → Ignored (.warmReset c) s) ∧
    (∀ n, s.sec.next = some n → n ≠ 4 → Completes .lifeCycleReset s (fun t => fixed t ∧ lanes t ∧ t.sec.life = n ∧ t.sec.next = none ∧
      t.fget SYS_RSTCAUSE_CAUSE = 5 ∧ t.mem = [] ∧ t.retMem = [] ∧ t.pubMem = [])) ∧
    (s.sec.next = none → Ignored .lifeCycleReset s) ∧
    Completes .powerOnReset s (fun t => fixed t ∧ lanes t ∧ t.sec.life = s.sec.life ∧ t.fget SYS_RSTCAUSE_CAUSE = 1 ∧
      t.fget SYS_RSTCNT_N = 0 ∧ t.tb = timeBase0 ∧ t.fget TB_STAT_VALID = 0 ∧ t.mem = [] ∧ t.retMem = [] ∧
      (∀ j : Fin 52, (t.lane j).retired = false)) ∧
    Completes .aonSupplyLoss s (fun t => fixed t ∧ t.sec.life = s.sec.life ∧ t.mem = [] ∧ t.retMem = [] ∧
      (∀ d, d < 10 → t.dom d = 0) ∧ (∀ j : Fin 52, t.lane j = lane0 .off))

/-- SYS_RSTCMD, the watchdog and its kick, SYS_LANEREL, the debug port and the CRC unit (R422, R468, R474 to R476). Where
the spec leaves a point open it follows the model's choice: assumption 30. -/
def Obligations.SystemControlCommands : Prop :=
  ∀ (s : State) (rq : Req) (v : Word),
    (WriteGranted rq 0xF00000002C s →
      let stands := (s.fbit SCHED_STAT_ADM = true ∧ v.getLsbD 1 = false) ∨ s.fbit LIFE_CMDSTAT_BUSY = true
      (v.toNat / 256 % 256 ≠ 0x5A → Completes (.sysRstcmdWrite rq v) s (Refused .denied s)) ∧
      (v.toNat / 256 % 256 = 0x5A → v.getLsbD 0 = false → Completes (.sysRstcmdWrite rq v) s (Accepted [] s)) ∧
      (v.toNat / 256 % 256 = 0x5A → v.getLsbD 0 = true → stands → Completes (.sysRstcmdWrite rq v) s (Refused .denied s)) ∧
      (v.toNat / 256 % 256 = 0x5A → v.getLsbD 0 = true → ¬ stands → Completes (.sysRstcmdWrite rq v) s (fun t =>
        ∃ u, exec (.warmReset .command) s = .next u ∧ t = { u with resp := .ok, rdata := 0 }))) ∧
    (s.fbit SYS_WDOG_EN = true → Completes .watchdogHalf s (fun t => t = { s with power := { s.power with wdHalf := true } })) ∧
    (s.fbit SYS_WDOG_EN = false → Ignored .watchdogHalf s ∧ Ignored .watchdogExpiry s) ∧
    (s.fbit SYS_WDOG_EN = true → s.sec.next = none → LogRoom s → exec .watchdogExpiry s =
      exec (.warmReset .watchdog) { s with log := logPlus s [eventOf s SYS_WDOG_MS true 6 0xFF [s.fget SYS_WDOG_MS]] }) ∧
    (WriteGranted rq 0xF000000020 s →
      (v.toNat % 65536 = 0 ∨ 60000 < v.toNat % 65536 → Completes (.sysWdogWrite rq v) s (Refused .denied s)) ∧
      (1 ≤ v.toNat % 65536 → v.toNat % 65536 ≤ 60000 → s.fbit SYS_WDOG_EN = false → Completes (.sysWdogWrite rq v) s (fun t =>
        t.fget SYS_WDOG_MS = v.toNat % 65536 ∧ t.fget SYS_WDOG_EN = v.toNat / 2 ^ 31 ∧ Accepted [SYS_WDOG_EN, SYS_WDOG_MS] s t)) ∧
      (s.fget SYS_WDOG_EN = 1 → v.toNat % 65536 = s.fget SYS_WDOG_MS → 1 ≤ s.fget SYS_WDOG_MS → s.fget SYS_WDOG_MS ≤ 60000 →
        Completes (.sysWdogWrite rq v) s (Accepted [] s)) ∧
      (s.fget SYS_WDOG_EN = 1 → v.toNat % 65536 ≠ s.fget SYS_WDOG_MS → Completes (.sysWdogWrite rq v) s (Refused .denied s))) ∧
    (WriteGranted rq 0xF000000024 s →
      (v.toNat % 65536 = 0x4B1C → Completes (.sysWdkickWrite rq v) s (Accepted [] { s with power := { s.power with wdHalf := false } })) ∧
      (v.toNat % 65536 ≠ 0x4B1C → Completes (.sysWdkickWrite rq v) s (Refused .denied s))) ∧
    (WriteGranted rq 0xF000000028 s → Completes (.sysLanerelWrite rq v) s (fun t => Accepted [] { s with lanes := t.lanes } t ∧
      ∀ j : Fin 52, t.lane j = if 41 ≤ j.val ∧ j.val < 44 ∧ v.getLsbD (j.val - 40) = true ∧ (s.lane j).st = .reset
        then { s.lane j with st := .running, f := { bank0 with pc := BitVec.ofNat 32 s.sec.runEntry } } else s.lane j)) ∧
    (debugOpen s = true → Completes .debugHaltRequest s (fun t => t.fget DEBUG_STAT_HALTREQ = 1 ∧
      OnlyRegs [DEBUG_STAT_HALTREQ] { s with lanes := t.lanes } t ∧
      ∀ j : Fin 52, t.lane j = if 40 ≤ j.val ∧ j.val < 44 then { s.lane j with halted := true } else s.lane j)) ∧
    (debugOpen s = true → exec .debugResetRequest s = exec (.warmReset .debugPort) s) ∧
    (debugOpen s = false → Ignored .debugHaltRequest s ∧ Ignored .debugResetRequest s) ∧
    (WriteGranted rq 0xF000110000 s → Completes (.crcSeedWrite rq v) s (fun t =>
      t.fget CRC_SEED_V = v.toNat ∧ t.fget CRC_RESULT_V = 0xFFFFFFFF - v.toNat ∧ Accepted [CRC_SEED_V, CRC_RESULT_V] s t)) ∧
    (∀ bs : List Byte, WriteGranted rq 0xF000110004 s → s.fget CRC_RESULT_V = crc32c bs → Completes (.crcDataWrite rq v) s (fun t =>
      t.fget CRC_RESULT_V = crc32c (bs ++ leBytes 4 v.toNat) ∧ Accepted [CRC_RESULT_V] s t))

/-! ### Bezel (R140 to R145, R167) -/

/-- BEZEL_BEAT, the glide, BEZEL_OPTGT, the ramp, the cold plate's limit and the slack readings. -/
def Sys2Proof.Machine.BezelFollowsItsOrderOfChanges : Prop :=
  ∀ (s : State) (rq : Req) (v : Word),
    let mhz := fun (r : Nat) => 125 + 25 * r
    let top := fun (p : Nat) => [200, 325, 450, 550, 650].getD p 0
    let goal := if s.fbit BEZEL_STAT_SRC = true then mhz (s.fget BEZEL_BEAT_RATE) else s.bezel.rate
    let r := v.toNat % 32
    let p := v.toNat % 8
    let cur := s.fget BEZEL_STAT_OPCUR
    let tgt := s.fget BEZEL_OPTGT_OP
    let below := s.fbit SCHED_STAT_ADM = true ∧ s.fget BEZEL_FLOOR_FLOOR < 31 ∧ r < s.fget BEZEL_FLOOR_FLOOR
    let ramping := fun (tgt : Nat) (t : State) => t.bezel.ramp = some tgt ∧ t.fget BEZEL_STAT_OPCUR = min cur tgt % 8 ∧
      t.fget BEZEL_STAT_SLEW = 0 ∧ t.fbit BEZEL_STAT_OPPEND = decide (cur < tgt)
    (WriteGranted rq 0xF000030008 s →
      (21 < r → Completes (.rateWrite rq v) s (Refused .denied s)) ∧
      (r ≤ 21 → top cur < mhz r ∨ below → LogRoom s → Completes (.rateWrite rq v) s (fun t =>
        t.fget BEZEL_STAT_RATEREF = 1 ∧ Counted BEZEL_CNT_RATEREF s t ∧ t.resp = .denied ∧
        t = { s with regs := t.regs, log := logPlus s [eventOf s BEZEL_STAT_RATEREF false 4 0xFF [r]], resp := t.resp,
                     rdata := 0xFFFFFFFF } ∧
        RegsExcept (BEZEL_STAT_RATEREF :: BEZEL_CNT_RATEREF :: faultFields) s t)) ∧
      (r ≤ 21 → mhz r ≤ top cur → ¬ below → Completes (.rateWrite rq v) s (fun t => t.fget BEZEL_BEAT_RATE = r ∧
        t.fbit BEZEL_STAT_SLEW = (s.fbit BEZEL_STAT_SRC && s.bezel.ramp.isNone &&
          (s.fbit BEZEL_STAT_SLEW || mhz r != max s.bezel.rate goal)) ∧
        Accepted [BEZEL_BEAT_RATE, BEZEL_STAT_SLEW] { s with bezel := { s.bezel with rate := max s.bezel.rate goal } } t))) ∧
    (s.fbit BEZEL_STAT_SLEW = true → Completes .glideComplete s (fun t => t.fget BEZEL_STAT_SLEW = 0 ∧
      OnlyRegs [BEZEL_STAT_SLEW] { s with bezel := { s.bezel with rate := goal } } t)) ∧
    (s.fbit BEZEL_STAT_SLEW = false → Ignored .glideComplete s) ∧
    (WriteGranted rq 0xF00003000C s →
      (4 < p ∨ (p = 0 ∧ s.fbit BEZEL_STAT_SRC = false) → Completes (.optgtWrite rq v) s (Refused .denied s)) ∧
      (p ≤ 4 → (p = 0 → s.fbit BEZEL_STAT_SRC = true) → Completes (.optgtWrite rq v) s (fun t =>
        let starts := s.bezel.ramp = none ∧
          ((cur < p ∧ ¬ (p = 4 ∧ s.fbit BEZEL_STAT_HOT = true)) ∨ (p < cur ∧ max s.bezel.rate goal ≤ top p))
        t.fget BEZEL_OPTGT_OP = p ∧ (starts → ramping p t) ∧
        (¬ starts → t.bezel = s.bezel ∧ t.fbit BEZEL_STAT_OPPEND = decide (p ≠ cur) ∧
          RegsExcept [BEZEL_OPTGT_OP, BEZEL_STAT_OPPEND] s t) ∧
        Accepted [BEZEL_OPTGT_OP, BEZEL_STAT_OPPEND, BEZEL_STAT_OPCUR, BEZEL_STAT_SLEW]
          { s with bezel := { s.bezel with ramp := t.bezel.ramp } } t))) ∧
    (s.bezel.ramp = none → tgt < 8 → tgt < cur → goal ≤ top tgt → s.fbit BEZEL_STAT_SLEW = true ∨ s.bezel.rate ≤ top tgt →
      Completes .rampStart s (fun t => ramping tgt t ∧
        OnlyRegs [BEZEL_STAT_OPPEND, BEZEL_STAT_OPCUR, BEZEL_STAT_SLEW] { s with bezel := t.bezel } t)) ∧
    (s.bezel.ramp = none → tgt < 8 → cur < tgt → ¬ (tgt = 4 ∧ s.fbit BEZEL_STAT_HOT = true) → Completes .rampStart s (fun t => ramping tgt t ∧
      OnlyRegs [BEZEL_STAT_OPPEND, BEZEL_STAT_OPCUR, BEZEL_STAT_SLEW] { s with bezel := { s.bezel with ramp := some tgt } } t)) ∧
    (s.bezel.ramp = some tgt → tgt < 8 → ¬ (tgt = 4 ∧ s.fbit BEZEL_STAT_HOT = true) → Completes .rampComplete s (fun t =>
      t.fget BEZEL_STAT_OPCUR = tgt ∧ t.fbit BEZEL_STAT_OPPEND = false ∧ t.fbit BEZEL_STAT_SLEW = decide (goal ≠ s.bezel.rate) ∧
      OnlyRegs [BEZEL_STAT_OPPEND, BEZEL_STAT_OPCUR, BEZEL_STAT_SLEW] { s with bezel := { s.bezel with ramp := none } } t)) ∧
    (s.bezel.ramp = none → Ignored .rampComplete s) ∧
    (cur ≠ 4 → Completes .op4HotExit s (fun t => t.fget BEZEL_STAT_HOT = 1 ∧ OnlyRegs [BEZEL_STAT_HOT] s t)) ∧
    (cur = 4 → LogRoom s → Completes .op4HotExit s (fun t => t.fget BEZEL_STAT_HOT = 1 ∧ t.fget BEZEL_OPTGT_OP = 3 ∧
      t.fget BEZEL_STAT_HOTL = 1 ∧ (s.fbit BEZEL_STAT_SRC = true → t.fget BEZEL_BEAT_RATE = min (s.fget BEZEL_BEAT_RATE) 17) ∧
      OnlyRegs [BEZEL_STAT_HOT, BEZEL_OPTGT_OP, BEZEL_STAT_HOTL, BEZEL_BEAT_RATE, BEZEL_STAT_OPPEND, BEZEL_STAT_OPCUR, BEZEL_STAT_SLEW]
        { s with bezel := t.bezel, log := logPlus s [eventOf s BEZEL_STAT_HOTL false 4 0xFF []] } t)) ∧
    Completes .hotClear s (fun t => t.fget BEZEL_STAT_HOT = 0 ∧ OnlyRegs [BEZEL_STAT_HOT] s t)

/-- A slack reading replaces NOW, lowers MIN, and below 15 % raises the operating point; a read of BEZEL_SLACKc reloads MIN
(R145, R167). -/
def Sys2Proof.Machine.SlackReadingsRaiseTheOperatingPoint : Prop :=
  ∀ (s : State) (rq : Req) (c : Fin 5) (lane : Fin 8) (slack : Nat),
    let now := min slack 255
    let cur := s.fget BEZEL_STAT_OPCUR
    let reading := [BEZEL_SLACK_NOW c, BEZEL_SLACK_LANE c, BEZEL_SLACK_MIN c]
    let read := fun (t : State) => t.fget (BEZEL_SLACK_NOW c) = now ∧ t.fget (BEZEL_SLACK_LANE c) = lane.val ∧
      t.fget (BEZEL_SLACK_MIN c) = min now (s.fget (BEZEL_SLACK_MIN c))
    (s.domOn c = false → Ignored (.slackReading c lane slack) s) ∧
    (s.domOn c = true → 30 ≤ now ∨ s.bezel.ramp.isSome = true → Completes (.slackReading c lane slack) s (fun t =>
      read t ∧ OnlyRegs reading s t)) ∧
    (s.domOn c = true → now < 30 → s.bezel.ramp = none → cur < 3 ∨ (cur = 3 ∧ s.fbit BEZEL_STAT_HOT = false) → LogRoom s →
      Completes (.slackReading c lane slack) s (fun t => read t ∧ t.fget BEZEL_OPTGT_OP = cur + 1 ∧ t.bezel.ramp = some (cur + 1) ∧
        t.fget BEZEL_STAT_SLACKUP = 1 ∧ Counted BEZEL_CNT_SLACKUP s t ∧
        OnlyRegs (BEZEL_OPTGT_OP :: BEZEL_STAT_SLACKUP :: BEZEL_CNT_SLACKUP :: BEZEL_STAT_OPPEND :: BEZEL_STAT_OPCUR :: BEZEL_STAT_SLEW :: reading)
          { s with bezel := { s.bezel with ramp := some (cur + 1) },
                   log := logPlus s [eventOf s BEZEL_STAT_SLACKUP false 4 0xFF [c.val * 16 + lane.val]] } t)) ∧
    (ReadGranted rq (0xF000030020 + 4 * c) s → Completes (.bezelSlackRead rq c) s (fun t =>
      t.fget (BEZEL_SLACK_MIN c) = s.fget (BEZEL_SLACK_NOW c) % 256 ∧
      Answered ((s.fget (BEZEL_SLACK_LANE c) * 65536 + s.fget (BEZEL_SLACK_NOW c) * 256 + s.fget (BEZEL_SLACK_MIN c)) % 2 ^ 32)
        [BEZEL_SLACK_MIN c] s t))

/-- Ramps, glides and slack readings of the Bezel. Where the spec leaves a point open it follows the model's choice:
assumptions 35, 68, 69, 70. -/
def Obligations.BezelMovesOperatingPoints : Prop := BezelFollowsItsOrderOfChanges ∧ SlackReadingsRaiseTheOperatingPoint

/-! ### Dispatch (R147 to R158, R161, R165) -/

/-- The dispatch decision takes the ready class-1 context of the earliest deadline before every other class, and keeps the context
that ran (R147, R320). -/
def Sys2Proof.Machine.EarliestDeadlineRunsFirst : Prop :=
  ∀ (s : State) (l : Fin 52),
    let x := s.lane l
    (isCluster l = false ∨ dispatchable x = false → Ignored (.quantumExpiry l) s) ∧
    (∀ c : Ctx, isCluster l = true → dispatchable x = true → c ∈ x.ctxs → c.cls = 1 → c.started = true → c.waiting = false →
      ctxReady s l c = true → (∀ d ∈ x.ctxs, d.cls = 1 → d ≠ c → c.deadline < d.deadline) →
      (∀ m, runningCtx s x = some m → m.cls = 1 → c.deadline < m.deadline) → x.cur ≠ some (c.vmid, c.task) → x.f.sbuf = [] →
      Completes (.quantumExpiry l) s (fun t => OnlyLane l s t ∧ t.lane l = { x with
        cur := some (c.vmid, c.task), st := .running, winBeats := 0,
        f := { c.bank with status := { c.bank.status with xoff := x.f.status.xoff } },
        k := { c.k with st2root := BitVec.ofNat 32 (s.vpi c.vmid).ent.st2 },
        ctxs := x.ctxs.filter (fun d => !(d.vmid == c.vmid && d.task == c.task)) ++ (runningCtx s x).toList }))

/-- A completion token at a cluster's event controller releases the sequences its sources name: a free lane starts the first used
entry in bank G, a lane that runs another sequence keeps the release waiting, and a release of a source that runs or waits is
dropped and counted; a waiting release starts when its lane is free (R152, R153, R182). -/
def Sys2Proof.Machine.CompletionsReleaseSequences : Prop :=
  ∀ (s : State) (c : Fin 5) (i : Fin 8) (src : Fin 4) (tok : Token) (rest : List Token),
    let l := clusterLane c i
    let x := s.lane l
    let live := liveEntries s l src 0 tok
    let s1 := { s with tokens := s.tokens.set c rest }
    let starts := fun (t : State) => ∀ k e q y, live = (k, e) :: q → s.task e.task = some y → y.exch = none → y.unsealed = none →
      (t.lane l).inG = true ∧ (t.lane l).st = .running ∧ (t.lane l).f = x.f ∧ (t.lane l).g = setupG e.task y.desc x.g ∧
        (∃ r, (t.lane l).run = some r ∧ r.src = src ∧ r.entry = k ∧ r.task = e.task ∧ r.budget = e.budget ∧ r.beats = 0 ∧ r.tok = tok) ∧
        ∀ j, j ≠ l → t.lane j = s.lane j
    let able := x.st ≠ .stopped ∧ x.st ≠ .off ∧ x.halted = false ∧ live ≠ []
    let takes := s.tokens[c] = tok :: rest ∧ s.fbit SCHED_STAT_ADM = true ∧ s.domOn c = true ∧
      ∀ j : Fin 8, firing s (clusterLane c j) tok = if j = i then [src.val] else []
    let last := [SCHED_COLL_COLL c, SCHED_LAST_KIND c, SCHED_LAST_LANE c, SCHED_LAST_SRC c, SCHED_LAST_ENTRY c]
    (s.tokens[c] = [] → Ignored (.sourceFire c) s) ∧
    (s.tokens[c] = tok :: rest → s.fbit SCHED_STAT_ADM = false ∨ s.domOn c = false → exec (.sourceFire c) s = .next s1) ∧
    (takes → able → (∃ r, x.run = some r ∧ r.src = src) ∨ x.waits[src].isSome = true → s.log.queue.length + 1 + live.length ≤ 256 →
      Completes (.sourceFire c) s (fun t => Counted (SCHED_COLL_COLL c) s t ∧ t.fget (SCHED_LAST_KIND c) = 0 ∧
        t.fget (SCHED_LAST_LANE c) = i.val ∧ t.fget (SCHED_LAST_SRC c) = src.val ∧ t.fget (SCHED_LAST_ENTRY c) = 0 ∧
        OnlyRegs last { s1 with tasks := t.tasks, log := t.log } t ∧ t.log.queue.length = s.log.queue.length + 1 + live.length ∧
        ∀ k y, s.task k = some y → ∃ z, t.task k = some z ∧ z.nskip = y.nskip + (live.filter (fun p => p.2.task = k)).length)) ∧
    (takes → able → (∀ r, x.run = some r → r.src ≠ src) → x.waits[src] = none → x.run.isSome = true ∨ x.waits.toList.any (·.isSome) = true →
      Completes (.sourceFire c) s (fun t => Counted (SCHED_REL_REL c) s t ∧ OnlyRegs [SCHED_REL_REL c] { s1 with lanes := t.lanes } t ∧
        t.lane l = { x with waits := x.waits.set src (some tok) } ∧ ∀ j, j ≠ l → t.lane j = s.lane j)) ∧
    (takes → able → x.run = none → x.waits.toList.any (·.isSome) = false →
      Completes (.sourceFire c) s (fun t => Counted (SCHED_REL_REL c) s t ∧ starts t)) ∧
    (x.run.isSome = true ∨ s.fbit SCHED_STAT_ADM = false ∨ x.st = .stopped ∨ x.st = .off ∨ (∀ n : Fin 4, x.waits[n] = none) →
      Ignored (.waitingReleaseStart l) s) ∧
    (x.run = none → s.fbit SCHED_STAT_ADM = true → x.st ≠ .stopped → x.st ≠ .off → x.waits[src] = some tok →
      (∀ n : Fin 4, n < src → x.waits[n] = none) → Completes (.waitingReleaseStart l) s (fun t => starts t ∧
        (t.lane l).waits = x.waits.set src none ∧ (live = [] → t.lane l = { x with waits := x.waits.set src none })))

/-- An overrun of a class-0 activation is counted at its cluster and its task, logged, and ends its sequence's last entry: the lane
is back in bank F, whose registers stand as they were (R154, R183, R184). -/
def Sys2Proof.Machine.OverrunEndsTheActivation : Prop :=
  ∀ (s : State) (l : Fin 52),
    let x := s.lane l
    let g := laneGroup l
    (x.run = none → Ignored (.class0Overrun l) s) ∧
    (∀ (r : C0Run) (k : Task) (h : g < 5), isCluster l = true → x.run = some r → s.task r.task = some k → k.desc.flim = 0 → k.stopReq = false →
      k.dropReq = false → x.cur.isSome = true → x.st = .running → LogRoom s →
      (s.fo.ovrAt[g].filter (fun t => decide (s.now ≤ t + 100000 * 1000 * 65536))).length + 1 < s.fget FAILOVER_POL_OVR →
      (∀ p ∈ (List.range 16).zip x.entries, p.1 ≤ r.entry ∨ p.2.v = false ∨ p.2.src ≠ r.src) →
      Completes (.class0Overrun l) s (fun t => Counted (SCHED_COLL_OVR g) s t ∧ t.fget (SCHED_LAST_KIND g) = 1 ∧
        t.fget (SCHED_LAST_LANE g) = l.val % 8 ∧ t.fget (SCHED_LAST_SRC g) = r.src % 4 ∧ t.fget (SCHED_LAST_ENTRY g) = r.entry % 16 ∧
        t.task r.task = some { k with cflt := min (k.cflt + 1) 255, ovr := min (k.ovr + 1) 65535, active := false } ∧
        t.lane l = { x with inG := false, run := none, beatcnt := x.beatcnt + 2,
                            winBeats := if x.f.status.timed then x.winBeats + 2 else x.winBeats } ∧
        (∀ j, j ≠ l → t.lane j = s.lane j) ∧
        OnlyRegs [SCHED_COLL_OVR g, SCHED_LAST_KIND g, SCHED_LAST_LANE g, SCHED_LAST_SRC g, SCHED_LAST_ENTRY g]
          { s with tasks := t.tasks, lanes := t.lanes, fo := { s.fo with ovrAt := t.fo.ovrAt },
                   log := logPlus s [eventOf s VPI_TFLT_OVR true 6 (r.task / 256) [r.task]] } t))

/-- Completion tokens and budget overruns. Where the spec leaves a point open it follows the model's choice: assumptions
82, 84, 88. -/
def Obligations.ActivationsEndAsStated : Prop := CompletionsReleaseSequences ∧ OverrunEndsTheActivation

/-- ADMIT reports the first check that fails, with cluster and lane, and otherwise admits: the lanes hold the slot tables
and the module is ready; REVOKE empties the lanes' tables, unless a takeover delays it (R157, R158, R351, R462). Where
the spec leaves a point open it follows the model's choice: assumptions 71, 72, 74. -/
def Obligations.AdmissionChecksInOrder : Prop :=
  ∀ (s : State) (rq : Req) (v : Word), WriteGranted rq 0xF000040000 s →
    let ctl := [SCHED_CTL_OVRIE, SCHED_CTL_COLLIE]
    let s1 := (s.fset SCHED_CTL_OVRIE (v.toNat / 512 % 2)).fset SCHED_CTL_COLLIE (v.toNat / 256 % 2)
    let floor := s.fget BEZEL_FLOOR_FLOOR
    let refused := fun (e cl ln : Nat) (t : State) => t.fget SCHED_STAT_ERR = e % 16 ∧ t.fget SCHED_STAT_CL = cl % 8 ∧
      t.fget SCHED_STAT_LANE = ln % 8 ∧ Accepted (SCHED_STAT_ERR :: SCHED_STAT_CL :: SCHED_STAT_LANE :: ctl)
        { s with log := logPlus s [eventOf s SCHED_STAT_ERR false 4 0xFF [e, cl, ln]] } t
    (v.getLsbD 1 = false → LogRoom s →
      (s.fbit BEZEL_STAT_SRC = false → Completes (.admission rq v) s (refused 1 7 0)) ∧
      (s.fbit BEZEL_STAT_SRC = true → 17 < floor ∨ s.fget BEZEL_BEAT_RATE < floor → Completes (.admission rq v) s (refused 2 7 0)) ∧
      (∀ p, s.fbit BEZEL_STAT_SRC = true → floor ≤ 17 → floor ≤ s.fget BEZEL_BEAT_RATE →
        (slotTables s).find? (fun p => blockBad s p.2.2) = some p → Completes (.admission rq v) s (refused 3 p.1 p.2.1)) ∧
      (∀ e cl ln u, admitCheck s1 = ((e, cl, ln), u) → e ≠ 0 → Completes (.admission rq v) s (refused e cl ln))) ∧
    (∀ u, v.getLsbD 1 = false → admitCheck s1 = ((0, 0, 0), u) → Completes (.admission rq v) s (fun t =>
      t.fbit SCHED_STAT_ADM = true ∧ t.fget SCHED_STAT_ERR = 0 ∧ t.fbit SYS_STAT_PREADY = true ∧ t.resp = .ok ∧
      (s.fbit SYS_STAT_PREADY = false → t.fget SYS_TREADY_MS = s.since / 250000 % 2 ^ 32) ∧
      ∀ p ∈ slotTables s, (t.lane (clusterLane p.1 p.2.1)).entries = parseEntries p.2.2 ∧
        (t.lane (clusterLane p.1 p.2.1)).srcs = parseSrcs p.2.2)) ∧
    (v.getLsbD 0 = false →
      (s.fbit FAILOVER_STAT_BUSY = true → Completes (.revoke rq v) s (Accepted ctl { s with fo := { s.fo with revokePend := true } })) ∧
      (s.fbit FAILOVER_STAT_BUSY = false → LogRoom s → Completes (.revoke rq v) s (fun t => t.fbit SCHED_STAT_ADM = false ∧
        t.fget PWR_FUNDSTAT_F = 0 ∧
        (∀ j, t.lane j = { s.lane j with srcs := Vector.replicate 4 ⟨false, 0, 0⟩, entries := [], waits := Vector.replicate 4 none }) ∧
        Accepted (SCHED_STAT_ADM :: PWR_FUNDSTAT_F :: ctl ++ (List.range 64).map KEY_ATTR_LOCKED)
          { s with lanes := t.lanes, log := logPlus s [eventOf s SCHED_STAT_ADM false 3 0xFF [0]] } t)))

/-- A source that exceeds its reservation in a frame waits for the next and is counted (R161); an arbiter on VC2 grants the oldest
request of the index its deficits choose, and keeps the rest in order (R164, R165). -/
def Sys2Proof.Machine.FabricArbitration : Prop :=
  ∀ (s : State) (d : Fin 4) (n : Fin 8) (k a : Nat) (arrivals : List GrantReq),
    (d.val ≠ 0 → n.val = 4 + d.val →
      let more := s.resv[n] + k - s.fget (FAB_VC0RES_UNITS n)
      (more = 0 ∨ k = 0 → Completes (.reservationFrameEnd d [k]) s (fun t => t = { s with resv := s.resv.set n more })) ∧
      (0 < more → 0 < k → Completes (.reservationFrameEnd d [k]) s (fun t => t.fget FAB_VC0STAT_EXCL = 1 ∧
        t.fget FAB_VC0STAT_SRC = n.val ∧ t.fget FAB_VC0EXC_N = min (s.fget FAB_VC0EXC_N + min k more) (2 ^ 32 - 1) ∧
        OnlyRegs [FAB_VC0STAT_EXCL, FAB_VC0STAT_SRC, FAB_VC0EXC_N] { s with resv := s.resv.set n more } t))) ∧
    (let x := (alookup a s.arbs).getD ⟨deficit0, [], none⟩
     let q := (arrivals.foldr byInput []).foldl enqueueReq x.queue
     (q = [] → Completes (.arbiterGrant a arrivals) s (fun t => t = { s with arbs := ainsert a ⟨x.d, [], x.last⟩ s.arbs })) ∧
     (q ≠ [] → x.d.cursor < 65 → x.d.deficit.length = 65 → (∀ r ∈ q, r.index ≤ 64 ∧ 1 ≤ r.units ∧ r.units ≤ 4) →
      1 ≤ s.fget FAB_SUPW_W → Completes (.arbiterGrant a arrivals) s (fun t => ∃ (r : ArbReq) (y : Arbiter),
        t = { s with arbs := ainsert a y s.arbs } ∧ q.find? (fun z => z.index = r.index) = some r ∧ y.last = some r ∧
        y.queue = q.erase r ∧ y.d.cursor = r.index)))

/-- Which activation a lane runs, and which request an arbiter grants. Where the spec leaves a point open it follows the
model's choice: assumptions 36, 76, 77, 90. -/
def Obligations.DispatchersAndArbitersPickInOrder : Prop := EarliestDeadlineRunsFirst ∧ FabricArbitration

/-! ### Tasks (R173, R174, R181, R184, R193, R198, R199, R344) -/

/-- A class-1 release starts an activation with its deadline, or is skipped and counted while one is active; a missed deadline is
counted once; a record is sealed by CUR; a class-1 task that has drawn its minimum energy in budget state 3 is held. -/
def Sys2Proof.Machine.TaskEventsAreCounted : Prop :=
  ∀ (s : State) (k : Nat) (x : Task), s.task k = some x →
    let l := taskLane s x.desc
    let v := k / 256
    (x.desc.cls ≠ 1 ∨ x.st ≠ .run ∨ (s.vpi v).st ≠ .run → Ignored (.class1Release k) s) ∧
    (x.desc.cls = 1 → x.st = .run → (s.vpi v).st = .run → (s.lane l).st ≠ .idle →
      (x.active = true → LogRoom s → Completes (.class1Release k) s (fun t =>
        t = { s with tasks := t.tasks, log := logPlus s [eventOf s VPI_TCNT_SKIP false 2 v [k]] } ∧
        t.task k = some { x with skip := min (x.skip + 1) 65535, nskip := x.nskip + 1, energy := 0 } ∧
        ∀ j, j ≠ k → t.task j = s.task j)) ∧
      (x.active = false → x.exch = none → Completes (.class1Release k) s (fun t =>
        let due := s.now + x.desc.deadline * 1000 * 65536
        t = { s with tasks := t.tasks, lanes := t.lanes } ∧ (∀ j, j ≠ k → t.task j = s.task j) ∧ (∀ j, j ≠ l → t.lane j = s.lane j) ∧
        t.task k = some { x with active := true, actGens := x.gens, relAt := s.now, dlAt := due, missed := false, energy := 0 } ∧
        t.lane l = { s.lane l with
          ctxs := (s.lane l).ctxs.filter (fun d => !(d.vmid == v && d.task == some k)) ++ [freshCtx k 1 due] }))) ∧
    (x.desc.cls = 1 → x.active = true → x.missed = false → LogRoom s → Completes (.class1DeadlineMiss k) s (fun t =>
      t = { s with tasks := t.tasks, log := logPlus s [eventOf s VPI_TCNT_DMISS false 2 v [k]] } ∧
      t.task k = some { x with missed := true, dmiss := min (x.dmiss + 1) 65535 } ∧ ∀ j, j ≠ k → t.task j = s.task j)) ∧
    (x.desc.cls ≠ 1 ∨ x.active = false ∨ x.missed = true → Ignored (.class1DeadlineMiss k) s) ∧
    (x.unsealed = none → Ignored (.checkpointSeal k) s) ∧
    (∀ half newGen, x.unsealed = some (half, newGen) → x.desc.cluster < 4 → x.dir < 256 → s.domOn 5 = true → s.ecc = [] → s.cecc = [] →
      Completes (.checkpointSeal k) s (fun t => t.task k = some { x with unsealed := none, oldBofs := none } ∧
        Stored s.mem t.mem (dirAddr x.desc.cluster x.dir 0) (leBytes 4 half) ∧ (newGen = true → t.fget VPI_TXSTAT_SEALED = 1) ∧
        OnlyRegs (if newGen then [VPI_TXSTAT_SEALED] else []) { s with tasks := t.tasks, mem := t.mem } t)) ∧
    (∀ energy, x.desc.cls ≠ 1 ∨ x.active = false ∨ energy < x.desc.mine ∨ laneBudget s l ≠ 3 → Ignored (.class1MineHold k energy) s) ∧
    (∀ energy, x.desc.cls = 1 → x.active = true → x.desc.mine ≤ energy → laneBudget s l = 3 →
      ((s.lane l).cur ≠ some (v, some k) → Completes (.class1MineHold k energy) s (fun t => t = { s with tasks := t.tasks } ∧
        t.task k = some { x with energy := energy })) ∧
      ((s.lane l).cur = some (v, some k) → dispatchable (s.lane l) = true → (s.lane l).f.sbuf = [] → (s.lane l).ctxs = [] →
        Completes (.class1MineHold k energy) s (fun t => t = { s with tasks := t.tasks, lanes := t.lanes } ∧
          t.task k = some { x with energy := energy } ∧ (∀ j, j ≠ l → t.lane j = s.lane j) ∧ (t.lane l).cur = none ∧
          (t.lane l).st = .idle ∧ (t.lane l).ctxs = (runningCtx s (s.lane l)).toList)))

/-- The commands of VPI_TXCMD: refused while one is busy or an exchange pends, STOP apart; each reports its lowest error code; what
TAKEUP, RESTART, STOP and DROP do to the task, and what EXCHANGE waits for. -/
def Sys2Proof.Machine.TaskCommands : Prop :=
  ∀ (s : State) (rq : Req), WriteGranted rq 0xF000158000 s →
    let k := s.fget VPI_TXARG_TASK
    let gen := s.fget VPI_TXARG_GEN
    let stat := [VPI_TXSTAT_ERR, VPI_TXSTAT_BUSY, VPI_TXCMD_CMD]
    let pends := s.fbit VPI_TXSTAT_BUSY = true ∨ s.fbit VPI_TXSTAT_PEND = true
    let began := fun (op : Nat) => ((s.fset VPI_TXSTAT_ERR 0).fset VPI_TXSTAT_BUSY 1).fset VPI_TXCMD_CMD op
    let report := fun (e : Nat) (t : State) => t.fget VPI_TXSTAT_ERR = e ∧ t.fget VPI_TXSTAT_BUSY = 1 ∧ t.resp = .ok
    (pends → ∀ c ∈ [Instr.takeup rq, .exchange rq, .restart rq, .dropTask rq], Completes c s (Refused .denied s)) ∧
    (¬ pends →
      Completes (.exchange rq) s (fun t => report 0 t ∧ Accepted stat s t) ∧
      (s.task k = none → Completes (.restart rq) s (fun t => report 1 t ∧ Accepted stat s t) ∧
        Completes (.dropTask rq) s (fun t => report 0 t ∧ Accepted stat s t) ∧
        Completes (.stopTask rq) s (fun t => report 0 t ∧ Accepted stat s t)) ∧
      (∀ b u, readDesc k (began 1) = (b, u) → s.fbit SCHED_STAT_ADM = false → foOnRole u (parseDesc b).cluster = false →
        (descErr u k gen b ≠ 0 → descErr u k gen b < 16 → Completes (.takeup rq) s (fun t => report (descErr u k gen b) t ∧ t.tasks = s.tasks)) ∧
        (descErr u k gen b = 0 → (s.lane (taskLane u (parseDesc b))).st ≠ .idle → s.task k = none → Completes (.takeup rq) s (fun t =>
          report 0 t ∧ (∀ j, j ≠ k → t.task j = s.task j) ∧ ∃ y, t.task k = some y ∧ y.desc = parseDesc b ∧ y.first = true ∧
            y.cflt = 0 ∧ y.active = false ∧
            y.st = if y.desc.en = true ∧ (s.vpi (k / 256)).st ≠ .ready then .run else .stopped))) ∧
      (∀ b u x, s.task k = some x → x.st ≠ .idle → readDesc k (began 4) = (b, u) → descErr u k gen b = 0 → placeErr u x = 0 →
        (s.lane (taskLane u (parseDesc b))).st ≠ .idle → Completes (.restart rq) s (fun t => report 0 t ∧
          ∃ y, t.task k = some y ∧ y.desc = parseDesc b ∧ y.st = .run ∧ y.cflt = 0 ∧ y.first = true ∧ y.active = x.active)) ∧
      (∀ x, s.task k = some x → x.st = .run → placeErr s x = 0 → x.desc.fact = false → LogRoom s →
        (inActivation s k x = true → Completes (.stopTask rq) s (fun t => report 0 t ∧ t.task k = some { x with stopReq := true })) ∧
        (inActivation s k x = false →
          Completes (.stopTask rq) s (fun t => report 0 t ∧
            t.task k = some { x with active := false, st := .stopped, stopReq := false } ∧
            t.log = logPlus s [eventOf s VPI_TRUN_STATE true 6 (k / 256) [k, 2]]) ∧
          Completes (.dropTask rq) s (fun t => report 0 t ∧ ∃ y, t.task k = some y ∧ y.st = .idle)))) ∧
    (s.fbit VPI_TXSTAT_PEND = true → s.task k = none → Completes (.stopTask rq) s (fun t => t.fget VPI_TXSTAT_ERR = 11 ∧
      t.fbit VPI_TXSTAT_PEND = false ∧ t.tasks = s.tasks.map (fun p => (p.1, { p.2 with exch := none })) ∧
      Accepted (VPI_TXSTAT_PEND :: stat) { s with tasks := t.tasks } t)) ∧
    (s.fbit VPI_TXSTAT_BUSY = false ∨ s.fget VPI_TXCMD_CMD ≠ 2 → Ignored .exchangeValidated s) ∧
    (s.fbit VPI_TXSTAT_BUSY = true → s.fget VPI_TXCMD_CMD = 2 →
      let s1 := (s.fset VPI_TXSTAT_BUSY 0).fset VPI_TXCMD_CMD 0
      let cl := s.fget VPI_TXBLK_CL
      (roleDown s cl = true → Completes .exchangeValidated s (fun t => t.fget VPI_TXSTAT_ERR = 2 ∧ t.fget VPI_TXSTAT_BUSY = 0 ∧
        OnlyRegs stat s t)) ∧
      (∀ hd b u w, roleDown s cl = false → s1.engRead 21 0xFF (sramAddr cl (s.fget VPI_TXBLK_OFS)) 32 = (hd, u) →
        readDesc (leAt hd 0 2 % 2 ^ 14) u = (b, w) →
        (∀ e ex, checkExchange w hd (s.fget VPI_TXBLK_OFS) cl b = (e, ex) → e ≠ 0 → e < 16 → Completes .exchangeValidated s (fun t =>
          t.fget VPI_TXSTAT_ERR = e ∧ t.fget VPI_TXSTAT_BUSY = 0 ∧ t.tasks = s.tasks)) ∧
        (∀ ex x, checkExchange w hd (s.fget VPI_TXBLK_OFS) cl b = (0, some ex) → s.task (leAt hd 0 2 % 2 ^ 14) = some x → x.st = .run →
          Completes .exchangeValidated s (fun t => t.fbit VPI_TXSTAT_PEND = true ∧ t.fget VPI_TXSTAT_BUSY = 0 ∧
            t.task (leAt hd 0 2 % 2 ^ 14) = some { x with exch := some ex } ∧ t.lanes = s.lanes))))

/-- Task events and task commands. Where the spec leaves a point open it follows the model's choice: assumptions 15, 82,
83, 86, 87. -/
def Obligations.TasksFollowTheirRules : Prop := TaskEventsAreCounted ∧ TaskCommands

/-! ### Failover (R337, R339 to R341, R346, R350 to R355) -/

/-- A check that fails on a powered cluster with a role is written to FAILOVER_SYND and isolates the cluster: with the spare ready a
takeover powers it, without it the role is lost and its class-0 tasks are FAULTED. -/
def Sys2Proof.Machine.FailedChecksRelinquish : Prop :=
  ∀ (s : State) (g : Fin 5) (cmd : Instr) (check lane : Nat),
    (cmd, check, lane) ∈ (Instr.heartbeatMissing g, 7, 15) :: (Instr.vcompFault g, 8, 15) ::
      (List.finRange 8).map (fun (i : Fin 8) => (Instr.beatcntMismatch (clusterLane g i), 6, i.val)) →
    let synd := fun (c : Nat) (t : State) => t.fbit FAILOVER_SYND_VALID = true ∧ t.fget FAILOVER_SYND_CL = c ∧
      t.fget FAILOVER_SYND_GROUP = g.val ∧ t.fget FAILOVER_SYND_LANE = lane ∧ t.fget FAILOVER_SYND_CHECK = check ∧ t.dom g = 0 ∧
      ∀ i : Fin 8, (t.lane (clusterLane g i)).st = .off
    (s.roleOf g = none ∨ s.domOn g = false → Ignored cmd s) ∧
    (∀ c, s.roleOf g = some c → s.domOn g = true → s.fget FAILOVER_STAT_PHASE = 0 →
      (s.fbit FAILOVER_CTL_EN = true → s.fbit FAILOVER_STAT_SPARE = true → spareGroup s < 5 → spareGroup s ≠ g →
        Completes cmd s (fun t => synd c t ∧ t.fbit FAILOVER_STAT_BUSY = true ∧ t.fget FAILOVER_STAT_PHASE = 2 ∧
          t.fget FAILOVER_STAT_CL = c ∧ t.fget FAILOVER_STAT_DRILL = 0 ∧ t.fo.failed = g ∧ t.fo.tDecide = s.now ∧
          t.dom (spareGroup s) = 3 ∧ alookup (spareGroup s) t.power.target = some 1)) ∧
      (s.fbit FAILOVER_CTL_EN = false ∨ s.fbit FAILOVER_STAT_SPARE = false → s.fo.revokePend = false →
        Completes cmd s (fun t => synd c t ∧ t.fbit FAILOVER_STAT_LOST = true ∧ t.fbit FAILOVER_STAT_BUSY = false ∧
          t.fget FAILOVER_STAT_PHASE = 0 ∧ ∀ k x, (k, x) ∈ roleTasks s c (· == 0) → ∃ y, t.task k = some y ∧ y.st = .faulted)))

/-- The steps of a takeover, a drill and RESYNC, and how each ends. -/
def Sys2Proof.Machine.FailoverSequences : Prop :=
  ∀ (s : State) (rq : Req) (v : Word),
    let phase := s.fget FAILOVER_STAT_PHASE
    let c := s.fget FAILOVER_STAT_CL
    let d := spareGroup s
    let f := s.groupOf c
    (phase ≠ 2 ∨ govHolds s d = true → Ignored .sparePowerUpDone s) ∧
    (phase = 2 → govHolds s d = false → s.fbit FAILOVER_STAT_DRILL = false → c < 4 → d < 5 → f < 5 → d ≠ f →
      Completes .sparePowerUpDone s (fun t => t.groupOf c = d ∧ t.groupOf 4 = f ∧ t.fget FAILOVER_STAT_SPARE = 0 ∧
        t.fget FAILOVER_TPWR_T = min ((s.now - s.fo.tDecide) * 10 / 65536000) 65535)) ∧
    (phase ≠ 2 → Ignored .sparePowerTimeout s) ∧
    (phase = 2 → s.fbit FAILOVER_STAT_DRILL = false → s.fbit FAILOVER_STAT_BUSY = true → s.fo.revokePend = false → c < 4 → d < 5 → f < 5 →
      Completes .sparePowerTimeout s (fun t => t.fbit FAILOVER_STAT_LOST = true ∧ t.fget FAILOVER_STAT_SPARE = 0 ∧
        t.fget FAILOVER_STAT_BUSY = 0 ∧ t.fget FAILOVER_STAT_PHASE = 0)) ∧
    (WriteGranted rq 0xF000060008 s →
      let r := v.toNat % 8
      let barred := 3 < r ∨ s.clusterFitted (s.groupOf r) = false ∨ s.fbit FAILOVER_STAT_SPARE = false ∨
        s.fbit FAILOVER_STAT_BUSY = true ∨ ∃ p ∈ s.tasks, p.2.desc.cluster = r ∧ p.2.exch ≠ none
      (barred → Completes (.drill rq v) s (Refused .denied s)) ∧
      (¬ barred → Completes (.drill rq v) s (fun t => t.fget FAILOVER_STAT_BUSY = 1 ∧ t.fget FAILOVER_STAT_PHASE = 7 ∧
        t.fget FAILOVER_STAT_CL = r ∧ Accepted [FAILOVER_STAT_BUSY, FAILOVER_STAT_PHASE, FAILOVER_STAT_CL]
          { s with fo := { s.fo with failed := s.groupOf r } } t)) ∧
      (phase ≠ 7 → Completes (.cancel rq) s (Accepted [] s)) ∧
      (phase = 7 → s.fo.revokePend = false → Completes (.cancel rq) s (fun t => t.fget FAILOVER_STAT_BUSY = 0 ∧
        t.fget FAILOVER_STAT_PHASE = 0 ∧ t.fget FAILOVER_STAT_DRILL = 0 ∧
        Accepted [FAILOVER_STAT_BUSY, FAILOVER_STAT_PHASE, FAILOVER_STAT_DRILL] s t)) ∧
      (s.fbit FAILOVER_STAT_BUSY = true ∨ s.fbit FAILOVER_STAT_SPARE = true → Completes (.resync rq) s (Refused .denied s)) ∧
      (s.fbit FAILOVER_STAT_BUSY = false → s.fbit FAILOVER_STAT_SPARE = false → d < 5 → Completes (.resync rq) s (fun t =>
        t.fget FAILOVER_STAT_BUSY = 1 ∧ t.fget FAILOVER_STAT_PHASE = 6 ∧ t.dom d = 3 ∧ alookup d t.power.target = some 1 ∧ t.resp = .ok))) ∧
    (phase ≠ 7 ∨ atBoundary s c = false → Ignored .drillBoundary s) ∧
    (phase = 7 → atBoundary s c = true → d < 5 → f < 5 → c < 4 → Completes .drillBoundary s (fun t =>
      t.fget FAILOVER_STAT_DRILL = 1 ∧ t.fget FAILOVER_STAT_PHASE = 2 ∧ t.fget FAILOVER_SYND_CHECK = 11 ∧ t.fo.failed = f ∧
      t.fo.tDecide = s.now ∧ t.dom d = 3 ∧ ∀ i : Fin 8, (t.lane (clusterLane f i)).st = .stopped)) ∧
    (∀ pass test, phase ≠ 6 → Ignored (.resyncDone pass test) s) ∧
    (∀ test, phase = 6 → d < 5 → s.fo.revokePend = false →
      Completes (.resyncDone true test) s (fun t => t.fget FAILOVER_STAT_SPARE = 1 ∧ t.fget FAILOVER_STAT_BUSY = 0 ∧
        t.fget FAILOVER_STAT_PHASE = 0 ∧ t.dom d = 0 ∧ ∀ i : Fin 8, (t.lane (clusterLane d i)).retired = false) ∧
      (LogRoom s → Completes (.resyncDone false test) s (fun t => t.fget FAILOVER_STAT_SPARE = 0 ∧ t.fget FAILOVER_STAT_RSFAIL = 1 ∧
        t.fget FAILOVER_STAT_BUSY = 0 ∧ t.fget FAILOVER_STAT_PHASE = 0 ∧ t.dom d = 0 ∧
        t.log = logPlus s [eventOf s FAILOVER_STAT_RSFAIL false 5 0xFF [d, test]])))

/-- Self-diagnosis checks, takeover, drill and return. Where the spec leaves a point open it follows the model's choice:
assumptions 91, 92, 93, 94, 95, 96. -/
def Obligations.FailoverFollowsItsSteps : Prop := FailedChecksRelinquish ∧ FailoverSequences

/-! ### Power (R355 to R383) -/

/-- PWR_DCMD: what refuses it, what it reports, and how a domain starts towards ON, OFF or RET; how the change ends. -/
def Sys2Proof.Machine.DomainCommandsChangeDomains : Prop :=
  ∀ (s : State) (rq : Req) (v : Word),
    let d := v.toNat % 16
    let st := v.toNat / 16 % 4
    let stat := [PWR_DCMDSTAT_ERR, PWR_DCMDSTAT_BUSY]
    let fails := fun (e : Nat) (t : State) => t.fget PWR_DCMDSTAT_ERR = e ∧ Accepted [PWR_DCMDSTAT_ERR]
      { s with log := logPlus s [eventOf s PWR_DCMDSTAT_ERR false 4 0xFF [d, st, e]] } t
    (WriteGranted rq 0xF000010008 s →
      (s.fbit PWR_DCMDSTAT_BUSY = true ∨ 9 < d ∨ st = 3 → Completes (.domainCommand rq v) s (Refused .denied s)) ∧
      (s.fbit PWR_DCMDSTAT_BUSY = false → d ≤ 9 → st ≠ 3 → LogRoom s →
        (domAbsent s d = true → Completes (.domainCommand rq v) s (fails 1)) ∧
        (domAbsent s d = false →
          (d = 4 → Completes (.domainCommand rq v) s (fails 2)) ∧
          (d ≠ 4 → s.dom d = st → Completes (.domainCommand rq v) s (fun t => t.fget PWR_DCMDSTAT_ERR = 0 ∧ Accepted [PWR_DCMDSTAT_ERR] s t)) ∧
          (d ≠ 4 → s.dom d ≠ st → dcmdErr s d st ≠ 0 → Completes (.domainCommand rq v) s (fails (dcmdErr s d st))) ∧
          (d ≠ 4 → s.dom d ≠ st → dcmdErr s d st = 0 →
            (st = 1 → d ≠ 9 → Completes (.domainCommand rq v) s (fun t => t.dom d = 3 ∧ t.fget PWR_DCMDSTAT_BUSY = 1 ∧
              t.fget PWR_DCMDSTAT_ERR = 0 ∧ Accepted (domField d :: stat) { s with power := { s.power with
                cmd := some d, target := ainsert d 1 s.power.target,
                gov := govInsert ⟨domClass d, d, stagesFor s d⟩ s.power.gov } } t)) ∧
            (st = 0 → Completes (.domainCommand rq v) s (fun t => t.dom d = 3 ∧ t.fget PWR_DCMDSTAT_BUSY = 1 ∧
              t.fget PWR_DCMDSTAT_ERR = 0 ∧ Accepted (domField d :: stat)
                { s with power := { s.power with cmd := some d, target := ainsert d 0 s.power.target } } t)) ∧
            (st = 2 → d ≠ 5 → Completes (.domainCommand rq v) s (fun t => t.dom d = 3 ∧ t.fget PWR_DCMDSTAT_BUSY = 1 ∧
              alookup d t.power.target = some 2 ∧
              ∀ b ∈ domBanks d, bitOf (t.fget PWR_RETVALID_B) b = true ∧ heldImage t b = bankImage s b)) ∧
            (st = 2 → d = 5 → Completes (.domainCommand rq v) s (fun t => t.fget PWR_DCMDSTAT_BUSY = 1 ∧
              Accepted stat { s with power := { s.power with cmd := some d, standby := .wait } } t)))))) ∧
    (∀ k : Fin 10,
      (alookup k.val s.power.target = none → Ignored (.domainChangeDone k) s) ∧
      (alookup k.val s.power.target = some 1 → govHolds s k = true ∨ (k.val ≠ 5 ∧ s.domOn 5 = false) → Ignored (.domainChangeDone k) s) ∧
      (∀ tgt, alookup k.val s.power.target = some tgt → tgt = 0 ∨ tgt = 2 → Completes (.domainChangeDone k) s (fun t => t.dom k = tgt ∧
        alookup k.val t.power.target = none ∧ (s.power.cmd = some k.val → t.fget PWR_DCMDSTAT_BUSY = 0 ∧ t.power.cmd = none) ∧
        (k.val = 9 → tgt = 2 → t.mem = s.mem) ∧ (k.val = 9 → tgt = 0 → ∀ a < 2 ^ 34, memGet t.mem a = 0) ∧
        (k.val < 5 → ∀ a < 2 ^ 22, memGet t.mem (sramAddr k a) = 0))) ∧
      (alookup k.val s.power.target = some 1 → govHolds s k = false → k.val < 5 → k.val ≠ spareGroup s → s.domOn 5 = true →
        Completes (.domainChangeDone k) s (fun t => t.dom k = 1 ∧ alookup k.val t.power.target = none ∧
          (∀ i : Fin 8, t.lane (clusterLane k i) = { lane0 .idle with retired := (s.lane (clusterLane k i)).retired }) ∧
          acctOf t k = s.fget (PWR_ACC_CAP k) * 1000)))

/-- The inrush governor grants the stage at its head when 20 µs of grants leave room, a unit wakes with its stage, an unconfirmed
stage leaves its domain OFF; idle units gate (R359 to R362). -/
def Sys2Proof.Machine.GovernorGrantsStages : Prop :=
  ∀ (s : State) (u : Fin 11) (r : GovReq) (st : Nat) (rest : List Nat),
    let used := (recentGrants s).map (·.2.1)
    let fits := used.sum + st ≤ 6000 ∧ (recentGrants s).all (fun g => g.2.2 != r.item) = true
    let granted := recentGrants s ++ [(s.now, st, r.item)]
    let x := s.lane (unitLane u)
    (s.power.gov = [] → Ignored (.governorGrant true) s) ∧
    (s.power.gov = [r] → r.steps = st :: rest → ¬ fits → Ignored (.governorGrant true) s) ∧
    (s.power.gov = [r] → r.steps = st :: rest → fits → r.item < 16 → Completes (.governorGrant true) s (fun t =>
      t = { s with power := { s.power with grants := granted, gov := if rest = [] then [] else [{ r with steps := rest }] } })) ∧
    (s.power.gov = [r] → r.item < 10 → ¬ (r.item = spareGroup s ∧ s.fget FAILOVER_STAT_PHASE ∈ [2, 6]) → LogRoom s →
      Completes (.governorGrant false) s (fun t => t.dom r.item = 0 ∧ t.power.gov = [] ∧ alookup r.item t.power.target = none ∧
        (s.power.cmd = some r.item → t.fget PWR_DCMDSTAT_ERR = 7 ∧ t.fget PWR_DCMDSTAT_BUSY = 0 ∧ t.power.cmd = none) ∧
        t.log = logPlus s [eventOf s PWR_DCMDSTAT_ERR false 4 0xFF [r.item, 1, 7]])) ∧
    (x.gated = false → Ignored (.unitWake u) s) ∧
    (x.gated = true → s.power.gov = [] → used.sum + 500 ≤ 6000 → (recentGrants s).all (fun g => g.2.2 != 16 + u.val) = true →
      Completes (.unitWake u) s (fun t => OnlyLane (unitLane u) { s with power := { s.power with gov := [],
                                                                                                 grants := recentGrants s ++ [(s.now, 500, 16 + u.val)] } } t ∧
        t.lane (unitLane u) = { x with gated := false })) ∧
    (let idle := if u.val < 3 then x.st = .waiting else x.ticket = none ∧ x.st = .idle
     (s.fget (PWR_IDLE_T u) = 0 ∨ ¬ idle → Ignored (.unitIdleGate u) s) ∧
     (s.fget (PWR_IDLE_T u) ≠ 0 → idle → Completes (.unitIdleGate u) s (fun t => OnlyLane (unitLane u) s t ∧
       t.lane (unitLane u) = { x with gated := true })))

/-- The energy account of R363 and R364, and the temperature rules of R367. -/
def Sys2Proof.Machine.EnergyAndHeatAreAccounted : Prop :=
  ∀ (s : State) (energy : List Nat) (tc tf tn tw cp : Int),
    let p := fun (d : Nat) => energy.getD d 0 / 10
    let avail : Int := (s.fget PWR_PBUDGET_P * 10 : Nat) * derate s / 256 - (p 5 + p 6 + p 7 + p 8 : Nat)
    let left := max 0 (avail - (fundOf s 0 + fundOf s 1 + fundOf s 2 + fundOf s 3 + fundOf s 4))
    let sumW := (((List.range 5).filter s.domOn).map (fun c => s.fget (PWR_ACC_W c))).sum
    let bst := (List.range 5).map bstField
    let hot := max (max tc tf) (max (if s.domOn 7 then tn else tc) (if s.domOn 8 then tw else tc))
    Completes (.accountTick energy) s (fun t =>
      OnlyRegs (bst ++ (List.range 5).map PWR_ACCPMEAS_PMEAS) { s with power := { s.power with acct := t.power.acct,
                                                                                               sums := t.power.sums, ticks := t.power.ticks } } t ∧
      (∀ c : Fin 5, (s.domOn c = false → acctOf t c = acctOf s c ∧ t.fget (bstField c) = s.fget (bstField c)) ∧
        (s.domOn c = true →
          let cap : Int := (s.fget (PWR_ACC_CAP c) * 1000 : Nat)
          acctOf t c = max (-cap) (min cap (acctOf s c +
            (groupFund s c + left * (s.fget (PWR_ACC_W c) : Nat) / (sumW : Nat) - (p c : Nat)) * 10)) ∧
          (budgetHeld s = true → t.fget (bstField c) = 3) ∧
          (s.fget (bstField c) ≤ 3 → acctOf t c * 256 < cap * (s.fget PWR_ATH_TH3 : Nat) → t.fget (bstField c) = 3)))) ∧
    (hot < 130 → LogRoom s → Completes (.temperatureReading tc tf tn tw cp) s (fun t =>
      t.power.th = hot ∧ t.power.hot = ((s.power.hot || decide (125 < hot)) && decide ((s.fget PWR_THERM_TSOFT : Int) < hot)) ∧
      t.fbit PWR_STAT_THOT = decide ((s.fget PWR_THERM_TSOFT : Int) < hot) ∧
      (125 < hot → s.power.th ≤ 125 → t.fget PWR_STAT_TOVER = 1 ∧
        t.log = logPlus s [eventOf s PWR_STAT_TOVER false 7 0xFF [tempByte hot]]) ∧
      (¬ (125 < hot ∧ s.power.th ≤ 125) → t.log = s.log) ∧ t.fget PWR_TJ_C = tempByte tc ∧ t.fget PWR_TJ_F = tempByte tf ∧
      (t.power.hot = true → ∀ c : Fin 5, s.domOn c = true → t.fget (bstField c) = 3) ∧
      OnlyRegs (bst ++ [PWR_TJ_C, PWR_TJ_F, PWR_TJ_N, PWR_TJ_W, PWR_TCP_T, PWR_STAT_THOT, PWR_STAT_TOVER])
        { s with power := { s.power with th := t.power.th, hot := t.power.hot }, log := t.log } t))

/-- The governor, the energy accounts and the temperatures. Where the spec leaves a point open it follows the model's
choice: assumptions 97, 98, 102. -/
def Obligations.GovernorAndEnergyAccounts : Prop := GovernorGrantsStages ∧ EnergyAndHeatAreAccounted

/-- Wake sources, standby, the supply inputs and the hold-up (R372 to R374). -/
def Sys2Proof.Machine.SupplyAndStandby : Prop :=
  ∀ (s : State) (src : Fin 10) (a b : Bool) (n : Nat),
    (bitOf (s.fget PWR_WAKEEN_EN) src = false → Ignored (.wakeSource src) s) ∧
    (bitOf (s.fget PWR_WAKEEN_EN) src = true →
      (s.power.standby ≠ .asleep → Completes (.wakeSource src) s (fun t => bitOf (t.fget PWR_WAKESRC_SRC) src = true ∧
        OnlyRegs [PWR_WAKESRC_SRC] s t)) ∧
      (s.power.standby = .asleep → s.dom 5 = 2 → Completes (.wakeSource src) s (fun t => bitOf (t.fget PWR_WAKESRC_SRC) src = true ∧
        t.power.standby = .waking ∧ t.dom 5 = 3 ∧ alookup 5 t.power.target = some 1))) ∧
    (let quiet := fun (i : Fin 52) => (s.lane i).st = .waiting ∨ (s.lane i).gated = true ∨ (s.lane i).st = .reset
     let ready := s.power.standby = .wait ∧ (s.lane 40).st = .waiting ∧ quiet 41 ∧ quiet 42 ∧ quiet 43
     (¬ ready → Ignored .standbyEntry s) ∧
     (ready → Completes .standbyEntry s (fun t => t.power.standby = .asleep ∧ t.dom 5 = 2 ∧
       (s.power.cmd = some 5 → t.fget PWR_DCMDSTAT_BUSY = 0 ∧ t.power.cmd = none) ∧
       ∀ k ∈ [0, 1, 2, 6, 7], bitOf (t.fget PWR_RETVALID_B) k = true))) ∧
    (s.power.standby ≠ .wait → Ignored .standbyTimeout s) ∧
    (s.power.standby = .wait → LogRoom s → Completes .standbyTimeout s (fun t => t.power.standby = .no ∧ t.fget PWR_DCMDSTAT_ERR = 6 ∧
      (s.power.cmd = some 5 → t.fget PWR_DCMDSTAT_BUSY = 0 ∧ t.power.cmd = none) ∧
      OnlyRegs [PWR_DCMDSTAT_ERR, PWR_DCMDSTAT_BUSY] { s with power := { s.power with standby := .no, cmd := t.power.cmd },
                                                              log := logPlus s [eventOf s PWR_DCMDSTAT_ERR false 4 0xFF [5, 2, 6]] } t)) ∧
    (LogRoom s → Completes (.supplyInputChange a b) s (fun t => t.fbit PWR_STAT_INA = a ∧ t.fbit PWR_STAT_INB = b ∧
      (a = true ∨ b = true → t.fget PWR_STAT_HOLDUP = 0 ∧ t.power.finalLogged = false ∧
        OnlyRegs [PWR_STAT_INA, PWR_STAT_INB, PWR_STAT_HOLDUP] { s with power := { s.power with finalLogged := false } } t) ∧
      (a = false → b = false → s.fbit PWR_STAT_HOLDUP = true → OnlyRegs [PWR_STAT_INA, PWR_STAT_INB] s t) ∧
      (a = false → b = false → s.fbit PWR_STAT_HOLDUP = false → t.fget PWR_STAT_HOLDUP = 1 ∧ t.fget PWR_STAT_SFW = 1 ∧
        t.fget PWR_STAT_SFWL = 1 ∧ t.log = logPlus s [eventOf s PWR_STAT_SFW false 2 0xFF [1]] ∧
        (s.fbit PWR_CTL_SFWSHED = true → ∀ c : Fin 5, s.domOn c = true → t.fget (bstField c) = 3)))) ∧
    (s.fbit PWR_STAT_HOLDUP = false → Ignored (.holdupUpdate n) s) ∧
    (s.fbit PWR_STAT_HOLDUP = true →
      (20 ≤ n ∨ s.power.finalLogged = true → Completes (.holdupUpdate n) s (fun t => t.fget PWR_HOLDUP_T = n % 65536 ∧
        OnlyRegs [PWR_HOLDUP_T] s t)) ∧
      (n < 20 → s.power.finalLogged = false → LogRoom s → Completes (.holdupUpdate n) s (fun t => t.fget PWR_HOLDUP_T = n ∧
        OnlyRegs [PWR_HOLDUP_T] { s with power := { s.power with finalLogged := true },
                                         log := logPlus s [eventOf s PWR_HOLDUP_T false 7 0xFF [n]] } t))) ∧
    (s.fbit PWR_STAT_INA = true ∨ s.fbit PWR_STAT_INB = true → Completes .sfwClear s (fun t => t.fget PWR_STAT_SFW = 0 ∧
      OnlyRegs [PWR_STAT_SFW] s t)) ∧
    (s.fbit PWR_STAT_INA = false → s.fbit PWR_STAT_INB = false → Ignored .sfwClear s)

/-- The oscillator, the PLLs and the moves of the beat and MGT clocks (R21, R22, R140, R375 to R377). -/
def Sys2Proof.Machine.ClocksStartAndMove : Prop :=
  ∀ (s : State) (rq : Req) (n : Fin 6),
    Completes .ocxoActive s (fun t => t.fget CLK_STAT_OCXOACT = 1 ∧ OnlyRegs [CLK_STAT_OCXOACT] s t) ∧
    (s.fbit (pllEn n) = false ∨ s.fbit CLK_STAT_OCXOACT = false → Ignored (.pllLock n) s) ∧
    (s.fbit (pllEn n) = true → s.fbit CLK_STAT_OCXOACT = true → Completes (.pllLock n) s (fun t => t.fget (pllLock n) = 1 ∧
      (n.val ≠ 0 → OnlyRegs [pllLock n] s t) ∧
      (n.val = 0 → 184000 ≤ t.fget CLK_FIC_KHZ ∧ t.fget CLK_FIC_KHZ ≤ 216000 ∧
        OnlyRegs [pllLock n, CLK_FIC_KHZ] { s with draws := s.draws + 1 } t))) ∧
    (LogRoom s → ∀ (m : Fin 6) (c : Instr), (c, m) ∈ [(Instr.pllReferenceLoss n, n), (.beatPllReferenceLoss, 1)] →
      Completes c s (fun t => t.fget (pllLoss m) = 1 ∧
        OnlyRegs [pllLoss m] { s with log := logPlus s [eventOf s (pllLoss m) false 5 0xFF [m.val]] } t)) ∧
    (WriteGranted rq 0xF000020004 s →
      (s.fbit BEZEL_STAT_SRC = true ∨ s.fbit (CLK_PLL_LOCK 0) = false → Completes (.movebeat rq) s (Refused .denied s)) ∧
      (s.fbit BEZEL_STAT_SRC = false → s.fbit (CLK_PLL_LOCK 0) = true → Completes (.movebeat rq) s (fun t =>
        t.fget BEZEL_STAT_SRC = 1 ∧ t.fget CLK_STAT_BEATSRC = 1 ∧ Accepted [BEZEL_STAT_SRC, CLK_STAT_BEATSRC]
          { s with bezel := { s.bezel with rate := 125 + 25 * s.fget BEZEL_BEAT_RATE } } t)) ∧
      (s.fbit CLK_STAT_MGTSRC = true ∨ s.fbit (CLK_PLL_LOCK 3) = false → Completes (.movemgt rq) s (Refused .denied s)) ∧
      (s.fbit CLK_STAT_MGTSRC = false → s.fbit (CLK_PLL_LOCK 3) = true → Completes (.movemgt rq) s (fun t =>
        t.fget CLK_STAT_MGTSRC = 1 ∧ Accepted [CLK_STAT_MGTSRC] s t)))

/-- Supply inputs, standby, and clock sources. Where the spec leaves a point open it follows the model's choice:
assumptions 16, 99, 100, 104, 108. -/
def Obligations.SupplyAndClocks : Prop := SupplyAndStandby ∧ ClocksStartAndMove

/-- CLAIM takes a free resource or one its owner holds, refuses another's with a count and an event, and RELEASE frees it
(R378, R379). -/
def Sys2Proof.Machine.ResourcesHaveOneOwner : Prop :=
  ∀ (s : State) (rq : Req) (r o : Nat), r < 64 → o < 256 → WriteGranted rq 0xF000010200 s →
    let cur := s.fget (PWR_OWN_OWNER r)
    let may := (1 ≤ o ∧ o ≤ 5) ∨ (0x40 ≤ o ∧ o < 0x80)
    let stat := [PWR_OWNSTAT_RES, PWR_OWNSTAT_CUR, PWR_OWN_OWNER r, TB_TDCCTL_OWNER r]
    (43 < r → Completes (.ownershipRelease rq r o) s (fun t => t.fget PWR_OWNSTAT_RES = 3 ∧ Accepted [PWR_OWNSTAT_RES] s t)) ∧
    (43 < r → Completes (.claim rq r o) s (fun t => t.fget PWR_OWNSTAT_RES = 3 ∧ Accepted [PWR_OWNSTAT_RES] s t)) ∧
    (r ≤ 43 → ¬ may → cur < 256 → Completes (.claim rq r o) s (fun t => t.fget PWR_OWNSTAT_RES = 3 ∧ t.fget PWR_OWNSTAT_CUR = cur ∧
      Accepted [PWR_OWNSTAT_RES, PWR_OWNSTAT_CUR] s t)) ∧
    (r ≤ 43 → may → cur = 0 ∨ cur = o → Completes (.claim rq r o) s (fun t => t.fget PWR_OWNSTAT_RES = 1 ∧
      t.fget PWR_OWNSTAT_CUR = o ∧ t.fget (PWR_OWN_OWNER r) = o ∧ (r < 8 → t.fget (TB_TDCCTL_OWNER r) = o) ∧
      (8 ≤ r → t.fget (TB_TDCCTL_OWNER r) = s.fget (TB_TDCCTL_OWNER r)) ∧ Accepted stat s t)) ∧
    (r ≤ 43 → may → cur ≠ 0 → cur ≠ o → cur < 256 → LogRoom s → Completes (.claim rq r o) s (fun t => t.fget PWR_OWNSTAT_RES = 2 ∧
      t.fget PWR_OWNSTAT_CUR = cur ∧ t.fget PWR_STAT_OWNREF = 1 ∧ Counted PWR_OWNREFCNT_N s t ∧
      Accepted [PWR_OWNSTAT_RES, PWR_OWNSTAT_CUR, PWR_STAT_OWNREF, PWR_OWNREFCNT_N]
        { s with log := logPlus s [eventOf s PWR_OWNREFCNT_N false 4 0xFF [r, cur, o]] } t)) ∧
    (r ≤ 43 → Completes (.ownershipRelease rq r o) s (fun t => t.fget PWR_OWNSTAT_RES = 1 ∧ t.fget PWR_OWNSTAT_CUR = 0 ∧
      t.fget (PWR_OWN_OWNER r) = 0 ∧ t.resp = .ok ∧
      (∀ h : r < 8, (t.tdc ⟨r, h⟩).results = [] ∧ t.fget (TB_TDCCTL_EDGE r) = 0 ∧ t.fget (TB_TDCCTL_OWNER r) = 0) ∧
      (8 ≤ r → r < 28 ∨ 40 ≤ r → Accepted [PWR_OWNSTAT_RES, PWR_OWNSTAT_CUR, PWR_OWN_OWNER r] s t)))

/-- Power-domain commands and the owners of shared resources. Where the spec leaves a point open it follows the model's
choice: assumptions 101, 103, 105, 107. -/
def Obligations.DomainsAndOwners : Prop := DomainCommandsChangeDomains ∧ ResourcesHaveOneOwner

/-! ### Ports and the switch (R42, R48 to R53, R201 to R231) -/

/-- A received frame meets the checks of R201 and R207 in their order, each counted under its own counter. A frame whose
entry stands in the cache, or is read from the table after a miss, and a frame of a transmit ring are stored once and
wait in the queue of their destination with their owner and generation; a frame without a stream is dropped and
counted (R201, R207, R212, R217, R218, R225). Link changes and the disabling of a port (R204, R217). Where the spec
leaves a point open it follows the model's choice: assumptions 20, 143, 144, 147, 150. -/
def Obligations.FramesEnterThePorts : Prop :=
  ∀ (s : State) (p : Fin 13) (fr : RxFrame) (d q : Nat), (∀ m < 4, s.fbit (NETSW_MIRCTL_EN m) = false) →
    let b := fr.bytes
    let ts := rxStamp s p fr
    let f := rxNetFrame s p b ts
    let checks : List (Bool × Fld) := [(fr.symErr, PORT_SYMERR_N p), (decide (b.length + 4 < 64), PORT_RUNT_N p),
      (decide (s.fget (PORT_MAXLEN_LEN p) < b.length + 4), PORT_LONG_N p), (!fr.fcsOk, PORT_FCSERR_N p),
      (frEt b == 0x8808, PORT_MACCTL_N p), (!vlanOk s p b, PORT_VLANDROP_N p)]
    let open_ := d < 13 ∧ s.fbit (PORT_CTL_EN d) = true ∧ pairOf s d = none ∧ queueFree s d q = true
    let room := fun (own : Nat) (bytes : List Byte) =>
      s.net.occupancy own + cellsOf (bytes.length + 4) ≤ s.shareLimit own ∧ cellsOf (bytes.length + 4) ≤ s.freeCells ∧
        s.net.bufs.length < 131072
    let stored := fun (own gen ts : Nat) (bytes : List Byte) (t : State) =>
      ∃ h g, t.buf h = some g ∧ g.bytes = bytes ∧ g.owner = own ∧ g.gen = gen ∧ g.ts = ts ∧ g.refs = 1 ∧ g.dest = 2 ^ d ∧
        t.queue d q = s.queue d q ++ [h]
    let entry := fun (r : List Byte) (port pcp : Nat) => seC0 r = false ∧ 64 ≤ seKs r ∧ seDest r % 2 ^ 15 = 2 ^ d ∧
      q = if bitOf (seTc r) 3 then seTc r % 8 else bitsOf (s.fget (PORT_PCPMAP_MAP port)) (3 * pcp) 3
    (portTakes s p = false → Ignored (.frameReceive p fr) s) ∧
    (portTakes s p = true → claspRole s p = false →
      (∀ x, checks.find? (·.1) = some x → Completes (.frameReceive p fr) s (fun t => Counted x.2 s t ∧ OnlyRegs [x.2] s t)) ∧
      (checks.find? (·.1) = none → pairOf s p = none → s.fget TB_PTPCTL_ROLE = 0 → frEt b ≠ 0x88FB →
        let octets := fun (t : State) => t.net.oct[p] = (min (s.net.oct[p].1 + (b.length + 4)) (2 ^ 64 - 1), s.net.oct[p].2)
        (s.fbit NETSW_STAT_READY = false → s.fget (PORT_CTL_MISS p) = 0 → Completes (.frameReceive p fr) s (fun t =>
          Counted (PORT_RXFRM_N p) s t ∧ Counted (PORT_MISSDROP_N p) s t ∧ octets t ∧
          OnlyRegs [PORT_RXFRM_N p, PORT_MISSDROP_N p] { s with net := { s.net with oct := t.net.oct } } t)) ∧
        (∀ k ks e, s.fbit NETSW_STAT_READY = true → frameKeys s f = k :: ks → cacheFind s k = some e →
          bitOf (seInports e.raw) p = true → entry e.raw p f.pcp → open_ → room (seVmid e.raw) b →
          Completes (.frameReceive p fr) s (fun t => stored (seVmid e.raw) (seGen e.raw) ts b t ∧ Counted (PORT_RXFRM_N p) s t ∧
            octets t ∧ OnlyRegs [PORT_RXFRM_N p, NETSW_C0USE_HWM] { s with net := t.net } t)))) ∧
    (s.net.missq = [] → Ignored .streamMissLookupDone s) ∧
    (∀ f rest, s.net.missq = f :: rest →
      let u := { s with net := { s.net with missq := rest } }
      (s.fget (PORT_CTL_MISS f.port) = 0 → (∀ k ∈ frameKeys s f, cacheFind s k = none ∧ tableFind k u = (none, u)) →
        Completes .streamMissLookupDone s (fun t => Counted (PORT_MISSDROP_N f.port) s t ∧ OnlyRegs [PORT_MISSDROP_N f.port] u t)) ∧
      (∀ k ks i r, frameKeys s f = k :: ks → cacheFind s k = none → tableFind k u = (some (i, r), u) →
        bitOf (seInports r) f.port = true → f.asIs = false → entry r f.port f.pcp → open_ → room (seVmid r) f.bytes →
        f.launch = none → f.refs = 0 → Completes .streamMissLookupDone s (fun t =>
          stored (seVmid r) (seGen r) f.ts f.bytes t ∧ OnlyRegs [NETSW_C0USE_HWM] { s with net := t.net } t))) ∧
    (∀ r : Fin 65,
      let head := s.fget (TXRING_HEAD_IDX r)
      let slot := if s.fbit (TXRING_CFG_SLOT r) then 16384 else 2048
      let own := if r.val < 64 then r.val else 0xFF
      let a := s.fget (TXRING_BASE_ADDR r) * 4096 + slot * head
      let desc := s.rd (s.canon a) 32
      let body := s.rd (s.canon (a + 32)) (min (leAt desc 0x10 2) (slot - 32))
      let next := fun (t : State) => t.fget (TXRING_HEAD_IDX r) = (head + 1) % (16 * 2 ^ s.fget (TXRING_CFG_SIZE r))
      (s.fbit (TXRING_CFG_EN r) = false ∨ head = s.fget (TXRING_TAIL_IDX r) ∨ s.domOn 7 = false → Ignored (.txRingFrame r) s) ∧
      (s.fbit (TXRING_CFG_EN r) = true → head ≠ s.fget (TXRING_TAIL_IDX r) → s.domOn 7 = true → s.ecc = [] →
        s.fget (TXRING_CFG_SIZE r) ≤ 8 → (s.gate own a 8 false).rsp = .ok → (s.gate own (a + 32) 8 false).rsp = .ok →
        (descBad s desc slot = true → Completes (.txRingFrame r) s (fun t => next t ∧ Counted (TXRING_ERR_N r) s t ∧
          OnlyRegs [TXRING_HEAD_IDX r, TXRING_ERR_N r] s t)) ∧
        (descBad s desc slot = false → leAt desc 0x13 1 < 2 → r.val = 64 ∨ spoofFail s r body (leAt desc 0xE 2) false (leAt desc 0x14 1) = 0 →
          leAt desc 0xE 2 = 2 ^ d → q = leAt desc 0x12 1 % 8 → open_ → room own body →
          Completes (.txRingFrame r) s (fun t => next t ∧ stored own 0 0 body t ∧
            OnlyRegs [TXRING_HEAD_IDX r, NETSW_C0USE_HWM] { s with net := t.net } t)))) ∧
    (∀ link los lock : Bool, Completes (.linkStateChange p link los lock) s (fun t => t.fbit (PORT_STAT_LINK p) = link ∧
      t.fbit (PORT_STAT_SIGLOS p) = los ∧ t.fbit (PORT_STAT_PCSLOCK p) = lock ∧
      OnlyRegs [PORT_STAT_LINK p, PORT_STAT_SIGLOS p, PORT_STAT_PCSLOCK p] s t)) ∧
    (∀ (rq : Req) (v : Word), WriteGranted rq (0xF0000B0000 + 0x1000 * p) s →
      (p.val = 12 ∧ v.toNat / 16 % 4 ≠ 0 → Completes (.portDisable rq p v) s (Refused .denied s)) ∧
      (v.toNat / 2 % 4 ≤ 2 → v.toNat / 256 % 16 ≤ 11 ∨ v.toNat / 256 % 16 = 15 → v.toNat / 16 % 4 ≤ 2 → (p.val = 12 → v.toNat / 16 % 4 = 0) →
        s.fbit (PORT_CTL_EN p) = true → Completes (.portDisable rq p v) s (fun t => t.fbit (PORT_CTL_EN p) = false ∧ t.resp = .ok ∧
          (∀ q < 8, t.queue p q = []) ∧ t.tb.launch[p] = [] ∧ t = { s with regs := t.regs, net := t.net, tb := t.tb, resp := .ok, rdata := 0 })))

/-- An idle port sends the head of its highest queue, with the tag rule and a stamp when asked; the last bit frees the
frame's reference, counts it and queues its stamp; collisions back off or discard; launch-time frames wait in order of
their time, and miss, slip or leave; old frames and residues are discarded and counted; the auditor reclaims a frame
nothing references (R48, R50, R51, R202, R205, R207, R217 to R219, R380). Where the spec leaves a point open it
follows the model's choice: assumptions 145, 146. -/
def Obligations.FramesLeaveThePorts : Prop :=
  ∀ (s : State) (p : Fin 13), (∀ m < 4, s.fbit (NETSW_MIRCTL_EN m) = false) →
    let dropped := fun (h : Nat) (t : State) => ∀ f, s.buf h = some f →
      t.buf h = if f.refs ≤ 1 then none else some { f with refs := f.refs - 1 }
    let plain := fun (f : NetFrame) => claspRole s p = false ∧ pairOf s p = none ∧
      wireLen (wireBytes s p f) ≤ s.fget (PORT_MAXLEN_LEN p)
    let sends := fun (h : Nat) (f : NetFrame) (t : State) => ∃ x : TxNow, t.txOf p = some x ∧ x.handle = some h ∧ x.start = s.now ∧
      (f.stamp = false → x.stamp = none) ∧ (f.stamp = true → ∃ e, x.stamp = some e ∧ e.port = p.val) ∧
      (f.corr = false → f.port < 13 → x.bytes = if f.asIs then f.bytes else if bitOf (s.vlan f.vid).2 p then frUntag f.bytes
        else frRetag f.bytes f.pcp f.vid)
    (portIdle s p = false → Ignored (.portFrameStart p) s) ∧
    (∀ q h f rest, q < 8 → portIdle s p = true → s.queue p q = h :: rest → (∀ j < 8, j ≠ q → s.queue p j = []) → s.buf h = some f →
      plain f → s.now ≤ f.at_ + s.fget NETSW_MAXRES_MS * 1000000 * 65536 → s.tb.launch[p] = [] →
      Completes (.portFrameStart p) s (fun t => sends h f t ∧ t.queue p q = rest ∧
        t = { s with net := { s.net with queues := t.net.queues, tx := t.net.tx } })) ∧
    (s.txOf p = none ∨ (p = 12 ∧ s.net.t1s.until_.isSome = true) → Ignored (.frameTransmitComplete p) s) ∧
    (∀ x, s.txOf p = some x → (p = 12 → s.net.t1s.until_ = none) → Completes (.frameTransmitComplete p) s (fun t =>
      t.txOf p = none ∧ Counted (PORT_TXFRM_N p) s t ∧
      t.net.oct[p] = (s.net.oct[p].1, min (s.net.oct[p].2 + (x.bytes.length + 4)) (2 ^ 64 - 1)) ∧
      (∀ h, x.handle = some h → dropped h t) ∧ (∀ e, x.stamp = some e → s.tb.tsq.length < 16 → t.tb.tsq = s.tb.tsq ++ [e]) ∧
      (∀ e, x.stamp = some e → 16 ≤ s.tb.tsq.length → t.tb.tsq = s.tb.tsq ∧ Counted TB_TSQ_STAT_DROPS s t ∧ t.fget TB_STAT_TSQOVF = 1) ∧
      (x.stamp = none → OnlyRegs [PORT_TXFRM_N p] { s with net := t.net } t))) ∧
    (s.txOf 12 = none ∨ s.net.t1s.until_.isSome = true → ∀ late, Ignored (.t1sCollision late) s) ∧
    (∀ x, s.txOf 12 = some x → s.net.t1s.until_ = none →
      Completes (.t1sCollision true) s (fun t => t.txOf 12 = none ∧ Counted (PORT_LATECOLL_N 12) s t ∧
        OnlyRegs [PORT_LATECOLL_N 12] { s with net := t.net } t ∧ ∀ h, x.handle = some h → dropped h t) ∧
      (s.net.t1s.n = 15 → Completes (.t1sCollision false) s (fun t => t.txOf 12 = none ∧ Counted (PORT_COLL_N 12) s t ∧
        Counted (PORT_XCOLL_N 12) s t ∧ ∀ h, x.handle = some h → dropped h t)) ∧
      (s.net.t1s.n < 15 → Completes (.t1sCollision false) s (fun t => t.txOf 12 = some x ∧ Counted (PORT_COLL_N 12) s t ∧
        ∃ r < 2 ^ min (s.net.t1s.n + 1) 10, t.net.t1s = ⟨s.net.t1s.n + 1, some (wrapTime (s.now + r * 51200 * 65536))⟩))) ∧
    (∀ x u, s.txOf 12 = some x → s.net.t1s.until_ = some u → Completes .t1sBackoffExpiry s (fun t =>
      t.txOf 12 = some { x with start := s.now } ∧ t.net.t1s = ⟨s.net.t1s.n, none⟩ ∧ t = { s with net := t.net })) ∧
    (s.txOf 12 = none ∨ s.net.t1s.until_ = none → Ignored .t1sBackoffExpiry s) ∧
    (let waiting := s.tb.launch[p]
     let slot := (if p.val < 4 then 256 else 2048) * 65536
     let placed := fun (h at_ : Nat) (l : List LaunchFrame) (t : State) => ∃ a b, l = a ++ b ∧ t.tb.launch[p] = a ++ ⟨h, at_⟩ :: b ∧
       (∀ y ∈ a, y.t ≤ at_) ∧ ∀ y ∈ b.head?, at_ < y.t
     (∀ h f at_, (p.val, h) ∈ s.net.arriving → s.buf h = some f → f.launch = some at_ →
       let fits := p.val ≠ 12 ∧ s.owner (28 + p) = (if f.ring < 64 then 0x40 + f.ring else 0x01) ∧ waiting.length < 16 ∧
         s.now ≤ at_ + slot ∧ at_ ≤ s.now + secUnits
       (fits → Completes (.launchFrameArrival p h) s (fun t => placed h at_ waiting t ∧
         t = { s with net := { s.net with arriving := s.net.arriving.erase (p.val, h) }, tb := t.tb })) ∧
       (¬ fits → Completes (.launchFrameArrival p h) s (fun t => Counted (TB_LCNT_MISS p) s t ∧ dropped h t ∧
         t.net.arriving = s.net.arriving.erase (p.val, h) ∧ OnlyRegs [TB_LCNT_MISS p] { s with net := t.net } t))) ∧
     (∀ h, (p.val, h) ∉ s.net.arriving → Ignored (.launchFrameArrival p h) s) ∧
     (waiting = [] → Ignored (.launchSlotOpen p) s) ∧
     (∀ x l f, waiting = x :: l → (s.now < x.t → Ignored (.launchSlotOpen p) s) ∧ (x.t ≤ s.now → s.buf x.handle = some f →
       (x.t + slot < s.now → Completes (.launchSlotOpen p) s (fun t => t.tb.launch[p] = l ∧ Counted (TB_LCNT_MISS p) s t ∧ dropped x.handle t)) ∧
       (s.now ≤ x.t + slot → s.queue p 7 ≠ [] ∨ portIdle s p = false → Completes (.launchSlotOpen p) s (fun t =>
         placed x.handle (x.t + slot) l t ∧ Counted (TB_LCNT_SLIP p) s t ∧ OnlyRegs [TB_LCNT_SLIP p] { s with tb := t.tb } t)) ∧
       (s.now ≤ x.t + slot → s.queue p 7 = [] → portIdle s p = true → plain f → Completes (.launchSlotOpen p) s (fun t =>
         sends x.handle f t ∧ t.tb.launch[p] = l ∧ t = { s with net := { s.net with tx := t.net.tx }, tb := t.tb }))))) ∧
    (∀ (port : Nat) (q : Fin 8), s.queue port q = [] → Ignored (.frameAgeOut port q) s) ∧
    (∀ (port : Nat) (q : Fin 8) (h : Nat) (rest : List Nat) (f : NetFrame), s.queue port q = h :: rest → s.buf h = some f →
      let old := f.at_ + s.fget NETSW_MAXRES_MS * 1000000 * 65536 < s.now
      (¬ old → Ignored (.frameAgeOut port q) s) ∧
      (old → Completes (.frameAgeOut port q) s (fun t => t.queue port q = rest ∧ dropped h t ∧
        let c := if port < 13 then (if f.c0 then PORT_C0DROP_N port else PORT_AGEDROP_N port)
          else if port = 13 then NETSW_IDROP_I0 else NETSW_IDROP_I1
        Counted c s t ∧ OnlyRegs [c] { s with net := t.net } t))) ∧
    (s.net.resid = [] → Ignored .residueService s) ∧
    (∀ r f, s.net.resid = [r] → s.buf r.handle = some f →
      let old := r.t0 + s.fget NETSW_RESAGE_T * 10000 * 65536 < s.now
      (old → r.dest < 13 → Completes .residueService s (fun t => t.net.resid = [] ∧ Counted (PORT_RESDROP_N r.dest) s t ∧ dropped r.handle t)) ∧
      (¬ old → queueFree s r.dest f.q = true → r.dest < 15 → f.q < 8 → Completes .residueService s (fun t => t.net.resid = [] ∧
        t.queue r.dest f.q = s.queue r.dest f.q ++ [r.handle] ∧ t = { s with net := { s.net with resid := [], queues := t.net.queues } })) ∧
      (¬ old → queueFree s r.dest f.q = false → Ignored .residueService s)) ∧
    (s.fbit NETSW_CTL_AUDEN = false → Ignored .auditorVisit s) ∧
    (s.fbit NETSW_CTL_AUDEN = true →
      let h := s.net.audNext
      let kept := { s.net with audNext := (h + 1) % 131072, audSeen := s.net.audSeen.erase h }
      (∀ f, s.buf h = none ∨ (s.buf h = some f ∧ (f.refs = 0 ∨ referenced s h = true)) → exec .auditorVisit s = .next { s with net := kept }) ∧
      (∀ f, s.buf h = some f → f.refs ≠ 0 → referenced s h = false → h ∉ s.net.audSeen →
        exec .auditorVisit s = .next { s with net := { kept with audSeen := s.net.audSeen ++ [h] } }) ∧
      (∀ f, s.buf h = some f → f.refs ≠ 0 → referenced s h = false → h ∈ s.net.audSeen → LogRoom s → Completes .auditorVisit s (fun t =>
        t.buf h = none ∧ t.fget NETSW_AUDCNT_N = min (s.fget NETSW_AUDCNT_N + f.cells) (2 ^ 32 - 1) ∧ t.fget NETSW_STAT_AUDLEAK = 1 ∧
        OnlyRegs [NETSW_AUDCNT_N, NETSW_STAT_AUDLEAK]
          { s with net := { kept with bufs := t.net.bufs }, log := logPlus s [eventOf s NETSW_STAT_AUDLEAK false 2 0xFF [f.owner]] } t)))

/-- The stream-table commands check an entry in the order of their codes and change table and cache together; a replay
sends what the reserve keeps for a cluster from a time on; NETSW_C0USE reloads its high-water mark; a TDC edge is
captured or counted (R52, R212, R213, R222, R231). Where the spec leaves a point open it follows the model's choice:
assumptions 11, 130. -/
def Obligations.StreamTableReplayAndCaptures : Prop :=
  ∀ (s : State) (rq : Req) (i : Nat), i < 32768 →
    let stat := [NETSW_STSTAT_BUSY, NETSW_STSTAT_ERR]
    let rd := fun (a n : Nat) => s.rd (s.canon a) n
    let ok : Rsp → Prop := fun r => r = .ok
    let reads := s.ecc = [] ∧ s.cecc = [] ∧ ok (s.gate 0xFF (s.fget NETSW_STSRC_ADDR * 64) 8 false).rsp ∧ ∀ j < 32768, ok (s.gate 0xFF (stAddr s j) 8 false).rsp
    let entry := fun (j : Nat) => rd (stAddr s j) 64
    (WriteGranted rq 0xF0000A0010 s →
      (s.fbit NETSW_STSTAT_BUSY = true → ∀ c ∈ [Instr.streamUpdate rq i, .streamActivate rq, .streamFlush rq],
        Completes c s (Refused .denied s)) ∧
      (s.fbit NETSW_STSTAT_BUSY = false →
        (reads →
          let r := rd (s.fget NETSW_STSRC_ADDR * 64) 64
          let old := entry i
          let others := (keySlots (seKey r)).map (fun j => (j, entry j))
          let adm := s.fbit SCHED_STAT_ADM && (seC0 old && seV old || seC0 r && seV r)
          let faults : List (Nat × Bool) := (2, seGen r != (seGen old + 1) % 65536) :: (7, adm) ::
            if seV r then (5, seLock r && decide (3072 ≤ lockedOthers s i)) :: seChecks s i r others
            else [(1, leAt r 2 1 % 32 != 0 || !allZero (sliceOf r 5 1) || !allZero (sliceOf r 0x28 24))]
          (∀ e, (e, true) ∈ faults → (∀ k, (k, true) ∈ faults → e ≤ k) → Completes (.streamUpdate rq i) s (fun t =>
            t.fget NETSW_STSTAT_ERR = e ∧ t.fget NETSW_STSTAT_BUSY = 1 ∧ Accepted stat s t)) ∧
          ((∀ x ∈ faults, x.2 = false) → ok (s.gate 0xFF (stAddr s i) 8 true).rsp → s.net.cache.length < 4096 →
            Completes (.streamUpdate rq i) s (fun t => t.fget NETSW_STSTAT_ERR = 0 ∧ t.fget NETSW_STSTAT_BUSY = 1 ∧
              Stored s.mem t.mem (s.canon (stAddr s i)) r ∧
              t.net.cache = (if seV r then [⟨i, r, seLock r, seRburst r * tokenUnit, s.now⟩] else []) ++ s.net.cache.filter (fun e => e.idx != i) ∧
              Accepted stat { s with mem := t.mem, net := { s.net with epoch := s.net.epoch + 1, cache := t.net.cache } } t))) ∧
        (stCandidates s = [] → Completes (.streamActivate rq) s (fun t => t.fget NETSW_STSTAT_BUSY = 1 ∧ t.fget NETSW_STSTAT_ERR = 0 ∧
          Accepted stat { s with net := { s.net with actErr := some 0, epoch := s.net.epoch + 1 } } t)) ∧
        (∀ j, stCandidates s = [j] → reads → s.net.cache.length < 4096 →
          let r := entry j
          let faults : List (Nat × Bool) := (5, decide (3072 ≤ lockedOthers s j)) ::
            seChecks s j r ((keySlots (seKey r)).map (fun n => (n, entry n)))
          (∀ e, (e, true) ∈ faults → (∀ k, (k, true) ∈ faults → e ≤ k) → LogRoom s → Completes (.streamActivate rq) s (
            Accepted stat { s with net := { s.net with actErr := some e, epoch := s.net.epoch + 1 },
                                   log := logPlus s [eventOf s NETSW_STCMD_OP false 4 0xFF [j, e]] })) ∧
          ((∀ x ∈ faults, x.2 = false) → Completes (.streamActivate rq) s (fun t => t.net.actErr = some 0 ∧
            t.net.cache = ⟨j, r, true, seRburst r * tokenUnit, s.now⟩ :: s.net.cache.filter (fun e => e.idx != j) ∧
            Accepted stat { s with net := t.net } t))) ∧
        Completes (.streamFlush rq) s (fun t => t.fget NETSW_STSTAT_ERR = 0 ∧ t.fget NETSW_STSTAT_BUSY = 1 ∧
          Accepted stat { s with net := { s.net with cache := s.net.cache.filter (·.locked) } } t))) ∧
    (s.net.actErr = none → Ignored .streamActivateDone s) ∧
    (∀ e, s.net.actErr = some e → e < 16 → Completes .streamActivateDone s (fun t => t.fget NETSW_STAT_READY = 1 ∧ t.fget NETSW_STSTAT_ERR = e ∧
      t.fget NETSW_STSTAT_BUSY = 0 ∧ OnlyRegs (NETSW_STAT_READY :: stat) { s with net := { s.net with actErr := none } } t)) ∧
    (∀ v : Word, WriteGranted rq 0xF0000A0038 s → s.fget FAILOVER_STAT_PHASE ≠ 4 →
      let c := v.toNat % 8
      (3 < c ∨ s.fbit NETSW_RPSTAT_BUSY = true → Completes (.replayGo rq v) s (Refused .denied s)) ∧
      (c ≤ 3 → s.fbit NETSW_RPSTAT_BUSY = false → Completes (.replayGo rq v) s (fun t =>
        t.fget NETSW_RPSTAT_BUSY = 1 ∧ (∀ f, f ∈ t.net.replayQ ↔ ∃ g ∈ s.net.reserve, bitOf g.repcl c = true ∧
          timeOfTriple (s.fget NETSW_RPT_NS_V) (s.fget NETSW_RPT_SECLO_V) (s.fget NETSW_RPT_SECHI_V) ≤ g.ts ∧ f = { g with replay := true }) ∧
        (s.domOn 6 = true → t.fget SFE_STAT_REPLAY = 1 ∧ (t.sfe.replay.map (·.1)) = some c) ∧
        Accepted [NETSW_RPSTAT_BUSY, SFE_STAT_REPLAY] { s with net := { s.net with replayQ := t.net.replayQ }, sfe := t.sfe } t))) ∧
    (s.net.replayQ ≠ [] → Ignored .replayDone s) ∧
    (s.net.replayQ = [] → s.sfe.replay = none → s.fget FAILOVER_STAT_PHASE ≠ 4 → Completes .replayDone s (fun t =>
      t.fget NETSW_RPSTAT_BUSY = 0 ∧ OnlyRegs [NETSW_RPSTAT_BUSY] s t)) ∧
    (ReadGranted rq 0xF0000A0020 s → Completes (.netswC0useRead rq) s (fun t => t.fget NETSW_C0USE_HWM = s.net.c0Use % 65536 ∧
      Answered ((s.fget NETSW_C0USE_HWM * 65536 + s.net.c0Use % 32768) % 2 ^ 32) [NETSW_C0USE_HWM] s t)) ∧
    (∀ (k : Fin 8) (rise : Bool) (raw : Nat),
      let src := s.fget (TB_TDCCTL_SRC k)
      let wanted := src ≠ 31 ∧ edgeSelected (s.fget (TB_TDCCTL_EDGE k)) rise = true
      let close := ∃ t, (s.tdc k).last = some t ∧ raw < t + 20 * 65536
      (¬ wanted → s.owner k ≠ 3 → Ignored (.tdcEdge k rise raw) s) ∧
      (wanted → close ∨ 4 ≤ (s.tdc k).results.length → s.owner k ≠ 3 → Completes (.tdcEdge k rise raw) s (fun t =>
        Counted (TB_TDCSTAT_DROPS k) s t ∧ OnlyRegs [TB_TDCSTAT_DROPS k] s t)) ∧
      (wanted → ¬ close → (s.tdc k).results.length < 4 → s.owner k ≠ 3 → Completes (.tdcEdge k rise raw) s (fun t =>
        ∃ st, (t.tdc k).results = (s.tdc k).results ++ [(st, rise)] ∧ (t.tdc k).last = some raw ∧
          (s.fget (TB_TDCDLY_DLY k) = 0 → raw < 2 ^ 48 * secUnits → st = raw) ∧ (∀ j, j ≠ k → t.tdc j = s.tdc j) ∧ t = { s with tb := t.tb })))

/-! ### Sample front end (R237 to R263, R500) -/

/-- A frame for the front end is dropped under the first counter that applies or opens or completes a set; a window's end
closes the set by substitution; acknowledged outputs send their tokens; a lost group shows; UPDATE and CLEAR check and
change the tables (R237 to R244, R247, R257, R263). Where the spec leaves a point open it follows the model's choice:
assumptions 41, 119, 120, 124, 126. -/
def Obligations.SampleFrontEndCommands : Prop :=
  ∀ (s : State) (rq : Req) (g : Nat),
    let calm := s.domOn 6 = true ∧ s.fbit SFE_CTL_EN = true ∧ s.sfe.replay = none ∧ s.sfe.outbox = [] ∧
      s.fget FAILOVER_STAT_PHASE ≠ 4 ∧ lktPresent s = false
    let counts := fun (k : Nat) (u t : State) => Counted (sfeCnt k) u t ∧ OnlyRegs [sfeCnt k, SFE_CNTHALF_BITS] u t
    ((∀ q < 8, s.queue 14 q = []) → s.net.replayQ = [] → Ignored .sfeFrameIngest s) ∧
    (∀ f u, calm → takeI1 1 s = some (f, u) →
      let c := Instr.sfeFrameIngest
      let simulated := bitOf (beAt (frPay f.bytes) 4 2) 15 = true
      (alookup f.target s.sfe.inputs = none → Completes c s (counts 0 u)) ∧
      (∀ e, alookup f.target s.sfe.inputs = some e →
        (e.v = false → Completes c s (counts 0 u)) ∧
        (e.v = true → simulated → e.sim = false → Completes c s (counts 3 u)) ∧
        (e.v = true → (simulated → e.sim = true) → svApdu e.nasdu f.bytes = none → Completes c s (counts 1 u)) ∧
        (∀ a, e.v = true → (simulated → e.sim = true) → svApdu e.nasdu f.bytes = some [a] → f.replay = false →
          (a.confRev ≠ e.confRev → e.lastConf ≠ some a.confRev → LogRoom s → Completes c s (fun t => Counted SFE_CONF_N s t ∧
            t.log = logPlus s [eventOf s SFE_CONF_N false 3 0xFF [f.target, a.confRev]])) ∧
          (a.confRev = e.confRev → a.data.length ≠ 8 * e.nch → Completes c s (fun t => Counted SFE_DECERR_N s t)) ∧
          (∀ grp, a.confRev = e.confRev → a.data.length = 8 * e.nch → a.smpCnt < e.rate → a.rate = none → e.rate ≠ 96000 →
            grpOf s.sfe e.group = some grp → grpComplete s.sfe e.group = true → a.synch = 2 → (grpSt s false e.group).sets = [] →
            (grpSt s false e.group).last = none → 2 ≤ grp.nmem →
            s.sfe.inputs.Pairwise (fun a b => a.1 < b.1) → Completes c s (fun t => t = { u with sfe := t.sfe } ∧
              let off := a.smpCnt * secUnits / e.rate
              ∃ m : SetMember, m.member = e.member ∧
                m.vals.map (fun v => (v.1, v.2.1)) = (maskList 32 e.used).map (fun k => (e.slot0 + k, signedOf 32 (beAt a.data (8 * k) 4))) ∧
                (grpSt t false e.group).sets = [⟨(f.ts + 1000000 * 65536 - off) / secUnits * secUnits + off, a.smpCnt, e.rate,
                  s.now + grp.win * 1000 * 65536, grp, [m], f.owner, f.igen, s.sfe.epoch⟩]))))) ∧
    (s.domOn 6 = false ∨ ((grpSt s false g).sets = [] ∧ (grpSt s true g).sets = []) → Ignored (.setWindowExpiry g) s) ∧
    (∀ o, calm → (grpSt s false g).sets = [o] → (grpSt s false g).last = none → o.n % o.grp.odiv ≠ 0 → g ∉ s.sfe.lost → s.sfe.phasors = [] →
      (∀ r : Fin 32, (s.recorder r).ent.v = false ∧ (s.recorder r).running = false) →
      Completes (.setWindowExpiry g) s (fun t => (grpSt t false g).sets = [] ∧ (grpSt t false g).last = some (o.tag, o.n, o.rate) ∧
        counts 6 { s with sfe := t.sfe } t)) ∧
    ((∀ c ∈ s.sfe.compl, c.group ≠ g) → Ignored (.groupCompletion g) s) ∧
    (∀ c rest, s.sfe.compl = c :: rest → c.group = g → Completes (.groupCompletion g) s (fun t =>
      t = { s with sfe := { s.sfe with compl := rest }, tokens := t.tokens } ∧
      ∀ k : Fin 5, t.tokens[k] = s.tokens[k] ++
        (if s.domOn k then (c.clusters.filter (fun r => s.groupOf r == k.val)).map (fun _ => c.tok) else []))) ∧
    (grpComplete s.sfe g = false ∨ g ∈ s.sfe.lost ∨ s.domOn 6 = false → Ignored (.groupLost g) s) ∧
    (grpComplete s.sfe g = true → g ∉ s.sfe.lost → s.domOn 6 = true → LogRoom s → Completes (.groupLost g) s (fun t =>
      let f := SFE_GLOST_BITS (g / 32)
      bitOf (t.fget f) (g % 32) = true ∧ t.fget SFE_STAT_GLOST = 1 ∧ OnlyRegs [f, SFE_STAT_GLOST]
        { s with sfe := { s.sfe with lost := s.sfe.lost ++ [g] }, log := logPlus s [eventOf s f false 2 0xFF [g, 1]] } t)) ∧
    (∀ v : Word, WriteGranted rq 0xF0000C000C s →
      let table := v.toNat / 2 ^ 20 % 8
      let i := v.toNat % 2 ^ 14
      let stat := [SFE_CMDSTAT_ERR, SFE_CMDSTAT_BUSY]
      (s.fbit SFE_CMDSTAT_BUSY = true ∨ 4 < table → Completes (.sfeUpdate rq v) s (Refused .denied s) ∧
        Completes (.sfeClear rq v) s (Refused .denied s)) ∧
      (s.fbit SFE_CMDSTAT_BUSY = false → table ≤ 4 →
        (s.sfeSlots ≤ i → Completes (.sfeClear rq v) s (fun t => t.fget SFE_CMDSTAT_ERR = 3 ∧ t.fget SFE_CMDSTAT_BUSY = 1 ∧ Accepted stat s t)) ∧
        (i < s.sfeSlots → Completes (.sfeClear rq v) s (fun t => t.fget SFE_CMDSTAT_ERR = 0 ∧ t.fget SFE_CMDSTAT_BUSY = 1 ∧
          alookup i t.sfe.live.chains = none ∧ (∀ j, j ≠ i → alookup j t.sfe.live.chains = alookup j s.sfe.live.chains) ∧
          Accepted stat { s with sfe := t.sfe } t ∧ t.sfe = { s.sfe with live := t.sfe.live, replay := t.sfe.replay })) ∧
        (let a := s.fget SFE_STSRC_ADDR * 64
         let b := s.rd (s.canon a) (sfeStaged table)
         let bad := (if table = 0 then inputBad b (parseInput b) else if table = 1 then groupBad b (parseGroup b)
           else if table = 2 then chanBad b (parseChan b) else if table = 3 then phasorBad i b (parsePhasor b) else coefBad b)
         let held := if table = 0 then ((alookup i s.sfe.inputs).map (·.gen)).getD 0
           else if table = 1 then ((alookup i s.sfe.groups).map (·.gen)).getD 0
           else if table = 2 then ((alookup i s.sfe.chans).map (·.gen)).getD 0
           else if table = 3 then ((alookup i s.sfe.phasors).map (·.gen)).getD 0 else (coefOf s.sfe i).gen
         let check := (if table = 0 then inputUpdate s i b else if table = 1 then groupUpdate s i b
           else if table = 2 then chanUpdate s i b else if table = 3 then phasorUpdate s i b else coefUpdate s i b).1
         let report := fun (e : Nat) (t : State) => t.fget SFE_CMDSTAT_ERR = e ∧ t.fget SFE_CMDSTAT_BUSY = 1
         s.ecc = [] → (s.gate 0xFF a 8 false).rsp = .ok →
           (bad = true → Completes (.sfeUpdate rq v) s (fun t => report 1 t ∧ Accepted stat s t)) ∧
           (bad = false → leAt b 0 2 ≠ (held + 1) % 65536 → Completes (.sfeUpdate rq v) s (fun t => report 2 t ∧ Accepted stat s t)) ∧
           (check = 0 → Completes (.sfeUpdate rq v) s (fun t => report 0 t ∧ Accepted stat { s with sfe := t.sfe } t ∧
             t.sfe.epoch = s.sfe.epoch + 1 ∧
             (table = 0 → ∃ last, alookup i t.sfe.inputs = some { parseInput b with lastConf := last }) ∧
             (table = 1 → alookup i t.sfe.groups = some (parseGroup b)) ∧ (table = 2 → alookup i t.sfe.chans = some (parseChan b)) ∧
             (table = 3 → alookup i t.sfe.phasors = some (parsePhasor b)) ∧
             (table = 4 → alookup i t.sfe.coefs = some (parseCoef b)))))))

/-! ### Disturbance recorders (R393 to R398, R401) -/

/-- The recorder commands and the writing of rows. Where the spec leaves a point open it follows the model's choice:
assumptions 113, 114, 115, 116, 117, 118. -/
def Obligations.RecorderCommands : Prop :=
  ∀ (s : State) (rq : Req) (r : Fin 32) (seg : Fin 256),
    let x := s.recorder r
    let stat := [ACQ_CMDSTAT_ERR, ACQ_CMDSTAT_BUSY]
    let report := fun (e : Nat) (t : State) => t.fget ACQ_CMDSTAT_ERR = e ∧ t.fget ACQ_CMDSTAT_BUSY = 1 ∧ t.resp = .ok ∧ t.rdata = 0
    let others := fun (t : State) => ∀ q, q ≠ r → t.recorder q = s.recorder q
    let wrote := fun (fs : List Fld) (t : State) => OnlyRegs (fs ++ faultFields)
      { s with recs := t.recs, mem := t.mem, ecc := t.ecc, cecc := t.cecc, resp := t.resp, rdata := t.rdata } t
    (WriteGranted rq 0xF000100014 s →
      (s.fbit ACQ_CMDSTAT_BUSY = true → ∀ c ∈ [Instr.acqUpdate rq r, .arm rq r, .disarm rq r, .trig rq r, .freeSeg rq r seg],
        Completes c s (Refused .denied s)) ∧
      (s.fbit ACQ_CMDSTAT_BUSY = false →
        (let a := s.fget ACQ_STSRC_ADDR * 64
         let b := s.rd (s.canon a) 512
         s.ecc = [] → (s.gate 0xFF a 8 false).rsp = .ok →
           (recBad s b (parseRec b) = true → Completes (.acqUpdate rq r) s (fun t => report 1 t ∧ Accepted stat s t)) ∧
           (recBad s b (parseRec b) = false → leAt b 0 2 ≠ (x.ent.gen + 1) % 65536 →
             Completes (.acqUpdate rq r) s (fun t => report 2 t ∧ Accepted stat s t)) ∧
           (recErr s r b = 0 → Completes (.acqUpdate rq r) s (fun t => report 0 t ∧ others t ∧ wrote stat t ∧ t.recorder r =
             { rec0 with ent := parseRec b, recSeq := x.recSeq, segs := List.replicate (if (parseRec b).v then (parseRec b).nseg else 0) 0 }))) ∧
        (x.st ≠ .off ∨ x.ent.v = false ∨ s.fbit ACQ_CTL_EN = false → Completes (.arm rq r) s (fun t => report 7 t ∧ Accepted stat s t)) ∧
        (∀ k, x.st = .off → x.ent.v = true → s.fbit ACQ_CTL_EN = true → freeSegment x x.seg = some k → Completes (.arm rq r) s (fun t =>
          report 0 t ∧ others t ∧ wrote stat t ∧ (t.recorder r).st = .fill ∧ (t.recorder r).seg = k ∧ (t.recorder r).rows = 0 ∧
          (t.recorder r).next = s.now * x.ent.rate / secUnits + 1 ∧ (t.recorder r).ent = x.ent ∧ (t.recorder r).segs = x.segs.set k 1)) ∧
        Completes (.disarm rq r) s (fun t => report 0 t ∧ others t ∧ wrote stat t ∧ (t.recorder r).st = .off ∧ (t.recorder r).pend = [] ∧
          (x.running = true → (t.recorder r).segs = x.segs.set x.seg 3) ∧ (x.running = false → (t.recorder r).segs = x.segs)) ∧
        (x.running = false → Completes (.trig rq r) s (fun t => report 7 t ∧ Accepted stat s t)) ∧
        (x.st = .fill → x.ent.v = true → (∃ y ∈ x.ent.terms, y.kind = 5) → Completes (.trig rq r) s (fun t => report 0 t ∧
          Counted (ACQ_RCNT_EARLY r) s t ∧ Accepted (ACQ_RCNT_EARLY r :: stat) s t)) ∧
        (∀ n y, x.st = .armed → x.ent.v = true → x.ent.terms[n]? = some y → y.kind = 5 → (∀ m z, m < n → x.ent.terms[m]? = some z → z.kind ≠ 5) →
          x.ent.owner ≠ 0xFF → x.ent.xtout = false → (∀ q : Fin 32, ∀ z ∈ (s.recorder q).ent.terms, z.kind ≠ 6) →
          Completes (.trig rq r) s (fun t => report 0 t ∧ Accepted stat { s with recs := t.recs } t ∧ others t ∧
            (t.recorder r).st = .post ∧ (t.recorder r).postLeft = x.ent.post ∧ (t.recorder r).ttrig = s.now ∧ (t.recorder r).tsrc = 3 ∧
            (t.recorder r).term = n)) ∧
        (x.ent.nseg ≤ seg.val ∨ x.ent.v = false → Completes (.freeSeg rq r seg) s (fun t => report 3 t ∧ Accepted stat s t)) ∧
        (seg.val < x.ent.nseg → x.ent.v = true → nth x.segs seg = 1 → Completes (.freeSeg rq r seg) s (fun t => report 7 t ∧ Accepted stat s t)) ∧
        (seg.val < x.ent.nseg → x.ent.v = true → nth x.segs seg ≠ 1 → x.st ≠ .stopped → Completes (.freeSeg rq r seg) s (fun t =>
          report 0 t ∧ wrote stat t ∧ others t ∧
          t.recorder r = { x with segs := x.segs.set seg 0, order := x.order.filter (· != seg.val) })))) ∧
    (∀ (c : Instr), (c = .acqRowWrite r ∧ ∃ p ∈ x.pend, p.k = x.next ∧ (∀ z ∈ x.pend, z.k = x.next → z = p) ∧ p.vals.all (·.isSome) = true) ∨
        (c = .acqRowDeadline r ∧ rowTag x.next x.ent.rate + 2000000 * 65536 ≤ s.now) →
      (x.running = false → Ignored c s) ∧
      (x.st = .fill → x.lost = [] → Completes c s (fun t => others t ∧ OnlyRegs faultFields
          { s with recs := t.recs, mem := t.mem, ecc := t.ecc, cecc := t.cecc } t ∧
        ∃ q, t.recorder r = { x with
          next := x.next + 1, ring := (x.ring + 1) % max x.ent.pre 1, qors := (q :: x.qors).take x.ent.pre, rows := x.rows + 1,
          st := if x.ent.pre ≤ x.rows + 1 then .armed else .fill, pend := x.pend.filter (fun p => p.k != x.next) }))) ∧
    ((∀ p ∈ x.pend, p.k ≠ x.next) → Ignored (.acqRowWrite r) s) ∧
    (s.now < rowTag x.next x.ent.rate + 2000000 * 65536 → Ignored (.acqRowDeadline r) s)

/-! ### Locket (R402 to R418) -/

/-- The answers of the card: each has the request's OP and SEQ, a status, the flags, its payload and a CRC; write operations are
refused while sealed and then while the log is full (R411 to R414). -/
def Sys2Proof.Machine.LocketAnswersRequests : Prop :=
  ∀ (s : State) (r p : List Byte) (rest : List (List Byte)), s.locket.requests = r :: rest → s.locket.on = true →
    let l := s.locket
    let i := leAt p 0 1
    let ops : List (Nat × Instr) := [(1, .ident), (2, .locketStatus), (3, .readPoint), (4, .readHallmark), (5, .readLog), (6, .readParam),
      (0x10, .paramWrite), (0x11, .fwChunk), (0x12, .commit)]
    let answers := fun (status : Nat) (pay : List Byte) (t : State) => ∃ w, t.locket.responses = l.responses ++ [w] ∧
      w.take 6 = [0x5A] ++ sliceOf r 1 3 ++ leBytes 2 pay.length ∧ leAt w 6 1 = status ∧
      leAt w 7 1 = b2n t.locket.sealed_ + 2 * b2n t.locket.legalOk + 4 * b2n (decide (256 ≤ t.locket.log.length)) ∧
      sliceOf w 8 pay.length = pay ∧ leAt w (8 + pay.length) 4 = crc32c (w.take (8 + pay.length)) ∧ w.length = 12 + pay.length ∧
      t.locket.requests = rest ∧ t = { s with locket := t.locket }
    let only := fun (l' : Locket) (t : State) => t.locket = { l' with requests := rest, responses := t.locket.responses }
    let logs := fun (kind : Nat) (sum time : Nat) (t : State) =>
      t.locket.log = l.log ++ [⟨time, kind, (l.hall.nseal + 1) % 2 ^ 32 % 2 ^ 16, sum / 2 ^ 192⟩] ∧
        t.locket.hall.nseal = (l.hall.nseal + 1) % 2 ^ 32 ∧ t.locket.hall.lastseal = time
    (∀ x ∈ ops, leAt r 1 1 ≠ x.1 → Ignored x.2 s) ∧
    (∀ x ∈ ops, leAt r 1 1 = x.1 → reqPayload r = none → 4 ≤ r.length → Completes x.2 s (fun t => answers 1 [] t ∧ only l t)) ∧
    (reqPayload r = some p →
      (leAt r 1 1 = 1 → Completes .ident s (fun t => answers 0 ((hallBytes l.hall).take 64) t ∧ only l t)) ∧
      (leAt r 1 1 = 2 → Completes .locketStatus s (fun t => only l t ∧ ∃ pay, pay.length = 128 ∧ answers 0 pay t ∧
        ∀ j < 32, (lktPoint l j).state < 256 → (lktPoint l j).hist.length ≤ 60 →
          leAt pay (4 * j) 1 = (lktPoint l j).state ∧ leAt pay (4 * j + 1) 1 = ((lktPoint l j).hist.filter id).length)) ∧
      (leAt r 1 1 = 3 → p.length = 1 → i < 32 → Completes .readPoint s (fun t => answers 0 (pointBytes i (lktPoint l i)) t ∧ only l t)) ∧
      (leAt r 1 1 = 3 → p.length ≠ 1 ∨ 32 ≤ i → Completes .readPoint s (fun t => answers 3 [] t ∧ only l t)) ∧
      (leAt r 1 1 = 4 → Completes .readHallmark s (fun t => answers 0 (hallBytes l.hall) t ∧ only l t)) ∧
      (leAt r 1 1 = 5 → p.length = 3 → 1 ≤ leAt p 2 1 → leAt p 2 1 ≤ 30 → Completes .readLog s (fun t =>
        answers 0 (((l.log.drop (leAt p 0 2)).take (leAt p 2 1)).flatMap sealBytes) t ∧ only l t)) ∧
      (leAt r 1 1 = 6 → p.length = 1 → i < 32 → Completes .readParam s (fun t => answers 0 (memRead l.params (64 + 64 * i) 64) t ∧ only l t)) ∧
      (leAt r 1 1 = 6 → p.length = 1 → i = 0xFF → Completes .readParam s (fun t => answers 0 (memRead l.params 0 64) t ∧ only l t)) ∧
      (∀ x ∈ ops, leAt r 1 1 = x.1 → 0x10 ≤ x.1 →
        (l.sealed_ = true → Completes x.2 s (fun t => answers 4 [] t ∧ only l t)) ∧
        (l.sealed_ = false → 256 ≤ l.log.length → Completes x.2 s (fun t => answers 7 [] t ∧ only l t))) ∧
      (l.sealed_ = false → l.log.length < 256 →
        (leAt r 1 1 = 0x10 → p.length = 65 → i < 32 ∨ i = 0xFF → Completes .paramWrite s (fun t => answers 0 [] t ∧
          only { l with staged := ainsert i (p.drop 1) l.staged } t)) ∧
        (leAt r 1 1 = 0x11 → 4 ≤ p.length → p.length ≤ 484 → leAt p 0 4 + (p.length - 4) ≤ 0x1000000 → Completes .fwChunk s (fun t =>
          answers 0 [] t ∧ Stored l.fwStage.1 t.locket.fwStage.1 (leAt p 0 4) (p.drop 4) ∧
          t.locket.fwStage.2 = max l.fwStage.2 (leAt p 0 4 + (p.length - 4)) ∧ only { l with fwStage := t.locket.fwStage } t)) ∧
        (leAt r 1 1 = 0x12 →
          (p.length = 1 → i = 1 → Completes .commit s (fun t => answers 0 [] t ∧ t.locket.staged = [] ∧
            t.locket.hall.parsum = sha256 (lktParams t.locket) ∧ t.locket.hall.npchg = (l.hall.npchg + 1) % 2 ^ 32 ∧
            logs 3 (sha256 (lktParams t.locket)) l.clock t ∧
            ∀ j < 32, (lktEntry t.locket j = lktEntry l j → lktPoint t.locket j = lktPoint l j) ∧
              (lktEntry t.locket j ≠ lktEntry l j → (lktPoint t.locket j).eimp = 0 ∧ (lktPoint t.locket j).dmax = 0 ∧
                (lktPoint t.locket j).misss = 0))) ∧
          (p.length = 1 → i = 2 → Completes .commit s (fun t =>
            (answers 6 [] t ∧ only l t) ∨
            (answers 0 [] t ∧ t.locket.fwNext = l.fwStage ∧ t.locket.fw = l.fw ∧
              t.locket.hall.fwsum = sha256 (memRead l.fwStage.1 0 l.fwStage.2) ∧ t.locket.hall.nfw = (l.hall.nfw + 1) % 2 ^ 32 ∧
              logs 4 (sha256 (memRead l.fwStage.1 0 l.fwStage.2)) l.clock t))) ∧
          (p.length = 1 → i = 3 → Completes .commit s (fun t => answers 0 [] t ∧ logs 7 0 l.clock t ∧
            ∀ j < 32, lktPoint t.locket j = { lktPoint l j with dmax := 0, dmaxt := 0 })) ∧
          (p.length = 5 → i = 4 → Completes .commit s (fun t => answers 0 [] t ∧ t.locket.clock = leAt p 1 4 ∧
            logs 8 0 (leAt p 1 4) t)))))

/-- The mailbox on the module's side, the feed, the seal switch, the saves, the second and the demand interval of the Locket, and
the card's presence (R405 to R411, R414, R416, R418). -/
def Sys2Proof.Machine.LocketEvents : Prop :=
  ∀ (s : State) (rq : Req) (v : Word),
    let l := s.locket
    let n := v.toNat % 1024
    let body := ((List.range 128).flatMap (fun k => leBytes 4 (s.fget (LOCKET_MBTX_V k)))).take n
    let card := fun (l' : Locket) (t : State) => t = { s with locket := l' }
    (WriteGranted rq 0xF000160008 s →
      (s.fbit LOCKET_STAT_BUSY = true ∨ n < 8 ∨ 504 < n → Completes (.mailboxSend rq v) s (Refused .denied s)) ∧
      (s.fbit LOCKET_STAT_BUSY = false → 8 ≤ n → n ≤ 504 → leAt body 0 1 = 0xA5 → l.on = true → leAt body 1 1 ∈ lktOps →
        Completes (.mailboxSend rq v) s (fun t => t.fget LOCKET_STAT_BUSY = 1 ∧ Accepted [LOCKET_STAT_BUSY]
          { s with locket := { l with requests := l.requests ++ [body ++ leBytes 4 (crc32c body)] } } t)) ∧
      (s.fbit LOCKET_STAT_BUSY = false → 8 ≤ n → n ≤ 504 → leAt body 0 1 ≠ 0xA5 ∨ l.on = false →
        Completes (.mailboxSend rq v) s (fun t => t.fget LOCKET_STAT_BUSY = 1 ∧ Accepted [LOCKET_STAT_BUSY] s t))) ∧
    (l.responses = [] ∨ lktPresent s = false → Ignored .mailboxResponse s) ∧
    (∀ r rest, l.responses = r :: rest → lktPresent s = true →
      let m := leAt r 4 2
      let good := leAt r 0 1 = 0x5A ∧ r.length = 12 + m ∧ leAt r (8 + m) 4 = crc32c (r.take (8 + m))
      let u := { s with locket := { l with responses := rest } }
      (good → r.length ≤ 512 → Completes .mailboxResponse s (fun t => t.fget LOCKET_STAT_RESP = 1 ∧ t.fget LOCKET_STAT_BUSY = 0 ∧
        t.fget LOCKET_MBRLEN_N = r.length ∧ (∀ k < 128, 4 * k + 4 ≤ r.length → t.fget (LOCKET_MBRX_V k) = leAt r (4 * k) 4) ∧
        OnlyRegs (LOCKET_STAT_RESP :: LOCKET_STAT_BUSY :: LOCKET_MBRLEN_N :: (List.range 128).map LOCKET_MBRX_V) u t)) ∧
      (¬ good → Completes .mailboxResponse s (fun t => t.fget LOCKET_STAT_BADRESP = 1 ∧ t.fget LOCKET_STAT_BUSY = 0 ∧
        OnlyRegs [LOCKET_STAT_BADRESP, LOCKET_STAT_BUSY] u t))) ∧
    (s.fbit LOCKET_STAT_BUSY = false → Ignored .mailboxTimeout s) ∧
    (s.fbit LOCKET_STAT_BUSY = true → Completes .mailboxTimeout s (fun t => t.fget LOCKET_STAT_BUSY = 0 ∧ t.fget LOCKET_STAT_TIMEOUT = 1 ∧
      OnlyRegs [LOCKET_STAT_BUSY, LOCKET_STAT_TIMEOUT] s t)) ∧
    (∀ b, Completes (.mailboxLineLockChange b) s (fun t => t.fbit LOCKET_STAT_LINK = b ∧ OnlyRegs [LOCKET_STAT_LINK] s t)) ∧
    (l.feed = [] → Ignored .locketFeedFrame s) ∧
    (∀ c rest, l.feed = c :: rest →
      let f := sliceOf c 32 (leAt c 16 2)
      (l.on = false ∨ asdusOf f = none ∨ (∀ j < 32, lpV (lktEntry l j) = false ∨ (lktPoint l j).state = 3) → Completes .locketFeedFrame s (fun t =>
        Counted LOCKET_FSENT_N s t ∧ OnlyRegs [LOCKET_FSENT_N] { s with locket := { l with feed := rest } } t)) ∧
      (∀ as, l.on = true → asdusOf f = some as → Completes .locketFeedFrame s (fun t => Counted LOCKET_FSENT_N s t ∧
        t.locket.feed = rest ∧ t.locket.params = l.params ∧ t.locket.hall = l.hall ∧ t.locket.clock = l.clock ∧
        ∀ j < 32, (lktPoint l j).state = 3 → lktPoint t.locket j = lktPoint l j))) ∧
    (l.sealed_ = false → Ignored .sealSwitchOpen s) ∧ (l.sealed_ = true → Ignored .sealSwitchClose s) ∧
    (let log := fun (kind : Nat) => if 256 ≤ l.log.length then l.log
       else l.log ++ [⟨l.clock, kind, (l.hall.nseal + 1) % 2 ^ 32 % 2 ^ 16, 0⟩]
     let hall := fun (opened : Bool) => { l.hall with opened := opened, nseal := (l.hall.nseal + 1) % 2 ^ 32, lastseal := l.clock }
     (l.sealed_ = true → Completes .sealSwitchOpen s (card { l with sealed_ := false, hall := hall true, log := log 1 })) ∧
     (l.sealed_ = false → Completes .sealSwitchClose s (card { l with
       sealed_ := true, hall := hall false, log := log 2, staged := [], fwStage := ([], 0) }))) ∧
    (l.on = false → ∀ c ∈ [Instr.locketPeriodicSave, .locketSupplyFail, .locketSecondEnd, .demandIntervalEnd], Ignored c s) ∧
    (l.on = true → Completes .locketPeriodicSave s (card { l with periodic := l.points }) ∧
      Completes .locketSupplyFail s (card { l with final := some l.points, on := false, requests := [] }) ∧
      Completes .locketSecondEnd s (fun t => t.locket.clock = (l.clock + 1) % 2 ^ 32 ∧
        card { l with clock := t.locket.clock, points := t.locket.points } t ∧ ∀ j < 32,
          let p := lktPoint l j
          let q := lktPoint t.locket j
          (lpV (lktEntry l j) = false ∨ p.state = 3 → q = p) ∧
          (lpV (lktEntry l j) = true → p.state ≠ 3 → q.state = (if p.got then 1 else 2) ∧
            q.misss = (if p.miss = true ∨ p.got = false then min (p.misss + 1) (2 ^ 32 - 1) else p.misss) ∧ q.eimp = p.eimp ∧ q.dem = p.dem)) ∧
      Completes .demandIntervalEnd s (fun t => t = { s with locket := { l with points := t.locket.points }, draws := t.draws } ∧ ∀ j < 32,
        let p := lktPoint l j
        let m := leAt (lktEntry l j) 1 1
        let ends := lpV (lktEntry l j) = true ∧ p.state ≠ 3 ∧ m ≠ 0 ∧ l.clock % (60 * m) = 0
        (¬ ends → lktPoint t.locket j = p) ∧
        (ends → ∃ d < 2 ^ 32, lktPoint t.locket j = { p with
          dem := d, dint := m, time := l.clock, dmax := max p.dmax d, dmaxt := if p.dmax < d then l.clock else p.dmaxt }))) ∧
    (∀ pts, l.final = some pts → sha256 (memRead l.fwNext.1 0 l.fwNext.2) = l.hall.fwsum → sha256 (lktParams l) = l.hall.parsum →
      Completes .locketPowerUp s (card { l with on := true, requests := [], fw := l.fwNext, points := pts, final := none })) ∧
    (sha256 (memRead l.fwNext.1 0 l.fwNext.2) ≠ l.hall.fwsum ∨ sha256 (lktParams l) ≠ l.hall.parsum →
      Completes .locketPowerUp s (fun t => t.locket.legalOk = false ∧ ∀ j < 32, (lktPoint t.locket j).state = 3)) ∧
    (s.variant = .p ∨ s.fbit SYS_UNITS_LOCKET = true → Ignored .locketCardInserted s) ∧
    (s.variant ≠ .p → s.fbit SYS_UNITS_LOCKET = false → LogRoom s → Completes .locketCardInserted s (fun t => t.fget SYS_UNITS_LOCKET = 1 ∧
      OnlyRegs [SYS_UNITS_LOCKET] { s with log := logPlus s [eventOf s SYS_UNITS_LOCKET false 3 0xFF [1]] } t)) ∧
    (s.variant = .p ∨ s.fbit SYS_UNITS_LOCKET = false → Ignored .locketCardRemoved s) ∧
    (s.variant ≠ .p → s.fbit SYS_UNITS_LOCKET = true → LogRoom s → Completes .locketCardRemoved s (fun t => t.fget SYS_UNITS_LOCKET = 0 ∧
      t = { s with regs := t.regs, locket := { l with feed := [], requests := [], responses := [] },
                   log := logPlus s [eventOf s SYS_UNITS_LOCKET false 3 0xFF [0]] } ∧
      (∀ f : Fld, f.key ≠ SYS_UNITS_LOCKET.key → (regBlock f.addr).1 ≠ 22 → f.lo < 32 → t.fget f = s.fget f) ∧
      ∀ f ∈ [LOCKET_CTL_FEEDEN, LOCKET_STAT_BUSY, LOCKET_STAT_RESP, LOCKET_MBRLEN_N], t.fget f = f.reset))

/-- The Locket card: requests over the mailbox, and what happens to it. Where the spec leaves a point open it follows the
model's choice: assumptions 156, 157, 158, 159, 160, 162. -/
def Obligations.LocketFollowsItsRules : Prop := LocketAnswersRequests ∧ LocketEvents

/-! ### Wide-area concentrator (R265 to R303) -/

/-- Frames and records for the concentrator are checked in order, each discard under its own counter; an accepted record
opens the bucket of its grid instant and is entered; the oldest bucket closes at its deadline or when complete; alarms
leave per closed bucket; table, flush, reset and enable commands; kernels start on a free analytic lane, time out and
are cancelled (R267 to R270, R274 to R280, R285, R294 to R296, R298, R299, R302, R303). Where the spec leaves a point
open it follows the model's choice: assumptions 23, 41, 133, 134, 135, 136. -/
def Obligations.ConcentratorCommands : Prop :=
  ∀ (s : State) (rq : Req) (v : Word),
    let counts := fun (k : Nat) (u t : State) => Counted (WAMS_CNT_N k) u t ∧ OnlyRegs [WAMS_CNT_N k, WAMS_CNTHALF_BITS] u t
    let offDie := fun (u : State) => { u with wams := { u.wams with offDrop := u.wams.offDrop + 1 } }
    let placed := fun (u : State) (k : Nat) (exp : Bool) (ins locs : List Nat) (t : State) =>
      t = { u with regs := t.regs, wams := t.wams, mem := t.mem, ecc := t.ecc, cecc := t.cecc, log := t.log } ∧
      ∃ o, t.wams.open_ = [o] ∧ o.key = k ∧ o.ins = ins ∧ o.locs = locs ∧ o.nexp = nexpOf u k ∧ o.narr = (if exp then 1 else 0) ∧
        o.deadline = k * secUnits / u.fget WAMS_GRID_FS + u.fget WAMS_WIN_MS * 1000000 * 65536
    let fresh := fun (u : State) (k : Nat) (exp : Bool) => u.wams.open_ = [] ∧ u.wams.lastClosed = none ∧
      (if exp then 1 else 0) < nexpOf u k ∧ u.now < k * secUnits / u.fget WAMS_GRID_FS + u.fget WAMS_WIN_MS * 1000000 * 65536
    let onGrid := fun (c : Instr) (u : State) (num den : Nat) (exp : Bool) (ins locs : List Nat) =>
      let fs := u.fget WAMS_GRID_FS
      let k := (2 * num * fs + den) / (2 * den)
      let off := ((num * fs : Nat) - (k * den : Nat) : Int).natAbs
      let early := (u.now + u.fget WAMS_GRID_LEAD * 1000000 * 65536) * den < num * secUnits
      (u.fget WAMS_GRID_TOL * den * fs < off * 1000000 → Completes c s (counts 4 u)) ∧
      (off * 1000000 ≤ u.fget WAMS_GRID_TOL * den * fs → early → Completes c s (counts 5 u)) ∧
      (off * 1000000 ≤ u.fget WAMS_GRID_TOL * den * fs → ¬ early → fresh u k exp →
        Completes c s (placed u k exp ins locs))
    let frame := fun (c : Instr) (u : State) (ring : Bool) (i : Nat) (b : List Byte) =>
      let malformed := b.length < 16 ∨ leAt b 0 1 ≠ 0xAA ∨ (leAt b 1 1 % 16 ≠ 1 ∧ leAt b 1 1 % 16 ≠ 2) ∨ beAt b 2 2 ≠ b.length
      (malformed → Completes c s (counts 1 u)) ∧
      (¬ malformed → beAt b (b.length - 2) 2 ≠ crcCcitt (b.take (b.length - 2)) → Completes c s (counts 2 u)) ∧
      (¬ malformed → beAt b (b.length - 2) 2 = crcCcitt (b.take (b.length - 2)) → leAt b 1 1 / 16 % 8 ≠ 0 →
        (ring = true → Completes c s (counts 1 u)) ∧
        (ring = false → u.fbit (WAMS_RCFG_EN 2) = false → Completes c s (counts 14 u))) ∧
      (¬ malformed → beAt b (b.length - 2) 2 = crcCcitt (b.take (b.length - 2)) → leAt b 1 1 / 16 % 8 = 0 →
        (alookup i u.wams.inputs = none → Completes c s (counts 3 u)) ∧
        (∀ e, alookup i u.wams.inputs = some e →
          (e.v = false ∨ e.cont = true ∨ (ring = true ∧ e.feed = false) → Completes c s (counts 3 u)) ∧
          (e.v = true → e.cont = false → (ring = true → e.feed = true) →
            (beAt b 4 2 ≠ e.idcode ∨ beAt b 2 2 ≠ e.fsize → Completes c s (counts 1 u)) ∧
            (beAt b 4 2 = e.idcode → beAt b 2 2 = e.fsize → ∀ bs, chainBlocks u.wams.inputs 64 i = some bs →
              ((bs.map blockLen).sum + 16 ≠ b.length → Completes c s (counts 1 u)) ∧
              ((bs.map blockLen).sum + 16 = b.length → u.fbit TB_STAT_VALID = false → Completes c s (counts 6 u)) ∧
              ((bs.map blockLen).sum + 16 = b.length → u.fbit TB_STAT_VALID = true →
                onGrid c u ((beAt b 6 4 + u.fget WAMS_UTCOFS_S) * e.timebase + beAt b 11 3) e.timebase e.exp [i] [])))))
    let stat := [WAMS_CMDSTAT_ERR, WAMS_CMDSTAT_BUSY]
    let report := fun (e : Nat) (t : State) => t.fget WAMS_CMDSTAT_ERR = e ∧ t.fget WAMS_CMDSTAT_BUSY = 1
    (takeI1 3 s = none → Ignored .c37FrameIngest s) ∧
    (∀ f u, takeI1 3 s = some (f, u) →
      (u.domOn 8 = false → exec .c37FrameIngest s = .next (offDie u)) ∧
      (u.domOn 8 = true → u.fbit WAMS_CTL_EN = false → exec .c37FrameIngest s = .next u) ∧
      (u.domOn 8 = true → u.fbit WAMS_CTL_EN = true →
        (udpAt f.bytes = none → Completes .c37FrameIngest s (counts 1 u)) ∧
        (∀ ihl, udpAt f.bytes = some ihl → frame .c37FrameIngest u false (f.target % 16384) (udpPay f.bytes ihl)))) ∧
    (s.domOn 8 = false ∨ s.fbit (WAMS_RCFG_EN 1) = false ∨ s.fget (WAMS_RHEAD_IDX 1) = s.fget (WAMS_RTAIL_IDX 1) →
      Ignored .feedRingSlot s) ∧
    (let n := 16 * 2 ^ s.fget (WAMS_RCFG_SIZE 1)
     let a := s.fget (WAMS_RBASE_ADDR 1) * 4096 + 2048 * (s.fget (WAMS_RHEAD_IDX 1) % n)
     let d := s.rd (s.canon a) 2048
     s.domOn 8 = true → s.fbit (WAMS_RCFG_EN 1) = true → s.fget (WAMS_RHEAD_IDX 1) ≠ s.fget (WAMS_RTAIL_IDX 1) →
     s.fget (WAMS_RCFG_SIZE 1) ≤ 10 → s.ecc = [] → (s.gate 0xFF a 8 false).rsp = .ok →
     ∃ u, u.fget (WAMS_RHEAD_IDX 1) = (s.fget (WAMS_RHEAD_IDX 1) % n + 1) % n ∧ OnlyRegs [WAMS_RHEAD_IDX 1] s u ∧
       (s.fbit WAMS_CTL_EN = false → exec .feedRingSlot s = .next u) ∧
       (s.fbit WAMS_CTL_EN = true →
         (2016 < leAt d 0xE 2 ∨ allZero (sliceOf d 0x10 16) = false → Completes .feedRingSlot s (counts 1 u)) ∧
         (leAt d 0xE 2 ≤ 2016 → allZero (sliceOf d 0x10 16) = true →
           frame .feedRingSlot u true (leAt d 0xC 2) (sliceOf d 32 (leAt d 0xE 2))))) ∧
    (s.sfe.conc = [] → Ignored .localRecordIngest s) ∧
    (∀ r l, s.sfe.conc = r :: l →
      let u := { s with sfe := { s.sfe with conc := l } }
      (s.domOn 8 = false → exec .localRecordIngest s = .next (offDie u)) ∧
      (s.domOn 8 = true → s.fbit WAMS_CTL_EN = false → exec .localRecordIngest s = .next u) ∧
      (s.domOn 8 = true → s.fbit WAMS_CTL_EN = true →
        ((∀ e, alookup r.srcNo s.wams.locals_ = some e → e.v = false) → Completes .localRecordIngest s (counts 3 u)) ∧
        (∀ e, alookup r.srcNo s.wams.locals_ = some e → e.v = true →
          onGrid .localRecordIngest u r.time secUnits e.exp [] [r.srcNo]))) ∧
    (s.domOn 8 = false ∨ s.fbit WAMS_CTL_EN = false ∨ s.wams.open_ = [] → Ignored .bucketDeadline s) ∧
    (∀ o l, s.wams.open_ = o :: l → s.now < o.deadline → o.complete = false → Ignored .bucketDeadline s) ∧
    (∀ o, s.domOn 8 = true → s.fbit WAMS_CTL_EN = true → s.wams.open_ = [o] → o.deadline ≤ s.now ∨ o.complete = true →
      s.wams.outputs = [] → s.wams.modals = [] → s.wams.coh.v = false → s.wams.monitors = [] → s.wams.tickets = [] →
      let seq := (s.wams.seq + 1) % 2 ^ 32
      let tag := o.key * secUnits / s.fget WAMS_GRID_FS
      let cause := if o.deadline ≤ s.now then 2 else 1
      Completes .bucketDeadline s (fun t => t.fget WAMS_LASTSEQ_SEQ = seq ∧ t.fget WAMS_LASTSLOT_CAUSE = cause ∧
        t.fget WAMS_LASTSLOT_SLOT = o.key % 128 ∧ t.fget WAMS_STAT_CLOSED = 1 ∧
        t.wams = { s.wams with
          open_ := [], slots := t.wams.slots, lastClosed := some o.key, seq := seq, resets := [],
          pend := s.wams.pend ++ [⟨tag, s.now, seq, s.wams.resets, o.epoch⟩] } ∧
        alookup (o.key % 128) t.wams.slots = some ⟨o.key, true, 0⟩ ∧
        OnlyRegs ([WAMS_LASTSEQ_SEQ, WAMS_LASTSLOT_CAUSE, WAMS_LASTSLOT_SLOT, WAMS_STAT_CLOSED] ++ faultFields)
          { s with wams := t.wams, mem := t.mem, ecc := t.ecc, cecc := t.cecc } t ∧
        ((s.gate 0xFF (slotAddr s (o.key % 128)) 8 true).rsp = .ok → s.ecc = [] → Stored s.mem t.mem (s.canon (slotAddr s (o.key % 128)))
          (slotHeader tag seq 2 cause o.nexp o.narr 0 s.now ++ bitmapBytes 2048 o.ins ++ bitmapBytes 512 o.locs)))) ∧
    (s.wams.pend = [] → Ignored .alarmFrame s) ∧
    (∀ p l, s.wams.pend = p :: l → p.recs = [] → s.wams.krecs = [] →
      let hb := s.fget WAMS_ALMCTL_HB
      let ta := s.fget WAMS_ALMTPL_ADDR * 64
      let seq := (s.wams.almSeq + 1) % 65536
      (s.fbit WAMS_CTL_ALMEN = false ∨ hb = 0 ∨ p.seq % hb ≠ 0 →
        exec .alarmFrame s = .next { s with wams := { s.wams with pend := l } }) ∧
      (s.fbit WAMS_CTL_ALMEN = true → hb ≠ 0 → p.seq % hb = 0 → s.ecc = [] → (s.gate 0xFF ta 8 false).rsp = .ok →
        ∃ u, u.fget WAMS_ALMSEQ_SEQ = seq ∧ OnlyRegs [WAMS_ALMSEQ_SEQ] { s with wams := { s.wams with pend := l, almSeq := seq } } u ∧
          exec .alarmFrame s = .next (wamsSend (fillTemplate (s.rd (s.canon ta) 64) p.seq
            ([1, 0] ++ leBytes 2 (s.wams.almSeq + 1) ++ leBytes 2 (s.fget WAMS_ALMCTL_SRCID) ++ [0, 0] ++ tripleBytes p.tag ++
              tripleBytes p.close)) (s.fget WAMS_ALMPORTS_PORTS) (s.fget WAMS_ALMCTL_TC) u))) ∧
    (∀ p l r, s.wams.pend = p :: l → p.recs = [r] → s.wams.krecs = [] → s.fbit WAMS_CTL_ALMEN = false → s.fbit (WAMS_RCFG_EN 0) = false →
      2 ≤ leAt r 1 1 → Completes .alarmFrame s (fun t => Counted (WAMS_CNT_N 14) s t ∧ t.fget WAMS_STAT_ALMOVF = 1 ∧
        OnlyRegs [WAMS_CNT_N 14, WAMS_CNTHALF_BITS, WAMS_STAT_ALMOVF] { s with wams := { s.wams with pend := l } } t)) ∧
    (WriteGranted rq 0xF0000D0000 s →
      let fields := [WAMS_CTL_KIE, WAMS_CTL_CNTIE, WAMS_CTL_CFGIE, WAMS_CTL_ALMIE, WAMS_CTL_CLOSEIE, WAMS_CTL_ALMEN, WAMS_CTL_LATEFILL,
        WAMS_CTL_EN]
      let deep := 64 < (s.fget WAMS_WIN_MS + s.fget WAMS_GRID_LEAD) * s.fget WAMS_GRID_FS / 1000 + 1
      let on := s.fbit WAMS_CTL_EN
      let en := v.getLsbD 0
      let took := fun (w : Wams) (t : State) => (∀ f ∈ fields, t.fget f = v.toNat / 2 ^ f.lo % 2 ^ f.width) ∧
        Accepted fields { s with wams := w } t
      (en = true → on = false → deep → Completes (.wamsEnable rq v) s (Refused .denied s)) ∧
      (en = true → on = false → ¬ deep → Completes (.wamsEnable rq v) s (took { s.wams with
        lastClosed := none, seq := 0, almSeq := 0 })) ∧
      (en = false → on = true → Completes (.wamsEnable rq v) s (took { s.wams with
        open_ := [], slots := s.wams.slots.filter (fun p => p.2.closed) })) ∧
      (en = on → Completes (.wamsEnable rq v) s (took s.wams))) ∧
    (WriteGranted rq 0xF0000D0028 s →
      let table := v.toNat / 2 ^ 24 % 8
      let i := v.toNat % 2 ^ 20
      let busy := s.fbit WAMS_CMDSTAT_BUSY
      (busy = true ∨ table = 7 → ∀ c ∈ [Instr.wamsUpdate rq v, .wamsFlush rq v, .detectorReset rq v], Completes c s (Refused .denied s)) ∧
      (table < 4 → Completes (.detectorReset rq v) s (Refused .denied s)) ∧
      (busy = false → table ≠ 7 → Completes (.wamsFlush rq v) s (fun t => report 0 t ∧
        Accepted stat { s with wams := { s.wams with sigs := s.wams.sigs.filter (fun p => sgLock p.2) } } t)) ∧
      (busy = false →
        (table = 4 → 255 < i → Completes (.detectorReset rq v) s (fun t => report 3 t ∧ Accepted stat s t)) ∧
        (table = 5 → 256 < i → Completes (.detectorReset rq v) s (fun t => report 3 t ∧ Accepted stat s t)) ∧
        (table = 6 → 1023 < i → Completes (.detectorReset rq v) s (fun t => report 3 t ∧ Accepted stat s t)) ∧
        (∀ m, table = 4 → i ≤ 255 → alookup i s.wams.modals = some m → Completes (.detectorReset rq v) s (fun t => report 0 t ∧
          Accepted stat { s with wams := t.wams } t ∧ ∃ m', alookup i t.wams.modals = some m' ∧ m'.per = ⟨0, false⟩ ∧ m'.hist = [] ∧
            m'.count = 0 ∧ m'.gen = m.gen ∧ m'.v = m.v ∧ m'.mems = m.mems ∧
            (m.v = true → m.alm = true → m.per.active = true → ∃ r, t.wams.resets = s.wams.resets ++ [r] ∧ leAt r 0 1 = 1 ∧ leAt r 1 1 = 3 ∧
              leAt r 2 2 = i) ∧
            (m.v = false ∨ m.alm = false ∨ m.per.active = false → t.wams.resets = s.wams.resets))) ∧
        (table = 5 → i ≤ 256 → Completes (.detectorReset rq v) s (fun t => report 0 t ∧ Accepted stat { s with wams := t.wams } t ∧
          t.wams.coh.fs = [] ∧ t.wams.coh.prevcand = [] ∧ t.wams.coh.cnt = 0 ∧
          t.wams.coh.reported = s.wams.coh.mems.map (fun m => (m.1, 0xFF)) ∧ t.wams.coh.mems = s.wams.coh.mems)) ∧
        (∀ m, table = 6 → i ≤ 1023 → alookup i s.wams.monitors = some m → Completes (.detectorReset rq v) s (fun t => report 0 t ∧
          Accepted stat { s with wams := t.wams } t ∧ alookup i t.wams.monitors = some { m with per := ⟨0, false⟩, prev := none })) ∧
        (table = 4 → i ≤ 255 → alookup i s.wams.modals = none → Completes (.detectorReset rq v) s (fun t => report 0 t ∧ Accepted stat s t)) ∧
        (table = 6 → i ≤ 1023 → alookup i s.wams.monitors = none →
          Completes (.detectorReset rq v) s (fun t => report 0 t ∧ Accepted stat s t)) ∧
        (let a := s.fget WAMS_STSRC_ADDR * 64
         let b := s.rd (s.canon a) (if table = 4 then 320 else if table = 1 then 16 else if table = 2 ∨ table = 6 then 32 else 64)
         let la := leAt b 8 4 * 64
         let res := if table = 0 then wInputUpdate s i b else if table = 1 then wLocalUpdate s i b
           else if table = 3 then wOutputUpdate s i b (s.rd (s.canon la) (64 + 16 * min (leAt b 6 2) 4096))
           else if table = 4 then wModalUpdate s i b else if table = 5 then wCohUpdate i b s.wams else wMonitorUpdate s.wams i b
         let held := if table = 0 then ((alookup i s.wams.inputs).map (·.gen)).getD 0
           else if table = 1 then ((alookup i s.wams.locals_).map (·.gen)).getD 0
           else if table = 3 then ((alookup i s.wams.outputs).map (·.gen)).getD 0
           else if table = 4 then ((alookup i s.wams.modals).map (·.gen)).getD 0
           else ((alookup i s.wams.monitors).map (·.gen)).getD 0
         table ≠ 7 → s.ecc = [] → (s.gate 0xFF a 8 false).rsp = .ok →
           (table ≠ 2 → (table = 3 → (s.gate 0xFF la 8 false).rsp = .ok) →
             (table ≠ 5 → leAt b 0 2 ≠ (held + 1) % 65536 → res.1 = 1 ∨ res.1 = 2) ∧
             (res.1 ≠ 0 → Completes (.wamsUpdate rq v) s (fun t => report res.1 t ∧ Accepted stat s t)) ∧
             (res.1 = 0 → Completes (.wamsUpdate rq v) s (fun t => report 0 t ∧
               Accepted stat { s with wams := { res.2 with epoch := s.wams.epoch + 1 } } t))) ∧
           (∀ old, table = 2 → alookup i s.wams.sigs = some old →
             (wSigErr s i b old ≠ 0 → Completes (.wamsUpdate rq v) s (fun t => report (wSigErr s i b old) t ∧ Accepted stat s t)) ∧
             (wSigErr s i b old = 0 → (s.gate 0xFF (sigAddr s i) 8 true).rsp = .ok → Completes (.wamsUpdate rq v) s (fun t => report 0 t ∧
               alookup i t.wams.sigs = some b ∧ t.wams.epoch = s.wams.epoch + 1 ∧ i ∉ t.wams.sigmis ∧
               Stored s.mem t.mem (s.canon (sigAddr s i)) b ∧
               Accepted stat { s with mem := t.mem, cecc := t.cecc, wams := t.wams } t)))))) ∧
    (∀ a : Fin 8,
      let l : Fin 52 := ⟨44 + a.val, by omega⟩
      let others := fun (t : State) => ∀ j, j ≠ l → t.lane j = s.lane j
      let fault := [WAMS_KFLT_VALID, WAMS_KFLT_KIND, WAMS_KFLT_LANE, WAMS_KFLT_CAUSE, WAMS_KFTICK_T, WAMS_STAT_KFLT]
      (s.domOn 8 = false ∨ (s.lane l).st ≠ .idle ∨ (s.lane l).gated = true ∨ (s.lane l).halted = true ∨ (s.lane l).ticket.isSome = true ∨
        s.wams.kq = [] → Ignored (.kernelActivationStart a) s) ∧
      (∀ id q k d, s.domOn 8 = true → (s.lane l).st = .idle → (s.lane l).gated = false → (s.lane l).halted = false →
        (s.lane l).ticket = none → s.wams.kq = id :: q → ticketOf s.wams id = some k → k.due = some d → k.st < 2 →
        Completes (.kernelActivationStart a) s (fun t => t = { s with lanes := t.lanes, wams := t.wams } ∧ others t ∧
          ticketOf t.wams id = some { k with st := 1, due := none } ∧ t.wams.kq = q.filter (· != id) ∧
          (t.lane l).st = .running ∧ (t.lane l).ticket = some id ∧ (t.lane l).f.pc = BitVec.ofNat 32 k.pc ∧ (t.lane l).f.status.mode = .t ∧
          (t.lane l).f.reg 30 = BitVec.ofNat 32 k.sp ∧ (t.lane l).f.reg 1 = BitVec.ofNat 32 k.arg ∧
          (k.atCloses = true → (t.lane l).f.reg 2 = BitVec.ofNat 32 d.1 ∧ (t.lane l).f.reg 3 = BitVec.ofNat 32 d.2) ∧
          (∀ r : Fin 32, r ≠ 1 → r ≠ 30 → (r = 2 ∨ r = 3 → k.atCloses = false) → (t.lane l).f.reg r = 0))) ∧
      ((s.lane l).ticket = none → Ignored (.kernelMaxtExpiry a) s) ∧
      (∀ id k, (s.lane l).ticket = some id → ticketOf s.wams id = some k → id < 2 ^ 31 → Completes (.kernelMaxtExpiry a) s (fun t =>
        t.lane l = lane0 .idle ∧ others t ∧ ticketOf t.wams id = some { k with st := 3, due := none } ∧ t.fget WAMS_KFLT_VALID = 1 ∧
        t.fget WAMS_KFLT_KIND = 2 ∧ t.fget WAMS_KFLT_LANE = a.val ∧ t.fget WAMS_KFLT_CAUSE = 0 ∧ t.fget WAMS_KFTICK_T = id ∧
        t.fget WAMS_STAT_KFLT = 1 ∧ OnlyRegs fault { s with lanes := t.lanes, wams := { s.wams with tickets := t.wams.tickets } } t))) ∧
    (WriteGranted rq 0xF0000D008C s →
      let id := v.toNat % 2 ^ 31
      let at_ := fun (k : Ticket) (t : State) => ticketOf t.wams id = some k ∧ Accepted []
        { s with wams := { s.wams with tickets := t.wams.tickets, kq := s.wams.kq.filter (· != id) } } t
      ((∀ k, ticketOf s.wams id = some k → 2 ≤ k.st) → Completes (.kernelCancel rq v) s (Accepted [] s)) ∧
      (∀ k, ticketOf s.wams id = some k → k.st < 2 →
        (laneOfTicket s id = none → Completes (.kernelCancel rq v) s (at_ { k with st := 2, due := none })) ∧
        ((laneOfTicket s id).isSome = true → Completes (.kernelCancel rq v) s (at_ { k with cancel := true }))))

/-! ### Clasp (R304 to R317) -/

/-- A Clasp port's frames meet the MAC checks, then those of R304 and R305; echo requests are answered, responses measure
the link, own frames, old frames and frames without hops are counted and dropped, a TIME frame latches a pair, and
frames for others wait at the ports of their route with one hop less and their age; echo requests and TIME frames are
queued (R304 to R307, R311, R313 to R315). Where the spec leaves a point open it follows the model's choice:
assumptions 137, 154. -/
def Obligations.ClaspFrames : Prop :=
  ∀ (s : State) (p : Fin 4) (fr : RxFrame),
    let b := fr.bytes
    let hd := fun (o n : Nat) => leAt b (14 + o) n
    let ts := rxStamp s p fr
    let len := hd 0xE 2
    let seq := hd 6 2 + 65536 * hd 0x1C 2
    let src := hd 2 2 % 512
    let dst := hd 4 2
    let dev := s.fget CLASP_DEV_NUM
    let checks : List (Bool × Fld) := [(fr.symErr, PORT_SYMERR_N p), (decide (b.length + 4 < 64), PORT_RUNT_N p),
      (decide (s.fget (PORT_MAXLEN_LEN p) < b.length + 4), PORT_LONG_N p), (!fr.fcsOk, PORT_FCSERR_N p),
      (frEt b == 0x8808, PORT_MACCTL_N p)]
    let isClasp := beAt b 12 2 = s.fget CLASP_ETYPE_ET ∧ 46 ≤ b.length ∧ b.length + 4 ≤ 768 ∧ hd 0 1 / 16 = 1 ∧
      1 ≤ hd 1 1 ∧ hd 1 1 ≤ 5 ∧ len ≤ 714 ∧ 46 + len ≤ b.length
    let received := fun (fs : List Fld) (c : Clasp → Clasp) (t : State) => Counted (PORT_RXFRM_N p) s t ∧
      t.net.oct[p.val]'(by omega) = (min ((s.net.oct[p.val]'(by omega)).1 + (b.length + 4)) (2 ^ 64 - 1), (s.net.oct[p.val]'(by omega)).2) ∧
      OnlyRegs (PORT_RXFRM_N p :: fs) { s with net := { s.net with oct := t.net.oct }, clasp := c t.clasp } t
    let counted := fun (f : Fld) (t : State) => Counted f s t ∧ received [f] (fun _ => s.clasp) t
    let raw : Int := (hd 8 4 + s.fget (CLASP_LDLY_D p) : Nat) + signedOf 16 (s.fget (CLASP_ASYM_A p))
    let age := (max 0 (min (2 ^ 32 - 1) raw)).toNat
    let mine := dst = 0xFFFF ∨ dst % 512 = dev
    let origin := fun (f : ClaspOwn) (ty tgt : Nat) (pay : List Byte) => leAt f.bytes 15 1 = ty ∧ leAt f.bytes 18 2 = tgt ∧
      leAt f.bytes 20 2 = s.clasp.seq % 65536 ∧ leAt f.bytes 42 2 = s.clasp.seq / 65536 % 65536 ∧ leAt f.bytes 28 2 = pay.length ∧
      f.bytes.drop 46 = pay ∧ f.stamp = none
    let queued := fun (ps : List Nat) (ty tgt : Nat) (pay : List Byte) (t : State) => t.clasp.seq = (s.clasp.seq + 1) % 2 ^ 32 ∧
      ∃ f, origin f ty tgt pay ∧ ∀ q : Fin 4, t.clasp.own[q] = s.clasp.own[q] ++ (if q.val ∈ ps then [f] else [])
    (portTakes s p = false ∨ claspRole s p = false → Ignored (.claspFrameReceive p fr) s) ∧
    (portTakes s p = true → claspRole s p = true →
      (∀ x, checks.find? (·.1) = some x → Completes (.claspFrameReceive p fr) s (fun t => Counted x.2 s t ∧ OnlyRegs [x.2] s t)) ∧
      (checks.find? (·.1) = none → s.fbit CLASP_CTL_EN = false → Ignored (.claspFrameReceive p fr) s) ∧
      (checks.find? (·.1) = none → s.fbit CLASP_CTL_EN = true →
        (¬ isClasp → Completes (.claspFrameReceive p fr) s (fun t => Counted CLASP_NONCLASP_N s t ∧ OnlyRegs [CLASP_NONCLASP_N] s t)) ∧
        (isClasp →
          (hd 1 1 ∉ [3, 4] → src = dev → Completes (.claspFrameReceive p fr) s (counted CLASP_OWN_N)) ∧
          (hd 1 1 ∈ [3, 4] ∨ src ≠ dev → s.fget CLASP_MAXAGE_US ≤ 4000 →
            let old := (s.fget CLASP_MAXAGE_US * 16000 : Nat) < raw
            (old → Completes (.claspFrameReceive p fr) s (counted CLASP_AGEDROP_N)) ∧
            (¬ old → hd 1 1 = 3 → Completes (.claspFrameReceive p fr) s (fun t =>
              received [] (fun c => { s.clasp with seq := c.seq, own := c.own }) t ∧
              queued [p.val] 4 src (tripleBytes ts ++ zeroBytes 12 ++ leBytes 2 dev ++ leBytes 2 seq) t)) ∧
            (∀ n t1, ¬ old → hd 1 1 = 4 → s.clasp.echo[p] = some (n, some t1) →
              let y := sliceOf b 46 len
              let who := leAt y 0x18 2
              let d : Int := ((ts : Int) - t1 - ((payTime y 12 : Int) - payTime y 0)) / 2
              (leAt y 0x1A 2 ≠ n → Completes (.claspFrameReceive p fr) s (received [] (fun _ => s.clasp))) ∧
              (leAt y 0x1A 2 = n → who ≠ dev → who < 512 → Completes (.claspFrameReceive p fr) s (fun t =>
                t.clasp.echo[p] = none ∧ t.clasp.miss[p] = 0 ∧ t.fget (CLASP_NBR_V p) = 1 ∧ t.fget (CLASP_NBR_DEV p) = who ∧
                (0 ≤ d ∧ d ≤ 1000000 * 65536 → t.fget (CLASP_LDLY_D p) = (d / 4096).toNat) ∧
                (d < 0 ∨ 1000000 * 65536 < d → t.fget CLASP_STAT_LDLYERR = 1 ∧ t.fget (CLASP_LDLY_D p) = s.fget (CLASP_LDLY_D p)) ∧
                received [CLASP_NBR_V p, CLASP_NBR_DEV p, CLASP_LDLY_D p, CLASP_STAT_LDLYERR]
                  (fun c => { s.clasp with echo := c.echo, miss := c.miss }) t)) ∧
              (leAt y 0x1A 2 = n → who = dev → LogRoom s → Completes (.claspFrameReceive p fr) s (fun t => t.fget CLASP_STAT_DUPDEV = 1 ∧
                t.log = logPlus s [eventOf s CLASP_STAT_DUPDEV false 2 0xFF [p]]))) ∧
            (¬ old → hd 1 1 ∉ [3, 4] → s.fget (CLASP_PCTL_ROLE p) ≠ 2 →
              (hd 1 1 = 2 → dst ≠ 0xFFFF → mine → src = s.fget CLASP_TM_TMASTER → s.fbit CLASP_STAT_TTNEW = false →
                Completes (.claspFrameReceive p fr) s (fun t =>
                  let m := wrapTime (payTime b 30 + age * 4096)
                  [CLASP_TTM_V 0, CLASP_TTM_V 1, CLASP_TTM_V 2].map t.fget = tripleOf m ∧
                  [CLASP_TTRX_V 0, CLASP_TTRX_V 1, CLASP_TTRX_V 2].map t.fget = tripleOf ts ∧ t.fget CLASP_STAT_TTNEW = 1 ∧
                  received [CLASP_TTM_V 0, CLASP_TTM_V 1, CLASP_TTM_V 2, CLASP_TTRX_V 0, CLASP_TTRX_V 1, CLASP_TTRX_V 2, CLASP_STAT_TTNEW]
                    (fun _ => s.clasp) t)) ∧
              (hd 1 1 = 2 → dst ≠ 0xFFFF → mine → src ≠ s.fget CLASP_TM_TMASTER ∨ s.fbit CLASP_STAT_TTNEW = true →
                Completes (.claspFrameReceive p fr) s (received [] (fun _ => s.clasp))) ∧
              (¬ mine → hd 0xC 1 = 0 → Completes (.claspFrameReceive p fr) s (counted CLASP_HOPDROP_N)) ∧
              (¬ mine → 0 < hd 0xC 1 →
                let out := fun (q : Fin 4) => q ≠ p ∧ claspRole s q = true ∧ bitOf ((alookup (dst % 512) s.clasp.routes).getD 0) q = true
                ((∀ q, ¬ out q) → Completes (.claspFrameReceive p fr) s (counted CLASP_NOROUTE_N)) ∧
                ((∃ q, out q) → Completes (.claspFrameReceive p fr) s (fun t =>
                  received [] (fun c => { s.clasp with fwd := c.fwd }) t ∧
                  ∃ x : ClaspFwd, x.ts = ts ∧ x.at_ = s.now ∧ leAt x.bytes 26 1 = hd 0xC 1 - 1 ∧ leAt x.bytes 22 4 = age ∧
                    (∀ i, i < 22 ∨ 26 < i → x.bytes.getD i 0 = b.getD i 0) ∧
                    ∀ q : Fin 4, (out q → t.clasp.fwd[q] = s.clasp.fwd[q] ++ [x]) ∧ (¬ out q → t.clasp.fwd[q] = s.clasp.fwd[q]))))) ∧
            (¬ old → hd 1 1 ∉ [3, 4] → s.fget (CLASP_PCTL_ROLE p) = 2 → dst ≠ 0xFFFF → mine → ∀ at_, (src, seq, at_) ∈ s.clasp.dups →
              s.now < at_ + (s.fget CLASP_MAXAGE_US + 10) * 1000 * 65536 → Completes (.claspFrameReceive p fr) s (fun t =>
                Counted CLASP_DUPDISC_N s t ∧ received [CLASP_DUPDISC_N] (fun c => { s.clasp with dups := c.dups }) t)))))) ∧
    (s.fbit CLASP_CTL_EN = false ∨ claspRole s p = false ∨ s.fbit CLASP_STAT_DUPDEV = true → Ignored (.echoRequestSend p) s) ∧
    (s.fbit CLASP_CTL_EN = true → claspRole s p = true → s.fbit CLASP_STAT_DUPDEV = false →
      let missed := s.clasp.echo[p].isSome
      Completes (.echoRequestSend p) s (fun t => queued [p.val] 3 0xFFFF (leBytes 2 s.clasp.seq) t ∧
        t.clasp.echo[p] = some (s.clasp.seq % 65536, none) ∧ t.clasp.miss[p] = (if missed then s.clasp.miss[p] + 1 else 0) ∧
        (missed = true ∧ 2 ≤ s.clasp.miss[p] → t.fget CLASP_STAT_LDLYERR = 1) ∧
        OnlyRegs (if missed = true ∧ 2 ≤ s.clasp.miss[p] then [CLASP_STAT_LDLYERR] else [])
          { s with clasp := { s.clasp with seq := t.clasp.seq, own := t.clasp.own, echo := t.clasp.echo, miss := t.clasp.miss } } t)) ∧
    (let sends := s.fbit CLASP_CTL_EN = true ∧ s.fbit CLASP_CTL_TTEN = true ∧ s.fbit CLASP_STAT_DUPDEV = false ∧
       dev = s.fget CLASP_TM_TMASTER
     (¬ sends → Ignored .timeFrameSend s) ∧
     (sends → Completes .timeFrameSend s (fun t => queued ((List.range 4).filter (claspRole s)) 2 0xFFFF [] t ∧
       t = { s with clasp := { s.clasp with seq := t.clasp.seq, own := t.clasp.own } })))

/-! ### Virtual protection instances (R318 to R331, R335) -/

/-- The commands of VPI_CMD with their codes: entries are checked and installed; START puts the kernel's context on its
lane; FREEZE, THAW and RESET move an instance between its states; freezes and resets complete by their own commands; a
share change ends at the switch ingress (R318 to R322, R325, R327 to R329, R331, R335). Where the spec leaves a point
open it follows the model's choice: assumptions 138, 139, 141, 142. -/
def Obligations.InstanceCommands : Prop :=
  ∀ (s : State) (rq : Req) (i : Nat),
    let k := i % 8192
    let x := s.vpi k
    let stat := [VPI_CMDSTAT_ERR, VPI_CMDSTAT_BUSY]
    let report := fun (e : Nat) (t : State) => t.fget VPI_CMDSTAT_ERR = e ∧ t.fget VPI_CMDSTAT_BUSY = 1
    let fails := fun (c : Instr) (e : Nat) => Completes c s (fun t => report e t ∧ Accepted stat s t)
    let others := fun (n : Nat) (t : State) => ∀ j, j ≠ n → t.vpi j = s.vpi j
    let noneIdle := ∀ l, isCluster l = true → (s.lane l).st ≠ .idle
    (WriteGranted rq 0xF00015000C s →
      (s.fbit VPI_CMDSTAT_BUSY = true ∨ s.fbit VPI_TXSTAT_BUSY = true →
        ∀ c ∈ [Instr.vpiUpdate rq i, .pubupd rq i, .subupd rq i, .startVpi rq i, .freeze rq i, .thaw rq i, .resetVpi rq i],
          Completes c s (Refused .denied s)) ∧
      (s.fbit VPI_CMDSTAT_BUSY = false → s.fbit VPI_TXSTAT_BUSY = false →
        (63 < k → ∀ c ∈ [Instr.startVpi rq i, .freeze rq i, .thaw rq i, .resetVpi rq i], fails c 3) ∧
        (k ≤ 63 →
          (x.st ≠ .ready → fails (.startVpi rq i) 8) ∧ (x.st ≠ .run → fails (.freeze rq i) 8) ∧
          (x.st ≠ .frozen → fails (.thaw rq i) 8) ∧ (x.st = .off ∨ x.st = .resetting → fails (.resetVpi rq i) 8) ∧
          (vpiInFo s k = true → (x.st = .run → fails (.freeze rq i) 10) ∧ (x.st = .frozen → fails (.thaw rq i) 10) ∧
            (x.st = .run → fails (.resetVpi rq i) 10))) ∧
        (∀ l, k ≤ 63 → x.st = .ready → kernelLane s x.ent = some l → vpiInFo s k = false →
          (s.domOn (laneGroup l) = false → fails (.startVpi rq i) 8) ∧
          (s.domOn (laneGroup l) = true →
            let kernel := fun (b : Bank) => b.pc = BitVec.ofNat 32 x.ent.kpc ∧ b.reg 30 = BitVec.ofNat 32 x.ent.ksp ∧
              b.reg 1 = BitVec.ofNat 32 k ∧ (∀ r : Fin 32, r ≠ 1 → r ≠ 30 → b.reg r = 0) ∧ b.vmid = BitVec.ofNat 8 k ∧
              b.status.mode = .k ∧ b.status.ie = false
            let ran := fun (t : State) => report 0 t ∧ (t.vpi k) = { x with st := .run } ∧ others k t ∧ (∀ j, j ≠ l → t.lane j = s.lane j) ∧
              Accepted stat { s with vpis := t.vpis, lanes := t.lanes } t
            ((s.lane l).st ≠ .idle → Completes (.startVpi rq i) s (fun t => ran t ∧ ∃ c : Ctx, c.vmid = k ∧ c.task = none ∧ c.started = true ∧
              c.waiting = false ∧ kernel c.bank ∧ c.k.st1root = BitVec.ofNat 32 x.ent.kst1 ∧ c.k.asid = 0 ∧
              t.lane l = { s.lane l with ctxs := (s.lane l).ctxs.filter (fun d => !(d.vmid == k && d.task == none)) ++ [c] })) ∧
            ((s.lane l).st = .idle → (s.lane l).halted = false → (s.lane l).retired = false → (s.lane l).inG = false →
              (s.lane l).out = none → (s.lane l).ctxs = [] → (s.lane l).cur = none → (s.lane l).f.sbuf = [] → laneBudget s l < 2 →
              (s.lane l).arb2.cursor = k → 1 ≤ nth (s.lane l).arb2.deficit k → isCluster l = true →
              Completes (.startVpi rq i) s (fun t => ran t ∧ (t.lane l).st = .running ∧ (t.lane l).cur = some (k, none) ∧ kernel (t.lane l).f ∧
                (t.lane l).k.st1root = BitVec.ofNat 32 x.ent.kst1 ∧ (t.lane l).k.st2root = BitVec.ofNat 32 x.ent.st2 ∧
                (t.lane l).k.asid = 0)))) ∧
        (k ≤ 63 → x.st = .run → vpiInFo s k = false → Completes (.freeze rq i) s (fun t => report 0 t ∧
          t.vpi k = { x with freezing := true } ∧ others k t ∧ Accepted stat { s with vpis := t.vpis } t)) ∧
        (k ≤ 63 → x.st = .frozen → vpiInFo s k = false → noneIdle → Completes (.thaw rq i) s (fun t => report 0 t ∧
          t.vpi k = { x with st := .run } ∧ others k t ∧ Accepted stat { s with vpis := t.vpis } t)) ∧
        (k ≤ 63 → x.st ≠ .off → x.st ≠ .resetting → vpiInFo s k = false → noneIdle → vpiTasks s k = [] →
          (∀ l, isCluster l = true → ∀ c, (s.lane l).cur ≠ some (k, c)) → (∀ y ∈ s.wams.tickets, y.vmid ≠ k) →
          s.fget (TXRING_TAIL_IDX k) < 4096 → Completes (.resetVpi rq i) s (fun t => report 0 t ∧
            t.vpi k = { x with st := .resetting, igen := (x.igen + 1) % 256, freezing := false } ∧ others k t ∧
            (∀ l, t.lane l = if isCluster l then { s.lane l with ctxs := (s.lane l).ctxs.filter (fun c => c.vmid != k) } else s.lane l) ∧
            t.wams = { s.wams with krecs := s.wams.krecs.filter (fun r => r.1 != k) } ∧
            (∀ p q, p < 15 → q < 7 → t.queue p q = (s.queue p q).filter (fun h => (s.buf h).all (fun f => f.owner != k))) ∧
            (∀ p, p < 15 → t.queue p 7 = s.queue p 7) ∧ t.net.missq = s.net.missq.filter (fun f => f.owner != k) ∧
            t.fget (RXRING_CFG_EN k) = 0 ∧ t.fget (TXRING_CFG_EN k) = 0 ∧ t.fget (TXRING_HEAD_IDX k) = s.fget (TXRING_TAIL_IDX k) ∧
            OnlyRegs (stat ++ [RXRING_CFG_EN k, TXRING_CFG_EN k, TXRING_HEAD_IDX k, SELF_RSTDROP_N k]) { s with
              vpis := t.vpis, lanes := t.lanes, wams := t.wams, net := t.net, tb := t.tb, resp := .ok, rdata := 0 } t)) ∧
        (let a := s.fget VPI_STSRC_ADDR * 64
         s.ecc = [] → (s.gate 0xFF a 8 false).rsp = .ok →
          (let b := s.rd (s.canon a) 64
           let e := parseVpi b
           let err := vpiErr s k b
           (vpiRangeBad b = true → fails (.vpiUpdate rq i) 1) ∧
           (vpiRangeBad b = false → e.gen ≠ (x.ent.gen + 1) % 65536 → fails (.vpiUpdate rq i) 2) ∧
           (vpiRangeBad b = false → e.gen = (x.ent.gen + 1) % 65536 → 63 < k → fails (.vpiUpdate rq i) 3) ∧
           (err ≠ 0 → fails (.vpiUpdate rq i) err) ∧
           (err = 0 → Completes (.vpiUpdate rq i) s (fun t => report 0 t ∧ others k t ∧ Accepted stat { s with vpis := t.vpis } t ∧
             ∃ w, t.vpi k = { x with ent := e, oldW := w, st := if e.v = false then .off else if x.st = .off then .ready else x.st } ∧
               (w.isSome = true ↔ x.ent.v = true ∧ e.v = true ∧ x.oldW.getD x.ent.w ≠ e.w ∧ e.cells ≤ s.net.occupancy k)))) ∧
          (let b := s.rd (s.canon a) 64
           let e := parsePub b
           let tpl := s.rd (s.canon (a + 64)) (min e.tlen 1518)
           let err := (pubUpdateOp k s).1
           ((s.gate 0xFF (a + 64) 8 false).rsp = .ok →
             (pubRangeBad b = true → fails (.pubupd rq i) 1) ∧
             (pubRangeBad b = false → e.gen ≠ (((s.pub k).map (·.gen)).getD 0 + 1) % 65536 → fails (.pubupd rq i) 2) ∧
             (err ≠ 0 → fails (.pubupd rq i) err) ∧
             (err = 0 → e.v = true → (∀ q, s.pub k = some q → q.v = false) → Completes (.pubupd rq i) s (fun t => report 0 t ∧
               Stored s.pubMem t.pubMem (e.tpl * 64) tpl ∧ Accepted stat { s with pubs := t.pubs, pubMem := t.pubMem } t ∧
               ∃ utc, t.pub k = some { e with held := sliceOf tpl e.dofs e.dlen, stNum := e.stinit, utc := utc })) ∧
             (∀ q, err = 0 → e.v = true → s.pub k = some q → q.v = true → e.dlen = q.dlen → Completes (.pubupd rq i) s (fun t => report 0 t ∧
               Stored s.pubMem t.pubMem (e.tpl * 64) tpl ∧ Accepted stat { s with pubs := t.pubs, pubMem := t.pubMem } t ∧
               t.pub k = some { e with held := q.held, stNum := q.stNum, sqNum := q.sqNum, utc := q.utc, sched := q.sched })) ∧
             (err = 0 → e.v = false → Completes (.pubupd rq i) s (fun t => report 0 t ∧ t.pub k = some e ∧
               Accepted stat { s with pubs := t.pubs } t)))) ∧
          (let b := s.rd (s.canon a) 32
           let e := parseSub b
           let err := (subUpdateOp k s).1
           (subRangeBad b = true → fails (.subupd rq i) 1) ∧
           (subRangeBad b = false → e.gen ≠ (((alookup k s.subs).map (·.gen)).getD 0 + 1) % 65536 → fails (.subupd rq i) 2) ∧
           (err ≠ 0 → fails (.subupd rq i) err) ∧
           (err = 0 → Completes (.subupd rq i) s (fun t => report 0 t ∧ alookup k t.subs = some e ∧
             Accepted stat { s with subs := t.subs } t)))))) ∧
    (∀ v : Fin 64,
      let y := s.vpi v
      let owned := fun (l : Fin 52) => ∃ c, (s.lane l).cur = some (v.val, c)
      let busy := ∃ l, isCluster l = true ∧ owned l ∧ (s.lane l).out.isSome = true
      let frozen := fun (t : State) => t.vpi v = { y with st := .frozen, freezing := false } ∧ others v t ∧ t.fget VPI_STAT_FRZDONE = 1 ∧
        t.fget VPI_CMDSTAT_BUSY = 0 ∧ OnlyRegs [VPI_STAT_FRZDONE, VPI_CMDSTAT_BUSY] { s with vpis := t.vpis, lanes := t.lanes } t
      (y.freezing = false ∨ busy → Ignored (.freezeDone v) s) ∧
      (y.freezing = true → noneIdle → (∀ l, isCluster l = true → ¬ owned l) →
        Completes (.freezeDone v) s (fun t => frozen t ∧ t.lanes = s.lanes)) ∧
      (∀ l, y.freezing = true → noneIdle → isCluster l = true → (s.lane l).cur = some (v.val, none) →
        (∀ j, isCluster j = true → j ≠ l → ¬ owned j) → (s.lane l).st = .running → (s.lane l).inG = false → (s.lane l).out = none →
        (s.lane l).f.sbuf = [] → (s.lane l).ctxs = [] → Completes (.freezeDone v) s (fun t => frozen t ∧
          (∀ j, j ≠ l → t.lane j = s.lane j) ∧ ∃ c : Ctx, c.vmid = v.val ∧ c.task = none ∧ c.bank = (s.lane l).f ∧ c.k = (s.lane l).k ∧
            (t.lane l).ctxs = [c] ∧ (t.lane l).cur = none ∧ (t.lane l).st = .idle)) ∧
      (y.st ≠ .resetting → Ignored (.vpiResetDone v) s) ∧
      (y.st = .resetting → LogRoom s → Completes (.vpiResetDone v) s (fun t => t.vpi v = { y with st := .ready } ∧ others v t ∧
        t.fget VPI_STAT_RSTDONE = 1 ∧ t.fget VPI_CMDSTAT_BUSY = 0 ∧ OnlyRegs [VPI_STAT_RSTDONE, VPI_CMDSTAT_BUSY]
          { s with vpis := t.vpis, log := logPlus s [eventOf s VPI_STAT_RSTDONE true 6 v [v.val]] } t)) ∧
      (y.oldW = none ∨ y.ent.cells ≤ s.net.occupancy v → Ignored (.shareIngressSwitch v) s) ∧
      (y.oldW.isSome = true → s.net.occupancy v < y.ent.cells → Completes (.shareIngressSwitch v) s (fun t =>
        t.vpi v = { y with oldW := none } ∧ others v t ∧ t = { s with vpis := t.vpis })))

/-- A published frame is sent again when its interval has passed; a message for a subscription is checked, counted under
the first check it fails, or written as one consistency group; after its time to live the group is written once more
as expired (R323, R325, R328). Where the spec leaves a point open it follows the model's choice: assumptions 41, 140. -/
def Obligations.GooseIsPublishedAndReceived : Prop :=
  ∀ (s : State) (i : Nat),
    let dest := fun (e : Sub) => 0x4100000000 + 0x100000 * e.cluster + 0x20000 * e.lane + 0x10000 + e.dofs
    let lane := fun (e : Sub) => clusterLane (s.groupOf e.cluster) e.lane
    let wrote := fun (e : Sub) (block : List Byte) (u t : State) => t = { u with
        subs := t.subs, mem := t.mem, cecc := t.cecc, lanes := t.lanes } ∧
      Stored s.mem t.mem (s.canon (dest e)) block ∧ (∀ j, j ≠ lane e → t.lane j = s.lane j) ∧
      t.lane (lane e) = { s.lane (lane e) with cgroups := (t.lane (lane e)).cgroups }
    let ready := fun (e : Sub) => e.cluster < 5 ∧ s.ecc = [] ∧ (s.gate e.vmid (dest e) 8 true).rsp = .ok
    ((∀ p, s.pub i = some p → p.v = false ∨ p.sched = none ∨ ∃ iv due, p.sched = some (iv, due) ∧ s.now < due) →
      Ignored (.gooseRetransmit i) s) ∧
    (∀ p iv due, s.pub i = some p → p.v = true → p.sched = some (iv, due) → due ≤ s.now →
      let n := min (2 * iv) (p.tmax * 1000)
      let p' := { p with sqNum := if p.sqNum = 0xFFFFFFFF then 1 else p.sqNum + 1, sched := some (n, due + n * 1000 * 65536) }
      exec (.gooseRetransmit i) s = .next (pubSend i p' n (s.setPub i p'))) ∧
    (s.domOn 5 = false ∨ takeI1 2 s = none → Ignored .gooseSubscribe s) ∧
    (∀ f u, s.domOn 5 = true → takeI1 2 s = some (f, u) →
      ((∀ e, alookup f.target s.subs = some e → e.v = false) → exec .gooseSubscribe s = .next u) ∧
      (∀ e, alookup f.target s.subs = some e → e.v = true →
        let counted := fun (c : Fld) => Completes .gooseSubscribe s (fun t => Counted c s t ∧ OnlyRegs [c] u t)
        (apduElems 0x61 f.bytes = none → counted VPI_GPARSE_N) ∧
        (∀ l, apduElems 0x61 f.bytes = some l →
          (berU32 0x81 l = none ∨ berU32 0x85 l = none ∨ berU32 0x86 l = none ∨ berU32 0x88 l = none ∨ berFind 0xAB l = none →
            counted VPI_GPARSE_N) ∧
          (∀ tal st sq rev data, berU32 0x81 l = some tal → berU32 0x85 l = some st → berU32 0x86 l = some sq →
            berU32 0x88 l = some rev → berFind 0xAB l = some data →
            let sim := bitOf (beAt (frPay f.bytes) 4 2) 15
            (rev ≠ e.confRev → counted VPI_GCONF_N) ∧
            (rev = e.confRev → e.dlen < data.length → counted VPI_GLEN_N) ∧
            (rev = e.confRev → data.length ≤ e.dlen → sim = true → e.sim = false → counted VPI_GPARSE_N) ∧
            (rev = e.confRev → data.length = e.dlen → (sim = true → e.sim = true) →
              (f.owner < 64 → f.igen ≠ s.igen f.owner → Completes .gooseSubscribe s (fun t => Counted (SELF_FENCED_N f.owner) s t ∧
                OnlyRegs [SELF_FENCED_N f.owner] { u with subs := t.subs } t)) ∧
              (f.owner = e.vmid → (f.owner < 64 → f.igen = s.igen f.owner) → ready e →
                let flags := (if berBool 0x87 l then 1 else 0) + (if sim then 2 else 0) + (if berBool 0x89 l then 4 else 0)
                let block := tripleBytes f.ts ++ leBytes 4 st ++ leBytes 4 sq ++ leBytes 4 tal ++ leBytes 2 flags ++
                  leBytes 2 data.length ++ [0, 0, 0, 0] ++ data
                Completes .gooseSubscribe s (fun t => wrote e block u t ∧ alookup f.target t.subs =
                  some { e with last := some (block, f.ts + tal * 1000000 * 65536, f.igen) }))))))) ∧
    ((∀ e, alookup i s.subs = some e → e.v = false ∨ e.last = none ∨ s.domOn 5 = false ∨
      ∃ b due ig, e.last = some (b, due, ig) ∧ s.now < due) → Ignored (.gooseTalExpiry i) s) ∧
    (∀ e b due ig, alookup i s.subs = some e → e.v = true → e.last = some (b, due, ig) → due ≤ s.now → s.domOn 5 = true →
      (e.vmid < 64 → ig = s.igen e.vmid) → ready e → 32 ≤ b.length → Completes (.gooseTalExpiry i) s (fun t =>
        alookup i t.subs = some { e with last := none } ∧ ∃ b', wrote e b' s t ∧ b'.length = b.length ∧
          leAt b' 0x18 2 = leAt b 0x18 2 ||| 8 ∧ ∀ o, o < 0x18 ∨ 0x19 < o → b'.getD o 0 = b.getD o 0))

/-! ### Event log (R384 to R392, R400) -/

/-- The oldest event is merged into the newest record of its partition and class, or stored with the next numbers, or lost
when there is no room; views latch the record that FIRST, NEXT, SEEK and RELATCH name, RELEASE frees records, and a
post enters the queue (R384, R387, R389 to R391, R400). Where the spec leaves a point open it follows the model's
choice: assumptions 109, 110, 111, 112. -/
def Obligations.EventLogKeepsItsRules : Prop :=
  ∀ (s : State) (rq : Req) (self : Bool),
    (s.log.queue = [] ∨ s.fbit EVREC_STAT_READY = false → Ignored .eventRecordWrite s) ∧
    (∀ e q, s.log.queue = e :: q → s.fbit EVREC_STAT_READY = true → nsnap s e = 0 → e.part < 65 →
      let like := fun (r : EvRec) => repeats s e r = true
      let fresh := ∀ k r, newestRec s e.part e.clsP = some (k, r) → ¬ like r
      let rest := fun (t : State) => t = { s with regs := t.regs, log := { s.log with queue := q, slots := t.log.slots, parts := t.log.parts } } ∧
        ∀ p, p < 65 → p ≠ e.part → t.part p = s.part p
      let seq := s.fget EVREC_SEQ_NEXT
      let pseq := if e.clsP then (s.part e.part).nextP else (s.part e.part).nextO
      let numbered := fun (t : State) => t.fget EVREC_SEQ_NEXT = (if (seq + 1) % 2 ^ 32 = 0 then 1 else seq + 1) ∧
        (if e.clsP then (t.part e.part).nextP else (t.part e.part).nextO) = (pseq + 1) % 2 ^ 32
      let record := fun (r : EvRec) => r.ts = e.ts ∧ r.seq = seq ∧ r.pseq = pseq ∧ r.code = e.code ∧ r.clsP = e.clsP ∧ r.sev = e.sev ∧
        r.sw = e.sw ∧ r.snap = false ∧ r.tsinv = e.tsinv ∧ r.hasSnap = false ∧ r.vmid = e.vmid ∧ r.part = e.part ∧ r.orig = e.orig ∧
        r.rpt = 0 ∧ r.lastW = tripleOf e.ts ∧ r.args = e.args
      let sorted := s.log.slots.Pairwise (fun a b => a.1 < b.1)
      let written := fun (t : State) => rest t ∧ numbered t ∧ ∃ k r, alookup k t.log.slots = some r ∧ record r ∧
        (k < 16384 ↔ e.clsP = true) ∧ alookup k s.log.slots = none ∧ ∀ j, j ≠ k → alookup j t.log.slots = alookup j s.log.slots
      let replaced := fun (v : Nat × EvRec) (t : State) => rest t ∧ numbered t ∧ ∃ k r, alookup k t.log.slots = some r ∧ record r ∧
        ∀ y ∈ s.log.slots, y.1 ≠ v.1 → y.1 ≠ k ∧ alookup y.1 t.log.slots = some y.2
      let placed := seq < 2 ^ 32 ∧ sorted ∧ (e.clsP = true → (s.log.slots.filter (fun x => decide (x.1 < 16384))).length < 16384)
      (∀ k r, newestRec s e.part e.clsP = some (k, r) → like r → Completes .eventRecordWrite s (fun t => rest t ∧
        alookup k t.log.slots = some { r with rpt := min (r.rpt + 1) 65535, lastW := tripleOf e.ts, at_ := s.now } ∧
        t.log.parts = s.log.parts ∧ t.fget EVREC_SEQ_NEXT = seq ∧ (∀ j, j ≠ k → alookup j t.log.slots = alookup j s.log.slots))) ∧
      (fresh → 0 < logRoom s e.part e.clsP → placed → (e.clsP = false → e.part < 64 → logQuota s e.part false ≠ 0) →
        Completes .eventRecordWrite s written) ∧
      (∀ v, fresh → e.clsP = false → placed → logQuota s e.part false = (logRecs s e.part false).length →
        logQuota s e.part false ≠ 0 → clsUsed s false ≤ 49152 → victim s e.part e.sev = some v →
        (∀ y ∈ s.log.slots, snapOfRec v.2 y.2 = false) → Completes .eventRecordWrite s (replaced v)) ∧
      (fresh → e.clsP = true → logRoom s e.part true ≤ 0 → Completes .eventRecordWrite s (fun t => rest t ∧ t.log.slots = s.log.slots ∧
        t.part e.part = { s.part e.part with lostP := min ((s.part e.part).lostP + 1) (2 ^ 32 - 1), fullP := true })) ∧
      (fresh → e.clsP = false → logRoom s e.part false ≤ 0 → victim s e.part e.sev = none → Completes .eventRecordWrite s (fun t =>
        rest t ∧ t.log.slots = s.log.slots ∧
        t.part e.part = { s.part e.part with lostO := min ((s.part e.part).lostO + 1) (2 ^ 32 - 1) }))) ∧
    (let vi := viewOf rq self s
     let base := if self then 0xF0000FC000 else 0xF0000F1000
     let sel := s.log.slots.filter (fun x => x.2.part == viewPart s vi && x.2.clsP == s.fbit (VIEW_SEL_CLS vi))
     let commands := [Instr.viewFirst rq self, .viewNext rq self, .viewSeek rq self, .viewRelatch rq self, .viewRelease rq self]
     let status := [VIEW_STAT_VALID vi, VIEW_STAT_END vi, VIEW_STAT_GAP vi, VIEW_STAT_CHG vi]
     let latched := fun (t : State) => Accepted status { s with log := { s.log with views := t.log.views } } t ∧
       (∀ j, j < 65 → j ≠ vi → t.view j = s.view j) ∧ t.fget (VIEW_STAT_CHG vi) = 0
     let nothing := fun (t : State) => latched t ∧ t.fget (VIEW_STAT_VALID vi) = 0 ∧ t.fget (VIEW_STAT_END vi) = 1 ∧
       t.fget (VIEW_STAT_GAP vi) = 0 ∧ (t.view vi).win = List.replicate 16 0
     let found := fun (x : Nat × EvRec) (gap : Nat) (t : State) => latched t ∧ t.fget (VIEW_STAT_VALID vi) = 1 ∧
       t.fget (VIEW_STAT_END vi) = 0 ∧ t.fget (VIEW_STAT_GAP vi) = gap ∧ t.view vi = ⟨some x.1, x.2.pseq, x.2.words⟩
     let seeks := fun (c : Instr) (n : Nat) (gap : EvRec → Nat) =>
       ((∀ x ∈ sel, x.2.pseq < n) → Completes c s nothing) ∧
       (∀ x ∈ sel, n ≤ x.2.pseq → (∀ y ∈ sel, n ≤ y.2.pseq → y ≠ x → x.2.pseq < y.2.pseq) → Completes c s (found x (gap x.2)))
     vi < 65 →
     (WriteGranted rq (base + 4) s →
       (viewOpen s vi = false → ∀ c ∈ commands, Completes c s (Refused .denied s)) ∧
       (viewOpen s vi = true →
         seeks (.viewFirst rq self) 0 (fun _ => 0) ∧
         seeks (.viewNext rq self) ((s.view vi).pseq + 1) (fun r => if r.pseq = (s.view vi).pseq + 1 then 0 else 1) ∧
         seeks (.viewSeek rq self) (s.fget (VIEW_ARG_V vi)) (fun _ => 0) ∧
         ((∀ x ∈ sel, (s.view vi).slot ≠ some x.1) → Completes (.viewRelatch rq self) s nothing) ∧
         (∀ x ∈ sel, (s.view vi).slot = some x.1 → (∀ y ∈ sel, y.1 = x.1 → y = x) → Completes (.viewRelatch rq self) s (found x 0)) ∧
         (let gone := sel.filter (fun x => decide (x.2.pseq ≤ s.fget (VIEW_ARG_V vi)))
          s.log.slots.Pairwise (fun a b => a.1 < b.1) → Completes (.viewRelease rq self) s (fun t =>
            t = { s with regs := t.regs, resp := .ok, rdata := 0, log := { s.log with slots := t.log.slots, parts := t.log.parts } } ∧
            (∀ x ∈ gone, alookup x.1 t.log.slots = none) ∧
            (∀ x ∈ s.log.slots, x ∉ gone → (∀ g ∈ gone, snapOfRec g.2 x.2 = false) → alookup x.1 t.log.slots = some x.2) ∧
            (s.fbit (VIEW_SEL_CLS vi) = true → gone ≠ [] → (t.part (viewPart s vi)).fullP = false) ∧
            (gone = [] → t.log = s.log))))) ∧
     (WriteGranted rq (base + 0x34) s → ∀ v : Word,
       (viewOpen s vi = false → Completes (.viewPost rq self v) s (Refused .denied s)) ∧
       (viewOpen s vi = true → LogRoom s → Completes (.viewPost rq self v) s (Accepted [] { s with
         log := logPlus s [{
           clsP := v.getLsbD 13, sev := v.toNat / 1024 % 8, code := 0x3F * 1024 + v.toNat % 1024, vmid := if vi < 64 then vi else 0xFF,
           part := vi, sw := true, orig := rq.id % 256, tsinv := !s.fbit TB_STAT_VALID, ts := s.now,
           args := [s.fget (VIEW_ARGS_V vi 0), s.fget (VIEW_ARGS_V vi 1), s.fget (VIEW_ARGS_V vi 2), s.fget (VIEW_ARGS_V vi 3),
             s.fget (VIEW_ARGS_V vi 4)] }] }))))

/-! ### Keys and life cycle (R419 to R428, R433 to R435) -/

/-- The key-store commands with their codes: WRITE, DERIVE, INVALIDATE, SETLINK; every one clears KEY_DATA. Re-masking changes no
key; a failed health test shows and stops the random source (R423 to R428). -/
def Sys2Proof.Machine.KeyStoreCommands : Prop :=
  ∀ (s : State) (rq : Req) (v : Word),
    let k := v.toNat % 64
    let data := [KEY_DATA_V 0, KEY_DATA_V 1, KEY_DATA_V 2, KEY_DATA_V 3, KEY_DATA_V 4, KEY_DATA_V 5, KEY_DATA_V 6, KEY_DATA_V 7]
    let stat := KEY_CMDSTAT_ERR :: KEY_CMDSTAT_BUSY :: data
    let done := fun (e : Nat) (t : State) => t.fget KEY_CMDSTAT_ERR = e ∧ t.fget KEY_CMDSTAT_BUSY = 1 ∧ ∀ f ∈ data, t.fget f = 0
    let fails := fun (c : Instr) (e : Nat) => Completes c s (fun t => done e t ∧ Accepted stat s t)
    let valid := fun (j : Nat) => j < 64 ∧ s.fbit (KEY_ATTR_V j) = true
    let attr := fun (j : Nat) => [KEY_ATTR_V j, KEY_ATTR_LOCKED j, KEY_ATTR_ORIGIN j, KEY_ATTR_TXNEXT j, KEY_ATTR_ALG j, KEY_ATTR_UTX j,
      KEY_ATTR_URX j, KEY_ATTR_UKDF j, KEY_ATTR_NEXT j, KEY_ATTR_NEXTV j, KEY_ATTR_PARENT j]
    let made := fun (value origin parent : Nat) (t : State) => done 0 t ∧ t.key k = value ∧ (∀ j, j ≠ k → t.key j = s.key j) ∧
      t.fget (KEY_ATTR_V k) = 1 ∧ t.fget (KEY_ATTR_ORIGIN k) = origin ∧ t.fget (KEY_ATTR_PARENT k) = parent ∧
      t.fget (KEY_ATTR_ALG k) = s.fget KEY_NEWATTR_ALG ∧ t.fget (KEY_ATTR_UTX k) = s.fget KEY_NEWATTR_UTX % 2 ∧
      t.fget (KEY_ATTR_URX k) = s.fget KEY_NEWATTR_URX % 2 ∧ t.fget (KEY_ATTR_UKDF k) = s.fget KEY_NEWATTR_UKDF % 2 ∧
      t.fget (KEY_ATTR_LOCKED k) = s.fget (KEY_ATTR_LOCKED k) ∧ t.fget (KEY_ATTR_TXNEXT k) = 0 ∧ t.fget (KEY_ATTR_NEXT k) = 0 ∧
      t.fget (KEY_ATTR_NEXTV k) = 0 ∧
      Accepted (stat ++ attr k) { s with keys := t.keys, draws := t.draws, sec := { s.sec with masks := t.sec.masks } } t
    (WriteGranted rq 0xF000070008 s →
      (s.fbit KEY_CMDSTAT_BUSY = true → ∀ c ∈ [Instr.writeKey rq v, .derive rq v, .invalidate rq v, .setlink rq v],
        Completes c s (Refused .denied s)) ∧
      (s.fbit KEY_CMDSTAT_BUSY = false →
        (valid k → fails (.writeKey rq v) 1 ∧ fails (.derive rq v) 1) ∧
        (¬ valid k → 6 ≤ s.fget KEY_NEWATTR_ALG → fails (.writeKey rq v) 4) ∧
        (¬ valid k → s.fget KEY_NEWATTR_ALG < 6 → Completes (.writeKey rq v) s (made (beVal (data.flatMap (fun f => leBytes 4 (s.fget f)))) 1 0x7F)) ∧
        (let p := v.toNat / 256 % 128
         let root := p = 64 ∧ s.sec.fuseRoot.isSome = true ∧ (s.sec.life = 1 ∨ (s.sec.life = 2 ∧ s.fbit LIFE_STAT_DBG = false))
         let test := p = 65 ∧ (s.sec.life = 0 ∨ s.sec.life = 1 ∨ s.sec.life = 3)
         let slot := valid p ∧ s.fbit (KEY_ATTR_UKDF p) = true
         let label := [KEY_LABEL_V 0, KEY_LABEL_V 1, KEY_LABEL_V 2, KEY_LABEL_V 3].flatMap (fun f => leBytes 4 (s.fget f))
         let ctx := [KEY_CTX_V 0, KEY_CTX_V 1, KEY_CTX_V 2, KEY_CTX_V 3].flatMap (fun f => leBytes 4 (s.fget f))
         let derived := fun (parent : Nat) =>
           hmacSha256 (beBytes 32 parent) ([0, 0, 0, 1] ++ label ++ [0] ++ ctx ++ [0, 0, 1, 0])
         (¬ valid k → ¬ root → ¬ test → ¬ slot → fails (.derive rq v) 2) ∧
         (¬ valid k → root ∨ test ∨ slot → 6 ≤ s.fget KEY_NEWATTR_ALG → fails (.derive rq v) 4) ∧
         (¬ valid k → s.fget KEY_NEWATTR_ALG < 6 →
           (slot → Completes (.derive rq v) s (made (derived (s.key p)) 2 p)) ∧
           (∀ r, root → s.sec.fuseRoot = some r → Completes (.derive rq v) s (made (derived r) 2 p)) ∧
           (test → Completes (.derive rq v) s (made (derived testRoot) 2 p)))) ∧
        (let child := fun (j : Nat) => valid j ∧ s.fget (KEY_ATTR_PARENT j) = k
         (s.fbit (KEY_ATTR_LOCKED k) = true ∨ (∃ j, child j ∧ s.fbit (KEY_ATTR_LOCKED j) = true) → fails (.invalidate rq v) 3) ∧
         ((∀ j < 64, s.fbit (KEY_ATTR_LOCKED j) = false) → Completes (.invalidate rq v) s (fun t => done 0 t ∧
           (∀ j, j = k ∨ child j → t.key j = 0 ∧ t.fget (KEY_ATTR_V j) = 0 ∧ t.fget (KEY_ATTR_UKDF j) = 0 ∧ t.fget (KEY_ATTR_PARENT j) = 0x7F) ∧
           t = { s with regs := t.regs, keys := t.keys, resp := .ok, rdata := 0, sec := { s.sec with masks := t.sec.masks } })) ∧
         (s.fbit (KEY_ATTR_LOCKED k) = false → (∀ j, ¬ child j) → Completes (.invalidate rq v) s (fun t => done 0 t ∧ t.key k = 0 ∧
           t.fget (KEY_ATTR_V k) = 0 ∧ (∀ j, j ≠ k → t.key j = s.key j) ∧
           t = { s with regs := t.regs, keys := t.keys, resp := .ok, rdata := 0, sec := { s.sec with masks := t.sec.masks } } ∧
           ∀ f : Fld, f.key ∉ stat.map Fld.key → f.key / 32 ≠ 0xF000070100 + 4 * k → t.fget f = s.fget f))) ∧
        (let nx := s.fget KEY_NEWATTR_NEXT
         let bad := s.fbit KEY_NEWATTR_NEXTV = true ∧ (s.fbit (KEY_ATTR_V nx) = false ∨ nx = k)
         (bad → fails (.setlink rq v) 4) ∧
         (¬ bad → Completes (.setlink rq v) s (fun t => done 0 t ∧ t.fget (KEY_ATTR_TXNEXT k) = s.fget KEY_NEWATTR_TXNEXT % 2 ∧
           t.fget (KEY_ATTR_NEXT k) = nx % 64 ∧ t.fget (KEY_ATTR_NEXTV k) = s.fget KEY_NEWATTR_NEXTV % 2 ∧
           Accepted (stat ++ [KEY_ATTR_TXNEXT k, KEY_ATTR_NEXT k, KEY_ATTR_NEXTV k]) s t))))) ∧
    (s.fbit KEY_STAT_RNGFAIL = true ∨ s.domOn 5 = false → Ignored .keyRemask s) ∧
    (s.fbit KEY_STAT_RNGFAIL = false → s.domOn 5 = true → Completes .keyRemask s (fun t => (∀ j, t.key j = s.key j) ∧
      (∀ j : Fin 64, s.fbit (KEY_ATTR_V j) = false → t.sec.masks[j] = s.sec.masks[j]) ∧
      t = { s with keys := t.keys, draws := t.draws, sec := { s.sec with masks := t.sec.masks } })) ∧
    (LogRoom s → Completes .rngHealthFail s (fun t => t.fget KEY_STAT_RNGFAIL = 1 ∧
      OnlyRegs [KEY_STAT_RNGFAIL] { s with log := logPlus s [eventOf s KEY_STAT_RNGFAIL true 6 0xFF []] } t)) ∧
    (ReadGranted rq 0xF000070060 s →
      (s.fbit KEY_STAT_RNGFAIL = true → Completes (.keyRngRead rq) s (Answered 0 [] s)) ∧
      (s.fbit KEY_STAT_RNGFAIL = false → Completes (.keyRngRead rq) s (fun t => ∃ r, r < 2 ^ 32 ∧ Answered r [] { s with draws := t.draws } t)))

/-- The life-cycle commands with their codes: transitions wipe keys, memories and logs and then wait for their reset; the
response is checked against the challenge and a wrong one counts; fuses are programmed; the last boot key stays; the DRAM wipe ends
(R420 to R422, R432 to R435). -/
def Sys2Proof.Machine.LifeCycleCommands : Prop :=
  ∀ (s : State) (rq : Req) (v : Word),
    let resps := [LIFE_RESP_V 0, LIFE_RESP_V 1, LIFE_RESP_V 2, LIFE_RESP_V 3, LIFE_RESP_V 4, LIFE_RESP_V 5, LIFE_RESP_V 6, LIFE_RESP_V 7,
      LIFE_RESP_V 8, LIFE_RESP_V 9, LIFE_RESP_V 10, LIFE_RESP_V 11]
    let chal := [LIFE_CHAL_V 0, LIFE_CHAL_V 1, LIFE_CHAL_V 2, LIFE_CHAL_V 3]
    let stat := LIFE_CMDSTAT_ERR :: LIFE_CMDSTAT_BUSY :: resps
    let bytes := fun (l : List Fld) => l.flatMap (fun f => leBytes 4 (s.fget f))
    let done := fun (e : Nat) (t : State) => t.fget LIFE_CMDSTAT_ERR = e ∧ t.fget LIFE_CMDSTAT_BUSY = 1 ∧ t.resp = .ok ∧ t.rdata = 0 ∧
      ∀ f ∈ resps, t.fget f = 0
    let fails := fun (c : Instr) (e : Nat) => Completes c s (fun t => done e t ∧ Accepted stat s t)
    let fused := fun (sec : Security) (t : State) => done 0 t ∧ Accepted stat { s with sec := sec } t
    let life := s.sec.life
    let inUse := s.fbit SCHED_STAT_ADM = true ∨ ∃ j : Fin 64, (s.vpi j).st ≠ .off
    let live := ∃ j < 4, bitOf s.sec.prog j = true ∧ bitOf s.sec.rev j = false
    let wiped := fun (t : State) => (∀ j, t.key j = 0) ∧ t.retMem = [] ∧ t.pubMem = [] ∧ t.log = eventLog0 ∧ t.fget LIFE_STAT_WIPE = 1 ∧
      t.fget LIFE_WIPED_N = 0 ∧ (∀ x, x < 0x400000000 ∨ (0x4000000000 ≤ x ∧ x < 0x4005000000) ∨ (0x4100000000 ≤ x ∧ x < 0x4101000000) ∨
        (0x4800000000 ≤ x ∧ x < 0x4801800000) ∨ (0x5000000000 ≤ x ∧ x < 0x5080000000) → memGet t.mem x = 0) ∧
      ∀ l r, (t.lane l).f.reg r = 0 ∧ (t.lane l).g.reg r = 0
    let moves := fun (st : Nat) (t : State) => done 0 t ∧ wiped t ∧ t.sec.next = some st ∧ t.sec.life = s.sec.life
    let auth := hmacSha256 (beBytes 32 testRoot)
      ([0, 0, 0, 1] ++ [0x4C, 0x49, 0x46, 0x45, 0x2D, 0x41, 0x55, 0x54, 0x48, 0, 0, 0, 0, 0, 0, 0] ++ [0] ++ zeroBytes 16 ++ [0, 0, 1, 0])
    let expected := fun (op : Byte) => hmacSha256 (beBytes 32 auth) (bytes chal ++ bytes [LIFE_DIEID_V 0, LIFE_DIEID_V 1] ++ [op])
    let right := fun (op : Byte) => s.sec.chal = true ∧ beVal ((bytes resps).take 32) = expected op
    let wrong := fun (op : Nat) (t : State) => done 3 t ∧ (∀ f ∈ chal, t.fget f = 0) ∧ Accepted (stat ++ chal) { s with
      sec := { s.sec with chal := false, wrong := s.sec.wrong + 1 }, log := logPlus s [eventOf s (LIFE_RESP_V 0) true 6 0xFF [op]] } t
    (WriteGranted rq 0xF000080004 s →
      (s.fbit LIFE_CMDSTAT_BUSY = true → ∀ c ∈ [Instr.advance rq v, .rma rq v, .scrap rq v, .dbgopen rq v, .progroot rq v, .svnup rq v,
        .challenge rq v, .progkey rq v, .bootKeyRevoke rq v], Completes c s (Refused .denied s)) ∧
      (s.fbit LIFE_CMDSTAT_BUSY = false →
        (1 < life → fails (.advance rq v) 1) ∧ (life ≤ 1 → inUse → fails (.advance rq v) 2) ∧
        (life = 1 → ¬ inUse → s.sec.fuseRoot = none ∨ ¬ live → fails (.advance rq v) 4) ∧
        (life = 0 ∨ (life = 1 ∧ s.sec.fuseRoot.isSome = true ∧ live) → ¬ inUse → Completes (.advance rq v) s (moves (life + 1))) ∧
        (life ≠ 2 → fails (.rma rq v) 1) ∧ (life = 2 → inUse → fails (.rma rq v) 2) ∧
        (life = 2 → ¬ inUse →
          (3 ≤ s.sec.wrong → fails (.rma rq v) 3) ∧
          (s.sec.wrong < 3 → ¬ right 2 → LogRoom s → Completes (.rma rq v) s (wrong 2)) ∧
          (s.sec.wrong < 3 → right 2 → Completes (.rma rq v) s (fun t => moves 3 t ∧ t.sec.chal = false))) ∧
        (life = 4 → fails (.scrap rq v) 1) ∧ (life ≠ 4 → inUse → fails (.scrap rq v) 2) ∧
        (life ≠ 4 → ¬ inUse → Completes (.scrap rq v) s (moves 4)) ∧
        (life ≠ 2 → fails (.dbgopen rq v) 1) ∧
        (life = 2 →
          (3 ≤ s.sec.wrong → fails (.dbgopen rq v) 3) ∧
          (s.sec.wrong < 3 → ¬ right 4 → LogRoom s → Completes (.dbgopen rq v) s (wrong 4)) ∧
          (s.sec.wrong < 3 → right 4 → Completes (.dbgopen rq v) s (fun t => done 0 t ∧ wiped t ∧ t.fget LIFE_STAT_DBG = 1 ∧
            t.fget DEBUG_STAT_OPEN = 1 ∧ t.sec.life = 2 ∧ t.sec.next = s.sec.next ∧ t.sec.chal = false))) ∧
        (life ≠ 1 → fails (.progroot rq v) 1 ∧ fails (.progkey rq v) 1) ∧
        (life = 1 → s.sec.fuseRoot.isSome = true → fails (.progroot rq v) 4) ∧
        (life = 1 → s.sec.fuseRoot = none → s.fbit KEY_STAT_RNGFAIL = true → fails (.progroot rq v) 5) ∧
        (life = 1 → s.sec.fuseRoot = none → s.fbit KEY_STAT_RNGFAIL = false → Completes (.progroot rq v) s (fun t => done 0 t ∧
          ∃ r, r < 2 ^ 256 ∧ Accepted stat { s with sec := { s.sec with fuseRoot := some r }, draws := t.draws } t)) ∧
        (s.sec.runSvn ≤ s.sec.svn → fails (.svnup rq v) 7) ∧
        (s.sec.svn < s.sec.runSvn → Completes (.svnup rq v) s (fused { s.sec with svn := s.sec.runSvn })) ∧
        (s.fbit KEY_STAT_RNGFAIL = true → fails (.challenge rq v) 5) ∧
        (s.fbit KEY_STAT_RNGFAIL = false → Completes (.challenge rq v) s (fun t => done 0 t ∧
          Accepted (stat ++ chal) { s with sec := { s.sec with chal := true }, draws := t.draws } t)) ∧
        (∀ j : Fin 4, j.val = v.toNat % 4 →
          (life = 1 → bitOf s.sec.prog j = true → fails (.progkey rq v) 4) ∧
          (life = 1 → bitOf s.sec.prog j = false → Completes (.progkey rq v) s (fused { s.sec with
            bootKeys := s.sec.bootKeys.set j (beVal (bytes resps)), prog := s.sec.prog + 2 ^ j.val })) ∧
          (let last := ∀ i < 4, i = j.val ∨ bitOf s.sec.prog i = false ∨ bitOf s.sec.rev i = true
           (bitOf s.sec.prog j = false → fails (.bootKeyRevoke rq v) 4) ∧
           (bitOf s.sec.prog j = true → (last ∧ bitOf s.sec.rev j = false) ∨ s.sec.runKey = j.val → fails (.bootKeyRevoke rq v) 8) ∧
           (bitOf s.sec.prog j = true → ¬ last → bitOf s.sec.rev j = false → s.sec.runKey ≠ j.val →
             Completes (.bootKeyRevoke rq v) s (fused { s.sec with rev := s.sec.rev + 2 ^ j.val })))))) ∧
    (s.fbit LIFE_STAT_WIPE = false → Ignored .dramWipeDone s) ∧
    (s.fbit LIFE_STAT_WIPE = true → Completes .dramWipeDone s (fun t => t.fget LIFE_STAT_WIPE = 0 ∧ t.fget LIFE_WIPED_N = 8192 ∧
      OnlyRegs [LIFE_STAT_WIPE, LIFE_WIPED_N] s t))

/-- The key store and the life cycle. Where the spec leaves a point open it follows the model's choice: assumptions 163,
164, 165, 166, 167. -/
def Obligations.KeysAndLifeCycle : Prop := KeyStoreCommands ∧ LifeCycleCommands

/-! ### CAN controllers and I/O groups (R440 to R447, R458) -/

/-- Received frames reach the object of their identifier and complete the input groups that end there; sent frames,
errors, bus-off and its recovery; object and group commands; a cyclic output group marks its objects pending (R440,
R442 to R447, R458). Where the spec leaves a point open it follows the model's choice: assumptions 152, 153. -/
def Obligations.CanAndIoGroups : Prop :=
  ∀ (s : State) (rq : Req) (bus : Fin 2), (∀ b : Fin 2, ∀ o ∈ s.io.can[b].objs, o.2.length = 96) →
    let on := s.domOn 5 = true ∧ s.pllOn 3 = true ∧ s.fbit (IO_CTL_EN bus) = true ∧ s.fbit (IO_STAT_BOFF bus) = false
    let rec_ := s.fget (IO_STAT_REC bus)
    let tec := s.fget (IO_STAT_TEC bus)
    let passive := fun (t : State) => t.fbit (IO_STAT_EPASS bus) = decide (127 < t.fget (IO_STAT_TEC bus) ∨ 127 < t.fget (IO_STAT_REC bus))
    let good := fun (t : State) => t.fget (IO_STAT_REC bus) = rec_ - 1 ∧ (0 < rec_ → passive t)
    let bits := [IO_STAT_REC bus, IO_STAT_EPASS bus]
    let others := fun (i : Nat) (t : State) => ∀ (b : Fin 2) (j : Nat), b ≠ bus ∨ j ≠ i → t.obj b j = s.obj b j
    (¬ on → (∀ fr, Ignored (.canFrameReceive bus fr) s) ∧ (∀ o, Ignored (.canFrameSent bus o) s) ∧
      (∀ o e, Ignored (.canTxError bus o e) s) ∧ ∀ h, Ignored (.canRxError bus h) s) ∧
    (on → rec_ ≤ 127 → ∀ fr : CanFrame,
      let matching := fun (o : Nat × List Byte) => obV o.2 = true ∧ obTx o.2 = false ∧ obIde o.2 = fr.ext ∧ obId o.2 = fr.id
      (fr.rtr = true → Completes (.canFrameReceive bus fr) s (fun t => good t ∧ Counted (IO_RXRTR_N bus) s t ∧
        OnlyRegs (IO_RXRTR_N bus :: bits) s t)) ∧
      (fr.rtr = false → (∀ o ∈ s.io.can[bus].objs, ¬ matching o) → Completes (.canFrameReceive bus fr) s (fun t => good t ∧
        Counted (IO_NOMATCH_N bus) s t ∧ OnlyRegs (IO_NOMATCH_N bus :: bits) s t)) ∧
      (∀ i b, fr.rtr = false → (i, b) ∈ s.io.can[bus].objs → matching (i, b) →
        (∀ o ∈ s.io.can[bus].objs, matching o → o = (i, b)) → alookup i s.io.can[bus].objs = some b → fr.data.length ≤ 64 →
        let taken := fun (flags : Bool) (c : List Byte) => c.length = 96 ∧ c.take 8 = b.take 8 ∧
          sliceOf c 0x20 64 = fr.data ++ zeroBytes (64 - fr.data.length) ∧ obStat c % 16 = lenDlc fr.data.length ∧
          obNew c = flags ∧ obLost c = (flags && (obNew b || obLost b)) ∧ obPend c = obPend b
        let lost := fun (t : State) => t.fget (IO_LOSTCNT_N bus) =
          if obNew b then min (s.fget (IO_LOSTCNT_N bus) + 1) (2 ^ 32 - 1) else s.fget (IO_LOSTCNT_N bus)
        (groupsEndingAt s bus i = [] → Completes (.canFrameReceive bus fr) s (fun t => good t ∧ lost t ∧ taken true (t.obj bus i) ∧
          i ∈ t.io.can[bus].fresh ∧ others i t ∧
          OnlyRegs (IO_LOSTCNT_N bus :: bits) { s with io := t.io, draws := t.draws } t)) ∧
        (∀ g, groupsEndingAt s bus i = [g] → igN (s.ioGroup g) = 1 → igFirst (s.ioGroup g) = i → igBus (s.ioGroup g) = bus →
          let e := s.ioGroup g
          let d := igDest e
          let role := d / 2 ^ 24 % 8
          let lane := d / 65536 % 8
          let a := 0x4100000000 + 0x100000 * role + 0x20000 * lane + 0x10000 + d % 65536
          role < 5 → s.ecc = [] → (s.gate (igVmid e) a 8 true).rsp = .ok → Completes (.canFrameReceive bus fr) s (fun t =>
            good t ∧ lost t ∧ taken false (t.obj bus i) ∧
            alookup g t.io.gseq = some (((alookup g s.io.gseq).getD 0 + 1) % 2 ^ 32) ∧
            ∃ ts, Stored s.mem t.mem (s.canon a) (tripleBytes ts ++ leBytes 4 ((alookup g s.io.gseq).getD 0) ++
              leBytes 2 (if obNew b || obLost b then 1 else 0) ++ zeroBytes 6 ++ padTo (igLen e) (sliceOf (t.obj bus i) 0x20 (dlcLen true (lenDlc fr.data.length)))))))) ∧
    (on → ∀ o : Nat,
      let b := s.obj bus o
      let wins := obV b = true ∧ obTx b = true ∧ obPend b = true ∧ s.fbit (IO_CTL_MON bus) = false ∧
        ∀ x ∈ s.io.can[bus].objs, obV x.2 = true → obTx x.2 = true → obPend x.2 = true → obRank b ≤ obRank x.2
      (¬ wins → Ignored (.canFrameSent bus o) s) ∧
      (wins → tec ≤ 255 → Completes (.canFrameSent bus o) s (fun t => t.fget (IO_STAT_TEC bus) = tec - 1 ∧ passive t ∧
        obPend (t.obj bus o) = false ∧ (t.obj bus o).take 8 = b.take 8 ∧ (t.obj bus o).drop 0x20 = b.drop 0x20 ∧
        alookup o t.io.can[bus].sent = some (sliceOf b 0x20 (obTxLen b)) ∧ others o t ∧
        OnlyRegs [IO_STAT_TEC bus, IO_STAT_EPASS bus] { s with io := t.io, draws := t.draws } t)) ∧
      (obPend b = false ∨ obTx b = false ∨ obV b = false ∨ s.fbit (IO_CTL_MON bus) = true → ∀ e, Ignored (.canTxError bus o e) s) ∧ Ignored (.canTxError bus o .arbitration) s ∧
      (∀ e, e ≠ .arbitration → obV b = true → obTx b = true → obPend b = true → s.fbit (IO_CTL_MON bus) = false →
        (tec + 8 ≤ 255 → Completes (.canTxError bus o e) s (fun t => t.fget (IO_STAT_TEC bus) = tec + 8 ∧ passive t ∧
          OnlyRegs [IO_STAT_TEC bus, IO_STAT_EPASS bus] s t)) ∧
        (255 < tec + 8 → LogRoom s → Completes (.canTxError bus o e) s (fun t => t.fget (IO_STAT_TEC bus) = 255 ∧ passive t ∧
          t.fget (IO_STAT_BOFF bus) = 1 ∧ Counted (IO_BOFFCNT_N bus) s t ∧
          OnlyRegs [IO_STAT_TEC bus, IO_STAT_EPASS bus, IO_STAT_BOFF bus, IO_BOFFCNT_N bus]
            { s with log := logPlus s [eventOf s (IO_STAT_BOFF bus) true 6 0xFF [bus.val]] } t)))) ∧
    (on → ∀ hard : Bool, Completes (.canRxError bus hard) s (fun t =>
      t.fget (IO_STAT_REC bus) = min 255 (rec_ + (if hard then 8 else 1)) ∧ passive t ∧ OnlyRegs bits s t)) ∧
    (∀ v : Word, WriteGranted rq (0xF000120000 + 0x100 * bus.val) s →
      (s.fbit (IO_CTL_EN bus) = false ∨ v.getLsbD 2 = s.fbit (IO_CTL_MON bus)) → s.fget (IO_CTL_MON bus) < 2 →
      Completes (.recover rq bus v) s (fun t =>
        t.fbit (IO_CTL_RECOVER bus) = (s.fbit (IO_CTL_RECOVER bus) || s.fbit (IO_STAT_BOFF bus)) ∧
        t.fget (IO_CTL_EN bus) = v.toNat % 2 ∧ t.fget (IO_CTL_IE bus) = v.toNat / 256 % 2 ∧ t.fget (IO_CTL_MON bus) = v.toNat / 4 % 2 ∧
        Accepted [IO_CTL_RECOVER bus, IO_CTL_EN bus, IO_CTL_IE bus, IO_CTL_MON bus] s t)) ∧
    (let ends := s.fbit (IO_STAT_BOFF bus) = true ∧ s.fbit (IO_CTL_RECOVER bus) = true
     (¬ ends → Ignored (.canRecoveryDone bus) s) ∧
     (ends → Completes (.canRecoveryDone bus) s (fun t => t.fget (IO_STAT_BOFF bus) = 0 ∧ t.fget (IO_CTL_RECOVER bus) = 0 ∧
       t.fget (IO_STAT_TEC bus) = 0 ∧ t.fget (IO_STAT_REC bus) = 0 ∧ t.fget (IO_STAT_EPASS bus) = 0 ∧
       OnlyRegs [IO_STAT_BOFF bus, IO_CTL_RECOVER bus, IO_STAT_TEC bus, IO_STAT_REC bus, IO_STAT_EPASS bus] s t))) ∧
    (WriteGranted rq 0xF000120804 s → ∀ n : Nat,
      let i := n % 256
      let a := s.fget IOBUS_STSRC_ADDR * 64
      let g := s.rd (s.canon a) 16
      let stat := [IOBUS_CMDSTAT_ERR, IOBUS_CMDSTAT_BUSY]
      let fails := fun (e : Nat) => Completes (.iobusUpdate rq n) s (fun t => t.fget IOBUS_CMDSTAT_ERR = e ∧ t.fget IOBUS_CMDSTAT_BUSY = 1 ∧
        Accepted stat s t)
      let next := leAt g 0 2 = (leAt (s.ioGroup i) 0 2 + 1) % 65536
      let reserved := leAt g 2 1 / 2 % 32 ≠ 0 ∨ allZero (sliceOf g 0xE 2) = false
      let placed := (igVmid g < 64 ∨ igVmid g = 0xFF) ∧ 1 ≤ igN g ∧ igN g ≤ 16 ∧ (igSlot g < 16 ∨ igSlot g = 0xFF) ∧
        igFirst g + igN g ≤ 2048 ∧ (igOut g = true → leAt g 0xA 2 = 0) ∧
        (igOut g = false → igDest g / 2 ^ 27 = 0 ∧ igDest g / 2 ^ 19 % 32 = 0 ∧ igDest g % 8 = 0 ∧ igDest g / 2 ^ 24 % 8 ≤ 4)
      let objects := ∀ o ∈ igObjs g, obV (s.obj (igBus g) o) = true ∧ obTx (s.obj (igBus g) o) = igOut g
      let sized := if igOut g then ((igObjs g).map (fun o => obTxLen (s.obj (igBus g) o))).sum = igLen g else igLen g ≤ 232
      (s.fbit IOBUS_CMDSTAT_BUSY = true → Completes (.iobusUpdate rq n) s (Refused .denied s)) ∧
      (s.fbit IOBUS_CMDSTAT_BUSY = false → s.ecc = [] → (s.gate 0xFF a 8 false).rsp = .ok →
        (reserved ∨ (igV g = true ∧ ¬ placed) → fails 1) ∧
        (¬ reserved → (igV g = true → placed) → ¬ next → fails 2) ∧
        (¬ reserved → next → igV g = true → placed → ¬ objects → fails 3) ∧
        (¬ reserved → next → igV g = true → placed → objects → ¬ sized → fails 4) ∧
        (¬ reserved → next → (igV g = true → placed ∧ objects ∧ sized) → Completes (.iobusUpdate rq n) s (fun t =>
          t.fget IOBUS_CMDSTAT_ERR = 0 ∧ t.fget IOBUS_CMDSTAT_BUSY = 1 ∧ t.ioGroup i = g ∧ (∀ j, j ≠ i → t.ioGroup j = s.ioGroup j) ∧
          Accepted stat { s with io := { s.io with groups := t.io.groups } } t)))) ∧
    (WriteGranted rq 0xF000120810 s → (s.fbit IOBUS_OBJSEL_BUS = true ↔ bus = 1) →
      let i := s.fget IOBUS_OBJSEL_IDX
      let b := s.obj bus i
      let w := (List.range 24).flatMap (fun k => leBytes 4 (s.fget (IOBUS_WIN_V k)))
      let gives := fun (c : Instr) (e : Nat) (b' : List Byte) => Completes c s (fun t => t.fget IOBUS_CMDSTAT_ERR = e ∧ t.obj bus i = b' ∧
        others i t ∧ Accepted [IOBUS_CMDSTAT_ERR] { s with io := { s.io with can := t.io.can } } t)
      let twice := obV w = true ∧ obTx w = false ∧ ∃ o ∈ s.io.can[bus].objs, o.1 ≠ i ∧ obV o.2 = true ∧ obTx o.2 = false ∧
        obIde o.2 = obIde w ∧ obId o.2 = obId w
      (twice → gives (.objConfig rq) 5 b) ∧
      (¬ twice → gives (.objConfig rq) 0 (w.take 8 ++ sliceOf b 8 24 ++ w.drop 0x20)) ∧
      (Completes (.objLatch rq) s (fun t => t.fget IOBUS_CMDSTAT_ERR = 0 ∧ (∀ k < 24, t.fget (IOBUS_WIN_V k) = leAt b (4 * k) 4) ∧
        obNew (t.obj bus i) = false ∧ obLost (t.obj bus i) = false ∧ (t.obj bus i).take 8 = b.take 8 ∧
        (t.obj bus i).drop 0xC = b.drop 0xC ∧ others i t)) ∧
      (¬ (obV b = true ∧ obTx b = true) → gives (.objSend rq) 3 b) ∧
      (obV b = true → obTx b = true → gives (.objSend rq) 0 (b.take 8 ++ leBytes 4 (obStat b ||| 128) ++ sliceOf b 0xC 0x14 ++ w.drop 0x20)) ∧
      gives (.objClear rq) 0 (zeroBytes 96)) ∧
    (∀ n : Nat,
      let g := s.ioGroup n
      let due := igV g = true ∧ igOut g = true ∧ igDest g % 65536 ≠ 0 ∧ s.domOn 5 = true
      (¬ due → Ignored (.ioGroupRefresh n) s) ∧
      (due → Completes (.ioGroupRefresh n) s (fun t => (∀ o ∈ igObjs g, obPend (t.obj (igBus g) o) = true) ∧
        (∀ b o, b ≠ igBus g ∨ o ∉ igObjs g → t.obj b o = s.obj b o) ∧ t = { s with io := { s.io with can := t.io.can } })))

/-! ### Slots and cages (R448 to R450, R490) -/

/-- A slot's contact, the check of its identity record, its enabling, its forced isolation; a cage's insertion, removal and overcurrent;
reads and writes of the module in a cage (R448 to R450, R490). -/
def Sys2Proof.Machine.SlotsAndCages : Prop :=
  ∀ (s : State) (rq : Req) (k : Fin 16) (g : Fin 6) (v : Word),
    let put := fun (f : Fld) (i : Nat) (b : Bool) (t : State) => bitOf (t.fget f) i = b ∧
      ∀ j, j < f.width → j ≠ i → bitOf (t.fget f) j = bitOf (s.fget f) j
    let seen := put IDBUS_EVT_SLOT k true
    let state := IDBUS_SLOT_STATE k
    let en := s.fbit IDBUS_CTL_EN
    let passed := k.val ∈ s.io.passed
    let noGroup := ∀ e ∈ s.io.groups, igV e.2 = true → igOut e.2 = false → igSlot e.2 ≠ k.val
    let unpassed := { s.io with passed := s.io.passed.filter (· != k.val) }
    Completes (.slotPresenceClose k) s (fun t => put IDBUS_PRES_SLOT k true t ∧ seen t ∧
      (en = true → t.fget state = 1 ∧ OnlyRegs [IDBUS_PRES_SLOT, IDBUS_EVT_SLOT, state] s t) ∧
      (en = false → OnlyRegs [IDBUS_PRES_SLOT, IDBUS_EVT_SLOT] s t)) ∧
    (∀ id : Option (List Byte),
      (s.fget state ≠ 1 ∨ en = false ∨ passed → Ignored (.slotDebounceDone k id) s) ∧
      (s.fget state = 1 → en = true → ¬ passed → LogRoom s →
        let stopped := fun (code : Nat) (io : IoState → IoState) (fs : List Fld) (t : State) => t.fget state = code ∧ seen t ∧
          OnlyRegs (state :: IDBUS_EVT_SLOT :: fs) { s with io := io t.io, log := logPlus s [eventOf s state true 6 0xFF [k.val, code]] } t
        (id = none → Completes (.slotDebounceDone k id) s (stopped 5 (fun _ => s.io) [])) ∧
        (∀ r, id = some r → r.length = 128 →
          let well := leAt r 0 4 = 0x44495654 ∧ leAt r 4 1 = 1 ∧ leAt r 5 1 = 128 ∧ leAt r 0x7C 4 = crc32c (r.take 0x7C)
          let other := s.fbit (IDBUS_EXP_V k) = true ∧ s.fbit (IDBUS_EXP_ANY k) = false ∧ leAt r 6 2 ≠ s.fget (IDBUS_EXP_KIND k)
          let read := fun (t : State) => alookup k.val t.io.recs = some r ∧ t.fget (IDBUS_SLOT_KIND k) = leAt r 6 2
          (¬ well → Completes (.slotDebounceDone k id) s (fun t => read t ∧
            stopped 4 (fun io => { s.io with recs := io.recs }) [IDBUS_SLOT_KIND k] t)) ∧
          (well → other → Completes (.slotDebounceDone k id) s (fun t => read t ∧
            stopped 3 (fun io => { s.io with recs := io.recs }) [IDBUS_SLOT_KIND k] t)) ∧
          (well → ¬ other → Completes (.slotDebounceDone k id) s (fun t => read t ∧ OnlyRegs [IDBUS_SLOT_KIND k]
            { s with io := { s.io with recs := t.io.recs, passed := s.io.passed ++ [k.val] } } t))))) ∧
    (¬ passed ∨ s.fbit (IDBUS_SLOT_FORCE k) = true ∨ en = false → Ignored (.slotEnable k) s) ∧
    (passed → s.fbit (IDBUS_SLOT_FORCE k) = false → en = true → LogRoom s → Completes (.slotEnable k) s (fun t => t.fget state = 2 ∧ seen t ∧
      OnlyRegs [state, IDBUS_EVT_SLOT] { s with io := unpassed, log := logPlus s [eventOf s state false 3 0xFF [k.val, 2]] } t)) ∧
    (noGroup → LogRoom s → Completes (.slotPresenceOpen k) s (fun t => t.fget state = 0 ∧ seen t ∧ put IDBUS_PRES_SLOT k false t ∧
      OnlyRegs [state, IDBUS_EVT_SLOT, IDBUS_PRES_SLOT]
        { s with io := unpassed, log := logPlus s [eventOf s state false 2 0xFF [k.val, 0]] } t)) ∧
    (WriteGranted rq (0xF000130140 + 4 * k.val) s →
      let was := s.fbit (IDBUS_SLOT_FORCE k)
      let now := v.getLsbD 8
      let here := bitOf (s.fget IDBUS_PRES_SLOT) k
      let force := fun (t : State) => t.fbit (IDBUS_SLOT_FORCE k) = now
      let again := fun (t : State) => if here then t.fget state = 1 ∧ seen t else t.fget state = s.fget state ∧ t.fget IDBUS_EVT_SLOT = s.fget IDBUS_EVT_SLOT
      let fields := [IDBUS_SLOT_FORCE k, state, IDBUS_EVT_SLOT]
      (now = true → was = false → noGroup → LogRoom s → Completes (.slotForce rq k v) s (fun t => force t ∧ again t ∧ Accepted fields
        { s with io := unpassed, log := logPlus s [eventOf s (IDBUS_SLOT_FORCE k) false 2 0xFF [k.val]] } t)) ∧
      (now = false → was = true → Completes (.slotForce rq k v) s (fun t => force t ∧ again t ∧
        Accepted fields { s with io := if here then unpassed else s.io } t)) ∧
      (now = was → Completes (.slotForce rq k v) s (fun t => force t ∧ Accepted [IDBUS_SLOT_FORCE k] s t))) ∧
    (let cage := s.portFitted g
     let plugged := bitOf (s.fget IDBUS_PRES_CAGE) g
     let event := put IDBUS_EVT_CAGE g true
     (cage = false → ∀ a0, Ignored (.sfpInsert g a0) s) ∧
     (∀ a0 : Option (List Byte), cage = true →
       let ok := match a0 with
         | some b => 64 ≤ b.length ∧ leAt b 63 1 = ((b.take 63).map (·.toNat)).sum % 256
         | none => False
       Completes (.sfpInsert g a0) s (fun t => put IDBUS_PRES_CAGE g true t ∧ event t ∧ (bitOf (t.fget IDBUS_SFPSTAT_CCOK) g = true ↔ ok) ∧
         OnlyRegs [IDBUS_PRES_CAGE, IDBUS_EVT_CAGE, IDBUS_SFPSTAT_CCOK]
           { s with io := { s.io with noFeed := s.io.noFeed.filter (· != g.val) } } t)) ∧
     (plugged = false → Ignored (.cageModuleRemoved g) s ∧ Ignored (.cageOvercurrent g) s) ∧
     (plugged = true → Completes (.cageModuleRemoved g) s (fun t => put IDBUS_PRES_CAGE g false t ∧ event t ∧ put IDBUS_SFPSTAT_CCOK g false t ∧
       OnlyRegs [IDBUS_PRES_CAGE, IDBUS_EVT_CAGE, IDBUS_SFPSTAT_CCOK] s t)) ∧
     (plugged = true → LogRoom s → Completes (.cageOvercurrent g) s (fun t => t.fget (PORT_STAT_SIGLOS g) = 1 ∧ g.val ∈ t.io.noFeed ∧
       OnlyRegs [PORT_STAT_SIGLOS g]
         { s with io := { s.io with noFeed := t.io.noFeed }, log := logPlus s [eventOf s (PORT_STAT_SIGLOS g) false 2 0xFF [g.val]] } t))) ∧
    (WriteGranted rq 0xF000130300 s →
      let c := v.toNat / 2 ^ 24 % 8
      let ofs := v.toNat / 256 % 256
      let len := if v.toNat % 128 = 0 then 128 else v.toNat % 128
      let stat := [IDBUS_SFPSTAT_BUSY, IDBUS_SFPSTAT_ERR]
      let there := c < 6 ∧ s.portFitted c = true ∧ bitOf (s.fget IDBUS_PRES_CAGE) c = true
      let ends := fun (i : Instr) (e : Nat) => Completes i s (fun t => t.fget IDBUS_SFPSTAT_BUSY = 1 ∧ t.fget IDBUS_SFPSTAT_ERR = e ∧ Accepted stat s t)
      (s.fbit IDBUS_SFPSTAT_BUSY = true → (∀ d, Completes (.sfpRead rq v d) s (Refused .denied s)) ∧
        ∀ a, Completes (.sfpWrite rq v a) s (Refused .denied s)) ∧
      (s.fbit IDBUS_SFPSTAT_BUSY = false →
        (¬ there → (∀ d, ends (.sfpRead rq v d) 2) ∧ ∀ a, ends (.sfpWrite rq v a) 2) ∧
        (there → ends (.sfpRead rq v none) 1) ∧
        (there → ∀ d : List Byte, Completes (.sfpRead rq v (some d)) s (fun t => t.fget IDBUS_SFPSTAT_BUSY = 1 ∧ t.fget IDBUS_SFPSTAT_ERR = 0 ∧
          (∀ j < 32, t.fget (IDBUS_SFPBUF_V j) = leAt (d.take len ++ zeroBytes 128) (4 * j) 4) ∧
          Accepted (stat ++ (List.range 32).map IDBUS_SFPBUF_V) s t)) ∧
        (there → ∀ a : Bool, (¬ (v.getLsbD 16 = true ∧ (ofs = 110 ∨ ofs = 127)) → ends (.sfpWrite rq v a) 3) ∧
          (v.getLsbD 16 = true → ofs = 110 ∨ ofs = 127 → ends (.sfpWrite rq v a) (if a then 0 else 1)))))

/-! ### Direct trip lines, binary inputs, cross-trigger lines (R333, R372, R451 to R457) -/

/-- The arm and test registers, the contacts and their read-back, the debounced inputs with their group, the cross-trigger lines and the
comparators; the recorders' part of these edges is stated with the recorders (R372, R394, R451 to R457). -/
def Sys2Proof.Machine.TripLinesAndInputs : Prop :=
  ∀ (s : State) (rq : Req) (v : Word), (∀ r : Fin 32, (s.recorder r).ent.v = false) →
    let put := fun (f : Fld) (i : Nat) (b : Bool) (t : State) => bitOf (t.fget f) i = b ∧
      ∀ j, j < f.width → j ≠ i → bitOf (t.fget f) j = bitOf (s.fget f) j
    let edge := fun (line : Nat) (level : Bool) (time : Nat) (t : State) => t.io.edges.head? = some (line, time, level) ∧
      (∀ e ∈ t.io.edges.tail, e ∈ s.io.edges) ∧ (∀ e ∈ s.io.edges, e.1 ≠ line → e ∈ t.io.edges)
    (WriteGranted rq 0xF000140004 s →
      (v.toNat / 256 % 256 ≠ 0xA5 → Completes (.dtripArmWrite rq v) s (Refused .denied s)) ∧
      (v.toNat / 256 % 256 = 0xA5 → fldLocked s DTRIP_ARM_ARM = false → Completes (.dtripArmWrite rq v) s (fun t =>
        t.fget DTRIP_ARM_ARM = v.toNat % 256 ∧ Accepted [DTRIP_ARM_ARM] s t)) ∧
      (v.toNat / 256 % 256 = 0xA5 → fldLocked s DTRIP_ARM_ARM = true → v.toNat % 256 ≠ s.fget DTRIP_ARM_ARM →
        Completes (.dtripArmWrite rq v) s (Refused .denied s))) ∧
    (WriteGranted rq 0xF000140010 s →
      let named := fun (k : Nat) => k < 8 ∧ v.getLsbD k = true
      ((∃ k, named k ∧ (grantee s k).isSome = true) → Completes (.dtripTestWrite rq v) s (Refused .denied s)) ∧
      ((∀ k, named k → grantee s k = none) → Completes (.dtripTestWrite rq v) s (fun t =>
        (∀ k < 8, (named k → bitOf (t.fget DTRIP_STATE_LATCH) k = v.getLsbD (8 + k) ∧ t.fget (DTRIP_LAST_SRC k) = 1 ∧
            t.fbit (DTRIP_LAST_VAL k) = v.getLsbD (8 + k) ∧ t.fget (DTRIP_LAST_TASK k) = 0) ∧
          (¬ named k → bitOf (t.fget DTRIP_STATE_LATCH) k = bitOf (s.fget DTRIP_STATE_LATCH) k ∧
            t.fget (DTRIP_LAST_SRC k) = s.fget (DTRIP_LAST_SRC k))) ∧
        t = { s with regs := t.regs, resp := .ok, rdata := 0 }))) ∧
    (∀ (k : Fin 8) (out : Bool),
      (bitOf (s.fget DTRIP_STATE_OUT) k = out → Ignored (.dtOutChange k out) s) ∧
      (bitOf (s.fget DTRIP_STATE_OUT) k ≠ out → Completes (.dtOutChange k out) s (fun t => put DTRIP_STATE_OUT k out t ∧
        edge (24 + k) out s.now t ∧ OnlyRegs [DTRIP_STATE_OUT] { s with io := { s.io with edges := t.io.edges } } t)) ∧
      (let mis := bitOf (s.fget DTRIP_STATE_OUT) k ≠ (bitOf (s.fget DTRIP_STATE_LATCH) k && bitOf (s.fget DTRIP_ARM_ARM) k)
       (¬ mis → Ignored (.dtReadbackMismatch k) s) ∧
       (mis → LogRoom s → Completes (.dtReadbackMismatch k) s (fun t => put DTRIP_RBERR_B k true t ∧
         OnlyRegs [DTRIP_RBERR_B] { s with log := logPlus s [eventOf s DTRIP_RBERR_B true 6 0xFF [k.val]] } t)))) ∧
    (∀ (k : Fin 16) (level : Bool),
      let st := level != s.fbit (DTRIP_BICFG_INV k)
      (s.domOn 5 = false ∨ bitOf (s.fget DTRIP_BISTATE_DEB) k = st → Ignored (.biDebouncedChange k level) s) ∧
      (s.domOn 5 = true → bitOf (s.fget DTRIP_BISTATE_DEB) k ≠ st → (∀ d < 4, s.fbit (DTRIP_BIDEST_V d) = false) →
        (∀ c : Fin 8, s.owner c ≠ 3) → s.fbit (DTRIP_BICFG_STAMP k) = false →
        s.fget (DTRIP_BICFG_DEB k) * 1000 * 65536 ≤ s.now → s.tb.count < 2 ^ 48 * secUnits * 4096 →
        Completes (.biDebouncedChange k level) s (fun t =>
          let time := s.now - s.fget (DTRIP_BICFG_DEB k) * 1000 * 65536
          put DTRIP_BISTATE_DEB k st t ∧ put DTRIP_BISTATE_RAW k level t ∧ put DTRIP_BIEVT_B k true t ∧
          [DTRIP_BITSNS_V k, DTRIP_BITSLO_V k, DTRIP_BITSHI_V k].map t.fget = tripleOf time ∧ t.fget (DTRIP_BITSF_TDC k) = 0 ∧
          t.fbit (DTRIP_BITSF_RISE k) = st ∧ edge k st time t ∧ t.io.biTime = time ∧ (∀ d : Fin 4, bitOf t.io.biChg[d] k = true) ∧
          OnlyRegs [DTRIP_BISTATE_DEB, DTRIP_BISTATE_RAW, DTRIP_BIEVT_B, DTRIP_BITSNS_V k, DTRIP_BITSLO_V k, DTRIP_BITSHI_V k,
            DTRIP_BITSF_TDC k, DTRIP_BITSF_RISE k] { s with io := t.io } t)) ∧
      (WriteGranted rq (0xF000140100 + 4 * k.val) s →
        let own := s.owner (12 + k)
        (own = 0 ∨ (v.getLsbD 17 = true ∧ (own ≠ 2 ∨ tdcChan s 0x02 k = none)) ∨ 1000 < v.toNat % 1024 →
          Completes (.bicfgWrite rq k v) s (Refused .denied s)) ∧
        (own ≠ 0 → (v.getLsbD 17 = true → own = 2 ∧ (tdcChan s 0x02 k).isSome = true) → v.toNat % 1024 ≤ 1000 →
          Completes (.bicfgWrite rq k v) s (fun t => t.fget (DTRIP_BICFG_DEB k) = v.toNat % 1024 ∧ t.fbit (DTRIP_BICFG_INV k) = v.getLsbD 16 ∧
            t.fbit (DTRIP_BICFG_STAMP k) = v.getLsbD 17 ∧ Accepted [DTRIP_BICFG_STAMP k, DTRIP_BICFG_INV k, DTRIP_BICFG_DEB k] s t)))) ∧
    (s.fget DTRIP_BIPER_P = 0 ∨ s.domOn 5 = false → Ignored .biPeriodWrite s) ∧
    (∀ d : Fin 4, s.fget DTRIP_BIPER_P ≠ 0 → s.domOn 5 = true → s.fbit (DTRIP_BIDEST_V d) = true →
      (∀ j : Fin 4, j ≠ d → s.fbit (DTRIP_BIDEST_V j) = false) →
      let u := s.fget (DTRIP_BIDEST_VMID d)
      let a := 0x4100000000 + 0x100000 * s.fget (DTRIP_BIDEST_CL d) + 0x20000 * s.fget (DTRIP_BIDEST_LANE d) + 0x10000 + s.fget (DTRIP_BIDEST_OFS d)
      s.ecc = [] → s.fget (DTRIP_BIDEST_CL d) < 5 → (s.gate u a 8 true).rsp = .ok → Completes .biPeriodWrite s (fun t =>
        let m := biVisible s d
        Stored s.mem t.mem (s.canon a) (tripleBytes s.now ++ leBytes 2 (s.fget DTRIP_BISTATE_DEB &&& m) ++ leBytes 2 (s.io.biChg[d] &&& m) ++
          leBytes 4 s.io.biSeq[d] ++ zeroBytes 12) ∧
        t.io.biChg[d] = 0 ∧ t.io.biSeq[d] = (s.io.biSeq[d] + 1) % 2 ^ 32 ∧
        (∀ j : Fin 4, j ≠ d → t.io.biChg[j] = s.io.biChg[j] ∧ t.io.biSeq[j] = s.io.biSeq[j]) ∧
        t = { s with mem := t.mem, cecc := t.cecc, lanes := t.lanes, io := { s.io with biChg := t.io.biChg, biSeq := t.io.biSeq } })) ∧
    (∀ (k : Fin 4) (b : Bool),
      Completes (.xtEdge k b) s (fun t => put DTRIP_XTSTATE_LVL k b t ∧
        [DTRIP_XTTSNS_V k, DTRIP_XTTSLO_V k, DTRIP_XTTSHI_V k].map t.fget = tripleOf s.now ∧ edge (16 + k) b s.now t ∧
        OnlyRegs [DTRIP_XTSTATE_LVL, DTRIP_XTTSNS_V k, DTRIP_XTTSLO_V k, DTRIP_XTTSHI_V k] { s with io := { s.io with edges := t.io.edges } } t) ∧
      Completes (.xtPulseEnd k) s (fun t => bitOf t.io.xtPulse k = false ∧ (∀ j, j ≠ k.val → bitOf t.io.xtPulse j = bitOf s.io.xtPulse j) ∧
        t = { s with io := { s.io with xtPulse := t.io.xtPulse } }) ∧
      (s.fbit (PWR_CMP_OUT k) = b → Ignored (.cmpOutputChange k b) s) ∧
      (s.fbit (PWR_CMP_OUT k) ≠ b → Completes (.cmpOutputChange k b) s (fun t => t.fbit (PWR_CMP_OUT k) = b ∧ edge (20 + k) b s.now t ∧
        OnlyRegs [PWR_CMP_OUT k] { s with io := { s.io with edges := t.io.edges } } t))) ∧
    (WriteGranted rq 0xF000140300 s →
      ((∃ k < 4, v.getLsbD k = true ∧ s.owner (8 + k) ≠ 1) → Completes (.xtdrvWrite rq v) s (Refused .denied s)) ∧
      ((∀ k < 4, v.getLsbD k = true → s.owner (8 + k) = 1) → Completes (.xtdrvWrite rq v) s (fun t =>
        t.fget DTRIP_XTDRV_D = v.toNat % 16 ∧ Accepted [DTRIP_XTDRV_D] s t)))

/-- Slots, cages, trip lines and captured inputs. Where the spec leaves a point open it follows the model's choice:
assumptions 117, 151, 155. -/
def Obligations.BackplaneAndTripLines : Prop := SlotsAndCages ∧ TripLinesAndInputs

/-! ### Ends of block commands (R499) -/

/-- COMMAND_COMPLETE ends the command that a block runs: its BUSY bit becomes 0 and nothing else changes, but that an
exchange that passed its checks shows DONE and that a life-cycle transition refused by fuse verification ends with ERR
= 6 and an event. A table activation, a reset or freeze of a VPI and an exchange in its transfer phase end by commands
of their own (R499). Where the spec leaves a point open it follows the model's choice: assumptions 11, 165. -/
def Obligations.BlockCommandsComplete : Prop :=
  ∀ s : State,
    let ends := fun (b : CmdBlk) (f : Fld) =>
      Completes (.commandComplete b) s (fun t => t.fget f = 0 ∧ OnlyRegs [f] s t)
    (s.net.actErr = none → ends .netsw NETSW_STSTAT_BUSY) ∧
    (s.net.actErr ≠ none → Ignored (.commandComplete .netsw) s) ∧
    ends .sfe SFE_CMDSTAT_BUSY ∧ ends .wams WAMS_CMDSTAT_BUSY ∧ ends .acq ACQ_CMDSTAT_BUSY ∧
    ends .iobus IOBUS_CMDSTAT_BUSY ∧ ends .key KEY_CMDSTAT_BUSY ∧ ends .sfp IDBUS_SFPSTAT_BUSY ∧
    (let long := s.fget VPI_CMDSTAT_ERR = 0 ∧ ∃ i : Fin 64, s.vpis[i].freezing = true ∨ s.vpis[i].st = .resetting
     (long → Ignored (.commandComplete .vpi) s) ∧ (¬ long → ends .vpi VPI_CMDSTAT_BUSY)) ∧
    (s.fget VPI_TXSTAT_BUSY = 0 ∨ s.fget VPI_TXCMD_CMD = 2 → Ignored (.commandComplete .vpiTx) s) ∧
    (s.fget VPI_TXSTAT_BUSY ≠ 0 → s.fget VPI_TXCMD_CMD ≠ 2 →
      (s.fget VPI_TXSTAT_ERR ≠ 0 → ends .vpiTx VPI_TXSTAT_BUSY) ∧
      (s.fget VPI_TXSTAT_ERR = 0 → Completes (.commandComplete .vpiTx) s (fun t =>
        t.fget VPI_TXSTAT_BUSY = 0 ∧ t.fget VPI_TXSTAT_DONE = 1 ∧ OnlyRegs [VPI_TXSTAT_BUSY, VPI_TXSTAT_DONE] s t))) ∧
    (s.sec.next = none → ends .life LIFE_CMDSTAT_BUSY) ∧
    (s.sec.next ≠ none → LogRoom s → Completes (.commandComplete .life) s (fun t =>
      t.fget LIFE_CMDSTAT_BUSY = 0 ∧ t.fget LIFE_CMDSTAT_ERR = 6 ∧
      OnlyRegs [LIFE_CMDSTAT_BUSY, LIFE_CMDSTAT_ERR]
        { s with sec := { s.sec with next := none },
                 log := logPlus s [eventOf s LIFE_CMDSTAT_ERR true 6 0xFF [6]] } t))

/-! ### Reset and the canonical form of memory -/

/-- The values that the spec states for power-on reset: the counter at zero with VALID = 0 and the nominal increment (R32, R33), M0
running in mode S with translation off, M1 to M3 in reset, cluster and analytic lanes off with their domains, PD_FAB, PD_NET,
PD_SFE and PD_DRAM on (R461, R74), no VPI (R320), an empty event log (R392), no protection-ready, and the clock sources and
operating point of the register map. That nothing waits in the queue is the model's own. -/
def Sys2Proof.Machine.ResetStateIsAsStated : Prop :=
  let s := State.reset
  let on : List Fld := [PWR_DSTATE_D5, PWR_DSTATE_D6, PWR_DSTATE_D7, PWR_DSTATE_D9]
  let off : List Fld := [PWR_DSTATE_D0, PWR_DSTATE_D1, PWR_DSTATE_D2, PWR_DSTATE_D3, PWR_DSTATE_D4, PWR_DSTATE_D8]
  s.pending = [] ∧ s.tb.count = 0 ∧ s.tb.incr = 0x40000000 ∧ s.fget TB_INCR_INCR = 0x40000000 ∧ s.fget TB_STAT_VALID = 0 ∧
  (s.lane 40).st = .running ∧ (∀ i : Fin 52, i.val = 41 ∨ i.val = 42 ∨ i.val = 43 → (s.lane i).st = .reset) ∧
  (∀ i : Fin 52, i.val < 40 ∨ 44 ≤ i.val → (s.lane i).st = .off) ∧
  (∀ i : Fin 52, (s.lane i).f.status = ⟨true, false, .s, false, false, false⟩ ∧ (s.lane i).inG = false) ∧
  (∀ f ∈ on, s.fget f = 1) ∧ (∀ f ∈ off, s.fget f = 0) ∧
  s.log.queue = [] ∧ s.log.slots = [] ∧ (∀ i : Fin 64, s.vpis[i].st = .off ∧ s.vpis[i].ent.v = false) ∧
  s.fget SYS_STAT_PREADY = 0 ∧ s.fget SYS_RSTCAUSE_CAUSE = 1 ∧ s.fget BEZEL_OPTGT_OP = 2 ∧ s.fget CLK_STAT_BEATSRC = 0 ∧ s.fget CLK_STAT_MGTSRC = 0

/-- The memories of the machine have their canonical form at reset: they list nothing. -/
def Sys2Proof.Machine.ResetMemoriesAreCanonical : Prop := MemsCanonical State.reset

/-- Power-on reset: the stated values, and memories in canonical form. Where the spec leaves a point open it follows the
model's choice: assumptions 3, 4, 17, 37. -/
def Obligations.ResetLeavesTheStatedState : Prop := ResetStateIsAsStated ∧ ResetMemoriesAreCanonical

/-- Whatever command is in front of the queue, and with the queue empty, a step from a state whose memories have the
canonical form ends in a state whose memories have it: the addresses of DRAM, of the lane, cluster and management
memories, of the publisher memory, of the retention memory and of flash rise strictly and no listed byte is 0. Where
the spec leaves a point open it follows the model's choice: assumption 4. -/
def Obligations.EveryStepKeepsMemoryCanonical : Prop :=
  ∀ s t : State, MemsCanonical s → step s = .next t → MemsCanonical t
end

