-- ==== Sys2Proof/Laws/State.lean ====
section
/-! SUPPORT. What each update of the state leaves in each field: one lemma per field per update. -/
namespace Sys2Proof.Machine

/-! ### fset -/

@[simp] theorem State.fset_variant (f : Fld) (v : Nat) (s : State) : (s.fset f v).variant = s.variant := rfl
@[simp] theorem State.fset_regs (f : Fld) (v : Nat) (s : State) : (s.fset f v).regs = ainsert f.key (v % 2 ^ f.width) s.regs := rfl
@[simp] theorem State.fset_mem (f : Fld) (v : Nat) (s : State) : (s.fset f v).mem = s.mem := rfl
@[simp] theorem State.fset_pubMem (f : Fld) (v : Nat) (s : State) : (s.fset f v).pubMem = s.pubMem := rfl
@[simp] theorem State.fset_retMem (f : Fld) (v : Nat) (s : State) : (s.fset f v).retMem = s.retMem := rfl
@[simp] theorem State.fset_flash (f : Fld) (v : Nat) (s : State) : (s.fset f v).flash = s.flash := rfl
@[simp] theorem State.fset_ecc (f : Fld) (v : Nat) (s : State) : (s.fset f v).ecc = s.ecc := rfl
@[simp] theorem State.fset_cecc (f : Fld) (v : Nat) (s : State) : (s.fset f v).cecc = s.cecc := rfl
@[simp] theorem State.fset_tb (f : Fld) (v : Nat) (s : State) : (s.fset f v).tb = s.tb := rfl
@[simp] theorem State.fset_since (f : Fld) (v : Nat) (s : State) : (s.fset f v).since = s.since := rfl
@[simp] theorem State.fset_lanes (f : Fld) (v : Nat) (s : State) : (s.fset f v).lanes = s.lanes := rfl
@[simp] theorem State.fset_dlogs (f : Fld) (v : Nat) (s : State) : (s.fset f v).dlogs = s.dlogs := rfl
@[simp] theorem State.fset_bezel (f : Fld) (v : Nat) (s : State) : (s.fset f v).bezel = s.bezel := rfl
@[simp] theorem State.fset_tasks (f : Fld) (v : Nat) (s : State) : (s.fset f v).tasks = s.tasks := rfl
@[simp] theorem State.fset_tokens (f : Fld) (v : Nat) (s : State) : (s.fset f v).tokens = s.tokens := rfl
@[simp] theorem State.fset_arbs (f : Fld) (v : Nat) (s : State) : (s.fset f v).arbs = s.arbs := rfl
@[simp] theorem State.fset_resv (f : Fld) (v : Nat) (s : State) : (s.fset f v).resv = s.resv := rfl
@[simp] theorem State.fset_vpis (f : Fld) (v : Nat) (s : State) : (s.fset f v).vpis = s.vpis := rfl
@[simp] theorem State.fset_pubs (f : Fld) (v : Nat) (s : State) : (s.fset f v).pubs = s.pubs := rfl
@[simp] theorem State.fset_subs (f : Fld) (v : Nat) (s : State) : (s.fset f v).subs = s.subs := rfl
@[simp] theorem State.fset_fo (f : Fld) (v : Nat) (s : State) : (s.fset f v).fo = s.fo := rfl
@[simp] theorem State.fset_log (f : Fld) (v : Nat) (s : State) : (s.fset f v).log = s.log := rfl
@[simp] theorem State.fset_recs (f : Fld) (v : Nat) (s : State) : (s.fset f v).recs = s.recs := rfl
@[simp] theorem State.fset_net (f : Fld) (v : Nat) (s : State) : (s.fset f v).net = s.net := rfl
@[simp] theorem State.fset_keys (f : Fld) (v : Nat) (s : State) : (s.fset f v).keys = s.keys := rfl
@[simp] theorem State.fset_clasp (f : Fld) (v : Nat) (s : State) : (s.fset f v).clasp = s.clasp := rfl
@[simp] theorem State.fset_io (f : Fld) (v : Nat) (s : State) : (s.fset f v).io = s.io := rfl
@[simp] theorem State.fset_sfe (f : Fld) (v : Nat) (s : State) : (s.fset f v).sfe = s.sfe := rfl
@[simp] theorem State.fset_wams (f : Fld) (v : Nat) (s : State) : (s.fset f v).wams = s.wams := rfl
@[simp] theorem State.fset_power (f : Fld) (v : Nat) (s : State) : (s.fset f v).power = s.power := rfl
@[simp] theorem State.fset_locket (f : Fld) (v : Nat) (s : State) : (s.fset f v).locket = s.locket := rfl
@[simp] theorem State.fset_sec (f : Fld) (v : Nat) (s : State) : (s.fset f v).sec = s.sec := rfl
@[simp] theorem State.fset_resp (f : Fld) (v : Nat) (s : State) : (s.fset f v).resp = s.resp := rfl
@[simp] theorem State.fset_rdata (f : Fld) (v : Nat) (s : State) : (s.fset f v).rdata = s.rdata := rfl
@[simp] theorem State.fset_draws (f : Fld) (v : Nat) (s : State) : (s.fset f v).draws = s.draws := rfl
@[simp] theorem State.fset_pending (f : Fld) (v : Nat) (s : State) : (s.fset f v).pending = s.pending := rfl

/-! ### modLane -/

@[simp] theorem State.modLane_variant (i : Fin 52) (f : Lane → Lane) (s : State) : (s.modLane i f).variant = s.variant := rfl
@[simp] theorem State.modLane_regs (i : Fin 52) (f : Lane → Lane) (s : State) : (s.modLane i f).regs = s.regs := rfl
@[simp] theorem State.modLane_mem (i : Fin 52) (f : Lane → Lane) (s : State) : (s.modLane i f).mem = s.mem := rfl
@[simp] theorem State.modLane_pubMem (i : Fin 52) (f : Lane → Lane) (s : State) : (s.modLane i f).pubMem = s.pubMem := rfl
@[simp] theorem State.modLane_retMem (i : Fin 52) (f : Lane → Lane) (s : State) : (s.modLane i f).retMem = s.retMem := rfl
@[simp] theorem State.modLane_flash (i : Fin 52) (f : Lane → Lane) (s : State) : (s.modLane i f).flash = s.flash := rfl
@[simp] theorem State.modLane_ecc (i : Fin 52) (f : Lane → Lane) (s : State) : (s.modLane i f).ecc = s.ecc := rfl
@[simp] theorem State.modLane_cecc (i : Fin 52) (f : Lane → Lane) (s : State) : (s.modLane i f).cecc = s.cecc := rfl
@[simp] theorem State.modLane_tb (i : Fin 52) (f : Lane → Lane) (s : State) : (s.modLane i f).tb = s.tb := rfl
@[simp] theorem State.modLane_since (i : Fin 52) (f : Lane → Lane) (s : State) : (s.modLane i f).since = s.since := rfl
@[simp] theorem State.modLane_lanes (i : Fin 52) (f : Lane → Lane) (s : State) : (s.modLane i f).lanes = s.lanes.set i (f s.lanes[i]) := rfl
@[simp] theorem State.modLane_dlogs (i : Fin 52) (f : Lane → Lane) (s : State) : (s.modLane i f).dlogs = s.dlogs := rfl
@[simp] theorem State.modLane_bezel (i : Fin 52) (f : Lane → Lane) (s : State) : (s.modLane i f).bezel = s.bezel := rfl
@[simp] theorem State.modLane_tasks (i : Fin 52) (f : Lane → Lane) (s : State) : (s.modLane i f).tasks = s.tasks := rfl
@[simp] theorem State.modLane_tokens (i : Fin 52) (f : Lane → Lane) (s : State) : (s.modLane i f).tokens = s.tokens := rfl
@[simp] theorem State.modLane_arbs (i : Fin 52) (f : Lane → Lane) (s : State) : (s.modLane i f).arbs = s.arbs := rfl
@[simp] theorem State.modLane_resv (i : Fin 52) (f : Lane → Lane) (s : State) : (s.modLane i f).resv = s.resv := rfl
@[simp] theorem State.modLane_vpis (i : Fin 52) (f : Lane → Lane) (s : State) : (s.modLane i f).vpis = s.vpis := rfl
@[simp] theorem State.modLane_pubs (i : Fin 52) (f : Lane → Lane) (s : State) : (s.modLane i f).pubs = s.pubs := rfl
@[simp] theorem State.modLane_subs (i : Fin 52) (f : Lane → Lane) (s : State) : (s.modLane i f).subs = s.subs := rfl
@[simp] theorem State.modLane_fo (i : Fin 52) (f : Lane → Lane) (s : State) : (s.modLane i f).fo = s.fo := rfl
@[simp] theorem State.modLane_log (i : Fin 52) (f : Lane → Lane) (s : State) : (s.modLane i f).log = s.log := rfl
@[simp] theorem State.modLane_recs (i : Fin 52) (f : Lane → Lane) (s : State) : (s.modLane i f).recs = s.recs := rfl
@[simp] theorem State.modLane_net (i : Fin 52) (f : Lane → Lane) (s : State) : (s.modLane i f).net = s.net := rfl
@[simp] theorem State.modLane_keys (i : Fin 52) (f : Lane → Lane) (s : State) : (s.modLane i f).keys = s.keys := rfl
@[simp] theorem State.modLane_clasp (i : Fin 52) (f : Lane → Lane) (s : State) : (s.modLane i f).clasp = s.clasp := rfl
@[simp] theorem State.modLane_io (i : Fin 52) (f : Lane → Lane) (s : State) : (s.modLane i f).io = s.io := rfl
@[simp] theorem State.modLane_sfe (i : Fin 52) (f : Lane → Lane) (s : State) : (s.modLane i f).sfe = s.sfe := rfl
@[simp] theorem State.modLane_wams (i : Fin 52) (f : Lane → Lane) (s : State) : (s.modLane i f).wams = s.wams := rfl
@[simp] theorem State.modLane_power (i : Fin 52) (f : Lane → Lane) (s : State) : (s.modLane i f).power = s.power := rfl
@[simp] theorem State.modLane_locket (i : Fin 52) (f : Lane → Lane) (s : State) : (s.modLane i f).locket = s.locket := rfl
@[simp] theorem State.modLane_sec (i : Fin 52) (f : Lane → Lane) (s : State) : (s.modLane i f).sec = s.sec := rfl
@[simp] theorem State.modLane_resp (i : Fin 52) (f : Lane → Lane) (s : State) : (s.modLane i f).resp = s.resp := rfl
@[simp] theorem State.modLane_rdata (i : Fin 52) (f : Lane → Lane) (s : State) : (s.modLane i f).rdata = s.rdata := rfl
@[simp] theorem State.modLane_draws (i : Fin 52) (f : Lane → Lane) (s : State) : (s.modLane i f).draws = s.draws := rfl
@[simp] theorem State.modLane_pending (i : Fin 52) (f : Lane → Lane) (s : State) : (s.modLane i f).pending = s.pending := rfl

/-! ### complete -/

@[simp] theorem State.complete_variant (r : Rsp) (d : Nat) (s : State) : (s.complete r d).variant = s.variant := rfl
@[simp] theorem State.complete_regs (r : Rsp) (d : Nat) (s : State) : (s.complete r d).regs = s.regs := rfl
@[simp] theorem State.complete_mem (r : Rsp) (d : Nat) (s : State) : (s.complete r d).mem = s.mem := rfl
@[simp] theorem State.complete_pubMem (r : Rsp) (d : Nat) (s : State) : (s.complete r d).pubMem = s.pubMem := rfl
@[simp] theorem State.complete_retMem (r : Rsp) (d : Nat) (s : State) : (s.complete r d).retMem = s.retMem := rfl
@[simp] theorem State.complete_flash (r : Rsp) (d : Nat) (s : State) : (s.complete r d).flash = s.flash := rfl
@[simp] theorem State.complete_ecc (r : Rsp) (d : Nat) (s : State) : (s.complete r d).ecc = s.ecc := rfl
@[simp] theorem State.complete_cecc (r : Rsp) (d : Nat) (s : State) : (s.complete r d).cecc = s.cecc := rfl
@[simp] theorem State.complete_tb (r : Rsp) (d : Nat) (s : State) : (s.complete r d).tb = s.tb := rfl
@[simp] theorem State.complete_since (r : Rsp) (d : Nat) (s : State) : (s.complete r d).since = s.since := rfl
@[simp] theorem State.complete_lanes (r : Rsp) (d : Nat) (s : State) : (s.complete r d).lanes = s.lanes := rfl
@[simp] theorem State.complete_dlogs (r : Rsp) (d : Nat) (s : State) : (s.complete r d).dlogs = s.dlogs := rfl
@[simp] theorem State.complete_bezel (r : Rsp) (d : Nat) (s : State) : (s.complete r d).bezel = s.bezel := rfl
@[simp] theorem State.complete_tasks (r : Rsp) (d : Nat) (s : State) : (s.complete r d).tasks = s.tasks := rfl
@[simp] theorem State.complete_tokens (r : Rsp) (d : Nat) (s : State) : (s.complete r d).tokens = s.tokens := rfl
@[simp] theorem State.complete_arbs (r : Rsp) (d : Nat) (s : State) : (s.complete r d).arbs = s.arbs := rfl
@[simp] theorem State.complete_resv (r : Rsp) (d : Nat) (s : State) : (s.complete r d).resv = s.resv := rfl
@[simp] theorem State.complete_vpis (r : Rsp) (d : Nat) (s : State) : (s.complete r d).vpis = s.vpis := rfl
@[simp] theorem State.complete_pubs (r : Rsp) (d : Nat) (s : State) : (s.complete r d).pubs = s.pubs := rfl
@[simp] theorem State.complete_subs (r : Rsp) (d : Nat) (s : State) : (s.complete r d).subs = s.subs := rfl
@[simp] theorem State.complete_fo (r : Rsp) (d : Nat) (s : State) : (s.complete r d).fo = s.fo := rfl
@[simp] theorem State.complete_log (r : Rsp) (d : Nat) (s : State) : (s.complete r d).log = s.log := rfl
@[simp] theorem State.complete_recs (r : Rsp) (d : Nat) (s : State) : (s.complete r d).recs = s.recs := rfl
@[simp] theorem State.complete_net (r : Rsp) (d : Nat) (s : State) : (s.complete r d).net = s.net := rfl
@[simp] theorem State.complete_keys (r : Rsp) (d : Nat) (s : State) : (s.complete r d).keys = s.keys := rfl
@[simp] theorem State.complete_clasp (r : Rsp) (d : Nat) (s : State) : (s.complete r d).clasp = s.clasp := rfl
@[simp] theorem State.complete_io (r : Rsp) (d : Nat) (s : State) : (s.complete r d).io = s.io := rfl
@[simp] theorem State.complete_sfe (r : Rsp) (d : Nat) (s : State) : (s.complete r d).sfe = s.sfe := rfl
@[simp] theorem State.complete_wams (r : Rsp) (d : Nat) (s : State) : (s.complete r d).wams = s.wams := rfl
@[simp] theorem State.complete_power (r : Rsp) (d : Nat) (s : State) : (s.complete r d).power = s.power := rfl
@[simp] theorem State.complete_locket (r : Rsp) (d : Nat) (s : State) : (s.complete r d).locket = s.locket := rfl
@[simp] theorem State.complete_sec (r : Rsp) (d : Nat) (s : State) : (s.complete r d).sec = s.sec := rfl
@[simp] theorem State.complete_resp (r : Rsp) (d : Nat) (s : State) : (s.complete r d).resp = r := rfl
@[simp] theorem State.complete_rdata (r : Rsp) (d : Nat) (s : State) : (s.complete r d).rdata = if r = .ok then d % 2 ^ 32 else 0xFFFFFFFF := rfl
@[simp] theorem State.complete_draws (r : Rsp) (d : Nat) (s : State) : (s.complete r d).draws = s.draws := rfl
@[simp] theorem State.complete_pending (r : Rsp) (d : Nat) (s : State) : (s.complete r d).pending = s.pending := rfl

/-! ### wr -/

@[simp] theorem State.wr_variant (a : Nat) (bs : List Byte) (s : State) : (s.wr a bs).variant = s.variant := rfl
@[simp] theorem State.wr_regs (a : Nat) (bs : List Byte) (s : State) : (s.wr a bs).regs = s.regs := rfl
@[simp] theorem State.wr_mem (a : Nat) (bs : List Byte) (s : State) : (s.wr a bs).mem = memWrite s.mem a bs := rfl
@[simp] theorem State.wr_pubMem (a : Nat) (bs : List Byte) (s : State) : (s.wr a bs).pubMem = s.pubMem := rfl
@[simp] theorem State.wr_retMem (a : Nat) (bs : List Byte) (s : State) : (s.wr a bs).retMem = s.retMem := rfl
@[simp] theorem State.wr_flash (a : Nat) (bs : List Byte) (s : State) : (s.wr a bs).flash = s.flash := rfl
@[simp] theorem State.wr_tb (a : Nat) (bs : List Byte) (s : State) : (s.wr a bs).tb = s.tb := rfl
@[simp] theorem State.wr_since (a : Nat) (bs : List Byte) (s : State) : (s.wr a bs).since = s.since := rfl
@[simp] theorem State.wr_lanes (a : Nat) (bs : List Byte) (s : State) : (s.wr a bs).lanes = s.lanes := rfl
@[simp] theorem State.wr_dlogs (a : Nat) (bs : List Byte) (s : State) : (s.wr a bs).dlogs = s.dlogs := rfl
@[simp] theorem State.wr_bezel (a : Nat) (bs : List Byte) (s : State) : (s.wr a bs).bezel = s.bezel := rfl
@[simp] theorem State.wr_tasks (a : Nat) (bs : List Byte) (s : State) : (s.wr a bs).tasks = s.tasks := rfl
@[simp] theorem State.wr_tokens (a : Nat) (bs : List Byte) (s : State) : (s.wr a bs).tokens = s.tokens := rfl
@[simp] theorem State.wr_arbs (a : Nat) (bs : List Byte) (s : State) : (s.wr a bs).arbs = s.arbs := rfl
@[simp] theorem State.wr_resv (a : Nat) (bs : List Byte) (s : State) : (s.wr a bs).resv = s.resv := rfl
@[simp] theorem State.wr_vpis (a : Nat) (bs : List Byte) (s : State) : (s.wr a bs).vpis = s.vpis := rfl
@[simp] theorem State.wr_pubs (a : Nat) (bs : List Byte) (s : State) : (s.wr a bs).pubs = s.pubs := rfl
@[simp] theorem State.wr_subs (a : Nat) (bs : List Byte) (s : State) : (s.wr a bs).subs = s.subs := rfl
@[simp] theorem State.wr_fo (a : Nat) (bs : List Byte) (s : State) : (s.wr a bs).fo = s.fo := rfl
@[simp] theorem State.wr_log (a : Nat) (bs : List Byte) (s : State) : (s.wr a bs).log = s.log := rfl
@[simp] theorem State.wr_recs (a : Nat) (bs : List Byte) (s : State) : (s.wr a bs).recs = s.recs := rfl
@[simp] theorem State.wr_net (a : Nat) (bs : List Byte) (s : State) : (s.wr a bs).net = s.net := rfl
@[simp] theorem State.wr_keys (a : Nat) (bs : List Byte) (s : State) : (s.wr a bs).keys = s.keys := rfl
@[simp] theorem State.wr_clasp (a : Nat) (bs : List Byte) (s : State) : (s.wr a bs).clasp = s.clasp := rfl
@[simp] theorem State.wr_io (a : Nat) (bs : List Byte) (s : State) : (s.wr a bs).io = s.io := rfl
@[simp] theorem State.wr_sfe (a : Nat) (bs : List Byte) (s : State) : (s.wr a bs).sfe = s.sfe := rfl
@[simp] theorem State.wr_wams (a : Nat) (bs : List Byte) (s : State) : (s.wr a bs).wams = s.wams := rfl
@[simp] theorem State.wr_power (a : Nat) (bs : List Byte) (s : State) : (s.wr a bs).power = s.power := rfl
@[simp] theorem State.wr_locket (a : Nat) (bs : List Byte) (s : State) : (s.wr a bs).locket = s.locket := rfl
@[simp] theorem State.wr_sec (a : Nat) (bs : List Byte) (s : State) : (s.wr a bs).sec = s.sec := rfl
@[simp] theorem State.wr_resp (a : Nat) (bs : List Byte) (s : State) : (s.wr a bs).resp = s.resp := rfl
@[simp] theorem State.wr_rdata (a : Nat) (bs : List Byte) (s : State) : (s.wr a bs).rdata = s.rdata := rfl
@[simp] theorem State.wr_draws (a : Nat) (bs : List Byte) (s : State) : (s.wr a bs).draws = s.draws := rfl
@[simp] theorem State.wr_pending (a : Nat) (bs : List Byte) (s : State) : (s.wr a bs).pending = s.pending := rfl

/-! ### wipe -/

@[simp] theorem State.wipe_variant (a n : Nat) (s : State) : (s.wipe a n).variant = s.variant := rfl
@[simp] theorem State.wipe_regs (a n : Nat) (s : State) : (s.wipe a n).regs = s.regs := rfl
@[simp] theorem State.wipe_mem (a n : Nat) (s : State) : (s.wipe a n).mem = memClear s.mem a n := rfl
@[simp] theorem State.wipe_pubMem (a n : Nat) (s : State) : (s.wipe a n).pubMem = s.pubMem := rfl
@[simp] theorem State.wipe_retMem (a n : Nat) (s : State) : (s.wipe a n).retMem = s.retMem := rfl
@[simp] theorem State.wipe_flash (a n : Nat) (s : State) : (s.wipe a n).flash = s.flash := rfl
@[simp] theorem State.wipe_tb (a n : Nat) (s : State) : (s.wipe a n).tb = s.tb := rfl
@[simp] theorem State.wipe_since (a n : Nat) (s : State) : (s.wipe a n).since = s.since := rfl
@[simp] theorem State.wipe_lanes (a n : Nat) (s : State) : (s.wipe a n).lanes = s.lanes := rfl
@[simp] theorem State.wipe_dlogs (a n : Nat) (s : State) : (s.wipe a n).dlogs = s.dlogs := rfl
@[simp] theorem State.wipe_bezel (a n : Nat) (s : State) : (s.wipe a n).bezel = s.bezel := rfl
@[simp] theorem State.wipe_tasks (a n : Nat) (s : State) : (s.wipe a n).tasks = s.tasks := rfl
@[simp] theorem State.wipe_tokens (a n : Nat) (s : State) : (s.wipe a n).tokens = s.tokens := rfl
@[simp] theorem State.wipe_arbs (a n : Nat) (s : State) : (s.wipe a n).arbs = s.arbs := rfl
@[simp] theorem State.wipe_resv (a n : Nat) (s : State) : (s.wipe a n).resv = s.resv := rfl
@[simp] theorem State.wipe_vpis (a n : Nat) (s : State) : (s.wipe a n).vpis = s.vpis := rfl
@[simp] theorem State.wipe_pubs (a n : Nat) (s : State) : (s.wipe a n).pubs = s.pubs := rfl
@[simp] theorem State.wipe_subs (a n : Nat) (s : State) : (s.wipe a n).subs = s.subs := rfl
@[simp] theorem State.wipe_fo (a n : Nat) (s : State) : (s.wipe a n).fo = s.fo := rfl
@[simp] theorem State.wipe_log (a n : Nat) (s : State) : (s.wipe a n).log = s.log := rfl
@[simp] theorem State.wipe_recs (a n : Nat) (s : State) : (s.wipe a n).recs = s.recs := rfl
@[simp] theorem State.wipe_net (a n : Nat) (s : State) : (s.wipe a n).net = s.net := rfl
@[simp] theorem State.wipe_keys (a n : Nat) (s : State) : (s.wipe a n).keys = s.keys := rfl
@[simp] theorem State.wipe_clasp (a n : Nat) (s : State) : (s.wipe a n).clasp = s.clasp := rfl
@[simp] theorem State.wipe_io (a n : Nat) (s : State) : (s.wipe a n).io = s.io := rfl
@[simp] theorem State.wipe_sfe (a n : Nat) (s : State) : (s.wipe a n).sfe = s.sfe := rfl
@[simp] theorem State.wipe_wams (a n : Nat) (s : State) : (s.wipe a n).wams = s.wams := rfl
@[simp] theorem State.wipe_power (a n : Nat) (s : State) : (s.wipe a n).power = s.power := rfl
@[simp] theorem State.wipe_locket (a n : Nat) (s : State) : (s.wipe a n).locket = s.locket := rfl
@[simp] theorem State.wipe_sec (a n : Nat) (s : State) : (s.wipe a n).sec = s.sec := rfl
@[simp] theorem State.wipe_resp (a n : Nat) (s : State) : (s.wipe a n).resp = s.resp := rfl
@[simp] theorem State.wipe_rdata (a n : Nat) (s : State) : (s.wipe a n).rdata = s.rdata := rfl
@[simp] theorem State.wipe_draws (a n : Nat) (s : State) : (s.wipe a n).draws = s.draws := rfl
@[simp] theorem State.wipe_pending (a n : Nat) (s : State) : (s.wipe a n).pending = s.pending := rfl

/-! ### setTask -/

@[simp] theorem State.setTask_variant (k : Nat) (x : Task) (s : State) : (s.setTask k x).variant = s.variant := rfl
@[simp] theorem State.setTask_regs (k : Nat) (x : Task) (s : State) : (s.setTask k x).regs = s.regs := rfl
@[simp] theorem State.setTask_mem (k : Nat) (x : Task) (s : State) : (s.setTask k x).mem = s.mem := rfl
@[simp] theorem State.setTask_pubMem (k : Nat) (x : Task) (s : State) : (s.setTask k x).pubMem = s.pubMem := rfl
@[simp] theorem State.setTask_retMem (k : Nat) (x : Task) (s : State) : (s.setTask k x).retMem = s.retMem := rfl
@[simp] theorem State.setTask_flash (k : Nat) (x : Task) (s : State) : (s.setTask k x).flash = s.flash := rfl
@[simp] theorem State.setTask_ecc (k : Nat) (x : Task) (s : State) : (s.setTask k x).ecc = s.ecc := rfl
@[simp] theorem State.setTask_cecc (k : Nat) (x : Task) (s : State) : (s.setTask k x).cecc = s.cecc := rfl
@[simp] theorem State.setTask_tb (k : Nat) (x : Task) (s : State) : (s.setTask k x).tb = s.tb := rfl
@[simp] theorem State.setTask_since (k : Nat) (x : Task) (s : State) : (s.setTask k x).since = s.since := rfl
@[simp] theorem State.setTask_lanes (k : Nat) (x : Task) (s : State) : (s.setTask k x).lanes = s.lanes := rfl
@[simp] theorem State.setTask_dlogs (k : Nat) (x : Task) (s : State) : (s.setTask k x).dlogs = s.dlogs := rfl
@[simp] theorem State.setTask_bezel (k : Nat) (x : Task) (s : State) : (s.setTask k x).bezel = s.bezel := rfl
@[simp] theorem State.setTask_tasks (k : Nat) (x : Task) (s : State) : (s.setTask k x).tasks = ainsert k x s.tasks := rfl
@[simp] theorem State.setTask_tokens (k : Nat) (x : Task) (s : State) : (s.setTask k x).tokens = s.tokens := rfl
@[simp] theorem State.setTask_arbs (k : Nat) (x : Task) (s : State) : (s.setTask k x).arbs = s.arbs := rfl
@[simp] theorem State.setTask_resv (k : Nat) (x : Task) (s : State) : (s.setTask k x).resv = s.resv := rfl
@[simp] theorem State.setTask_vpis (k : Nat) (x : Task) (s : State) : (s.setTask k x).vpis = s.vpis := rfl
@[simp] theorem State.setTask_pubs (k : Nat) (x : Task) (s : State) : (s.setTask k x).pubs = s.pubs := rfl
@[simp] theorem State.setTask_subs (k : Nat) (x : Task) (s : State) : (s.setTask k x).subs = s.subs := rfl
@[simp] theorem State.setTask_fo (k : Nat) (x : Task) (s : State) : (s.setTask k x).fo = s.fo := rfl
@[simp] theorem State.setTask_log (k : Nat) (x : Task) (s : State) : (s.setTask k x).log = s.log := rfl
@[simp] theorem State.setTask_recs (k : Nat) (x : Task) (s : State) : (s.setTask k x).recs = s.recs := rfl
@[simp] theorem State.setTask_net (k : Nat) (x : Task) (s : State) : (s.setTask k x).net = s.net := rfl
@[simp] theorem State.setTask_keys (k : Nat) (x : Task) (s : State) : (s.setTask k x).keys = s.keys := rfl
@[simp] theorem State.setTask_clasp (k : Nat) (x : Task) (s : State) : (s.setTask k x).clasp = s.clasp := rfl
@[simp] theorem State.setTask_io (k : Nat) (x : Task) (s : State) : (s.setTask k x).io = s.io := rfl
@[simp] theorem State.setTask_sfe (k : Nat) (x : Task) (s : State) : (s.setTask k x).sfe = s.sfe := rfl
@[simp] theorem State.setTask_wams (k : Nat) (x : Task) (s : State) : (s.setTask k x).wams = s.wams := rfl
@[simp] theorem State.setTask_power (k : Nat) (x : Task) (s : State) : (s.setTask k x).power = s.power := rfl
@[simp] theorem State.setTask_locket (k : Nat) (x : Task) (s : State) : (s.setTask k x).locket = s.locket := rfl
@[simp] theorem State.setTask_sec (k : Nat) (x : Task) (s : State) : (s.setTask k x).sec = s.sec := rfl
@[simp] theorem State.setTask_resp (k : Nat) (x : Task) (s : State) : (s.setTask k x).resp = s.resp := rfl
@[simp] theorem State.setTask_rdata (k : Nat) (x : Task) (s : State) : (s.setTask k x).rdata = s.rdata := rfl
@[simp] theorem State.setTask_draws (k : Nat) (x : Task) (s : State) : (s.setTask k x).draws = s.draws := rfl
@[simp] theorem State.setTask_pending (k : Nat) (x : Task) (s : State) : (s.setTask k x).pending = s.pending := rfl

/-! ### setPub -/

@[simp] theorem State.setPub_variant (k : Nat) (x : Pub) (s : State) : (s.setPub k x).variant = s.variant := rfl
@[simp] theorem State.setPub_regs (k : Nat) (x : Pub) (s : State) : (s.setPub k x).regs = s.regs := rfl
@[simp] theorem State.setPub_mem (k : Nat) (x : Pub) (s : State) : (s.setPub k x).mem = s.mem := rfl
@[simp] theorem State.setPub_pubMem (k : Nat) (x : Pub) (s : State) : (s.setPub k x).pubMem = s.pubMem := rfl
@[simp] theorem State.setPub_retMem (k : Nat) (x : Pub) (s : State) : (s.setPub k x).retMem = s.retMem := rfl
@[simp] theorem State.setPub_flash (k : Nat) (x : Pub) (s : State) : (s.setPub k x).flash = s.flash := rfl
@[simp] theorem State.setPub_ecc (k : Nat) (x : Pub) (s : State) : (s.setPub k x).ecc = s.ecc := rfl
@[simp] theorem State.setPub_cecc (k : Nat) (x : Pub) (s : State) : (s.setPub k x).cecc = s.cecc := rfl
@[simp] theorem State.setPub_tb (k : Nat) (x : Pub) (s : State) : (s.setPub k x).tb = s.tb := rfl
@[simp] theorem State.setPub_since (k : Nat) (x : Pub) (s : State) : (s.setPub k x).since = s.since := rfl
@[simp] theorem State.setPub_lanes (k : Nat) (x : Pub) (s : State) : (s.setPub k x).lanes = s.lanes := rfl
@[simp] theorem State.setPub_dlogs (k : Nat) (x : Pub) (s : State) : (s.setPub k x).dlogs = s.dlogs := rfl
@[simp] theorem State.setPub_bezel (k : Nat) (x : Pub) (s : State) : (s.setPub k x).bezel = s.bezel := rfl
@[simp] theorem State.setPub_tasks (k : Nat) (x : Pub) (s : State) : (s.setPub k x).tasks = s.tasks := rfl
@[simp] theorem State.setPub_tokens (k : Nat) (x : Pub) (s : State) : (s.setPub k x).tokens = s.tokens := rfl
@[simp] theorem State.setPub_arbs (k : Nat) (x : Pub) (s : State) : (s.setPub k x).arbs = s.arbs := rfl
@[simp] theorem State.setPub_resv (k : Nat) (x : Pub) (s : State) : (s.setPub k x).resv = s.resv := rfl
@[simp] theorem State.setPub_vpis (k : Nat) (x : Pub) (s : State) : (s.setPub k x).vpis = s.vpis := rfl
@[simp] theorem State.setPub_pubs (k : Nat) (x : Pub) (s : State) : (s.setPub k x).pubs = ainsert k x s.pubs := rfl
@[simp] theorem State.setPub_subs (k : Nat) (x : Pub) (s : State) : (s.setPub k x).subs = s.subs := rfl
@[simp] theorem State.setPub_fo (k : Nat) (x : Pub) (s : State) : (s.setPub k x).fo = s.fo := rfl
@[simp] theorem State.setPub_log (k : Nat) (x : Pub) (s : State) : (s.setPub k x).log = s.log := rfl
@[simp] theorem State.setPub_recs (k : Nat) (x : Pub) (s : State) : (s.setPub k x).recs = s.recs := rfl
@[simp] theorem State.setPub_net (k : Nat) (x : Pub) (s : State) : (s.setPub k x).net = s.net := rfl
@[simp] theorem State.setPub_keys (k : Nat) (x : Pub) (s : State) : (s.setPub k x).keys = s.keys := rfl
@[simp] theorem State.setPub_clasp (k : Nat) (x : Pub) (s : State) : (s.setPub k x).clasp = s.clasp := rfl
@[simp] theorem State.setPub_io (k : Nat) (x : Pub) (s : State) : (s.setPub k x).io = s.io := rfl
@[simp] theorem State.setPub_sfe (k : Nat) (x : Pub) (s : State) : (s.setPub k x).sfe = s.sfe := rfl
@[simp] theorem State.setPub_wams (k : Nat) (x : Pub) (s : State) : (s.setPub k x).wams = s.wams := rfl
@[simp] theorem State.setPub_power (k : Nat) (x : Pub) (s : State) : (s.setPub k x).power = s.power := rfl
@[simp] theorem State.setPub_locket (k : Nat) (x : Pub) (s : State) : (s.setPub k x).locket = s.locket := rfl
@[simp] theorem State.setPub_sec (k : Nat) (x : Pub) (s : State) : (s.setPub k x).sec = s.sec := rfl
@[simp] theorem State.setPub_resp (k : Nat) (x : Pub) (s : State) : (s.setPub k x).resp = s.resp := rfl
@[simp] theorem State.setPub_rdata (k : Nat) (x : Pub) (s : State) : (s.setPub k x).rdata = s.rdata := rfl
@[simp] theorem State.setPub_draws (k : Nat) (x : Pub) (s : State) : (s.setPub k x).draws = s.draws := rfl
@[simp] theorem State.setPub_pending (k : Nat) (x : Pub) (s : State) : (s.setPub k x).pending = s.pending := rfl

/-! ### modRec -/

@[simp] theorem State.modRec_variant (r : Fin 32) (f : Recorder → Recorder) (s : State) : (s.modRec r f).variant = s.variant := rfl
@[simp] theorem State.modRec_regs (r : Fin 32) (f : Recorder → Recorder) (s : State) : (s.modRec r f).regs = s.regs := rfl
@[simp] theorem State.modRec_mem (r : Fin 32) (f : Recorder → Recorder) (s : State) : (s.modRec r f).mem = s.mem := rfl
@[simp] theorem State.modRec_pubMem (r : Fin 32) (f : Recorder → Recorder) (s : State) : (s.modRec r f).pubMem = s.pubMem := rfl
@[simp] theorem State.modRec_retMem (r : Fin 32) (f : Recorder → Recorder) (s : State) : (s.modRec r f).retMem = s.retMem := rfl
@[simp] theorem State.modRec_flash (r : Fin 32) (f : Recorder → Recorder) (s : State) : (s.modRec r f).flash = s.flash := rfl
@[simp] theorem State.modRec_ecc (r : Fin 32) (f : Recorder → Recorder) (s : State) : (s.modRec r f).ecc = s.ecc := rfl
@[simp] theorem State.modRec_cecc (r : Fin 32) (f : Recorder → Recorder) (s : State) : (s.modRec r f).cecc = s.cecc := rfl
@[simp] theorem State.modRec_tb (r : Fin 32) (f : Recorder → Recorder) (s : State) : (s.modRec r f).tb = s.tb := rfl
@[simp] theorem State.modRec_since (r : Fin 32) (f : Recorder → Recorder) (s : State) : (s.modRec r f).since = s.since := rfl
@[simp] theorem State.modRec_lanes (r : Fin 32) (f : Recorder → Recorder) (s : State) : (s.modRec r f).lanes = s.lanes := rfl
@[simp] theorem State.modRec_dlogs (r : Fin 32) (f : Recorder → Recorder) (s : State) : (s.modRec r f).dlogs = s.dlogs := rfl
@[simp] theorem State.modRec_bezel (r : Fin 32) (f : Recorder → Recorder) (s : State) : (s.modRec r f).bezel = s.bezel := rfl
@[simp] theorem State.modRec_tasks (r : Fin 32) (f : Recorder → Recorder) (s : State) : (s.modRec r f).tasks = s.tasks := rfl
@[simp] theorem State.modRec_tokens (r : Fin 32) (f : Recorder → Recorder) (s : State) : (s.modRec r f).tokens = s.tokens := rfl
@[simp] theorem State.modRec_arbs (r : Fin 32) (f : Recorder → Recorder) (s : State) : (s.modRec r f).arbs = s.arbs := rfl
@[simp] theorem State.modRec_resv (r : Fin 32) (f : Recorder → Recorder) (s : State) : (s.modRec r f).resv = s.resv := rfl
@[simp] theorem State.modRec_vpis (r : Fin 32) (f : Recorder → Recorder) (s : State) : (s.modRec r f).vpis = s.vpis := rfl
@[simp] theorem State.modRec_pubs (r : Fin 32) (f : Recorder → Recorder) (s : State) : (s.modRec r f).pubs = s.pubs := rfl
@[simp] theorem State.modRec_subs (r : Fin 32) (f : Recorder → Recorder) (s : State) : (s.modRec r f).subs = s.subs := rfl
@[simp] theorem State.modRec_fo (r : Fin 32) (f : Recorder → Recorder) (s : State) : (s.modRec r f).fo = s.fo := rfl
@[simp] theorem State.modRec_log (r : Fin 32) (f : Recorder → Recorder) (s : State) : (s.modRec r f).log = s.log := rfl
@[simp] theorem State.modRec_net (r : Fin 32) (f : Recorder → Recorder) (s : State) : (s.modRec r f).net = s.net := rfl
@[simp] theorem State.modRec_keys (r : Fin 32) (f : Recorder → Recorder) (s : State) : (s.modRec r f).keys = s.keys := rfl
@[simp] theorem State.modRec_clasp (r : Fin 32) (f : Recorder → Recorder) (s : State) : (s.modRec r f).clasp = s.clasp := rfl
@[simp] theorem State.modRec_io (r : Fin 32) (f : Recorder → Recorder) (s : State) : (s.modRec r f).io = s.io := rfl
@[simp] theorem State.modRec_sfe (r : Fin 32) (f : Recorder → Recorder) (s : State) : (s.modRec r f).sfe = s.sfe := rfl
@[simp] theorem State.modRec_wams (r : Fin 32) (f : Recorder → Recorder) (s : State) : (s.modRec r f).wams = s.wams := rfl
@[simp] theorem State.modRec_power (r : Fin 32) (f : Recorder → Recorder) (s : State) : (s.modRec r f).power = s.power := rfl
@[simp] theorem State.modRec_locket (r : Fin 32) (f : Recorder → Recorder) (s : State) : (s.modRec r f).locket = s.locket := rfl
@[simp] theorem State.modRec_sec (r : Fin 32) (f : Recorder → Recorder) (s : State) : (s.modRec r f).sec = s.sec := rfl
@[simp] theorem State.modRec_resp (r : Fin 32) (f : Recorder → Recorder) (s : State) : (s.modRec r f).resp = s.resp := rfl
@[simp] theorem State.modRec_rdata (r : Fin 32) (f : Recorder → Recorder) (s : State) : (s.modRec r f).rdata = s.rdata := rfl
@[simp] theorem State.modRec_draws (r : Fin 32) (f : Recorder → Recorder) (s : State) : (s.modRec r f).draws = s.draws := rfl
@[simp] theorem State.modRec_pending (r : Fin 32) (f : Recorder → Recorder) (s : State) : (s.modRec r f).pending = s.pending := rfl

/-! ### modTb -/

@[simp] theorem State.modTb_variant (f : TimeBase → TimeBase) (s : State) : (s.modTb f).variant = s.variant := rfl
@[simp] theorem State.modTb_regs (f : TimeBase → TimeBase) (s : State) : (s.modTb f).regs = s.regs := rfl
@[simp] theorem State.modTb_mem (f : TimeBase → TimeBase) (s : State) : (s.modTb f).mem = s.mem := rfl
@[simp] theorem State.modTb_pubMem (f : TimeBase → TimeBase) (s : State) : (s.modTb f).pubMem = s.pubMem := rfl
@[simp] theorem State.modTb_retMem (f : TimeBase → TimeBase) (s : State) : (s.modTb f).retMem = s.retMem := rfl
@[simp] theorem State.modTb_flash (f : TimeBase → TimeBase) (s : State) : (s.modTb f).flash = s.flash := rfl
@[simp] theorem State.modTb_ecc (f : TimeBase → TimeBase) (s : State) : (s.modTb f).ecc = s.ecc := rfl
@[simp] theorem State.modTb_cecc (f : TimeBase → TimeBase) (s : State) : (s.modTb f).cecc = s.cecc := rfl
@[simp] theorem State.modTb_tb (f : TimeBase → TimeBase) (s : State) : (s.modTb f).tb = f s.tb := rfl
@[simp] theorem State.modTb_since (f : TimeBase → TimeBase) (s : State) : (s.modTb f).since = s.since := rfl
@[simp] theorem State.modTb_lanes (f : TimeBase → TimeBase) (s : State) : (s.modTb f).lanes = s.lanes := rfl
@[simp] theorem State.modTb_dlogs (f : TimeBase → TimeBase) (s : State) : (s.modTb f).dlogs = s.dlogs := rfl
@[simp] theorem State.modTb_bezel (f : TimeBase → TimeBase) (s : State) : (s.modTb f).bezel = s.bezel := rfl
@[simp] theorem State.modTb_tasks (f : TimeBase → TimeBase) (s : State) : (s.modTb f).tasks = s.tasks := rfl
@[simp] theorem State.modTb_tokens (f : TimeBase → TimeBase) (s : State) : (s.modTb f).tokens = s.tokens := rfl
@[simp] theorem State.modTb_arbs (f : TimeBase → TimeBase) (s : State) : (s.modTb f).arbs = s.arbs := rfl
@[simp] theorem State.modTb_resv (f : TimeBase → TimeBase) (s : State) : (s.modTb f).resv = s.resv := rfl
@[simp] theorem State.modTb_vpis (f : TimeBase → TimeBase) (s : State) : (s.modTb f).vpis = s.vpis := rfl
@[simp] theorem State.modTb_pubs (f : TimeBase → TimeBase) (s : State) : (s.modTb f).pubs = s.pubs := rfl
@[simp] theorem State.modTb_subs (f : TimeBase → TimeBase) (s : State) : (s.modTb f).subs = s.subs := rfl
@[simp] theorem State.modTb_fo (f : TimeBase → TimeBase) (s : State) : (s.modTb f).fo = s.fo := rfl
@[simp] theorem State.modTb_log (f : TimeBase → TimeBase) (s : State) : (s.modTb f).log = s.log := rfl
@[simp] theorem State.modTb_recs (f : TimeBase → TimeBase) (s : State) : (s.modTb f).recs = s.recs := rfl
@[simp] theorem State.modTb_net (f : TimeBase → TimeBase) (s : State) : (s.modTb f).net = s.net := rfl
@[simp] theorem State.modTb_keys (f : TimeBase → TimeBase) (s : State) : (s.modTb f).keys = s.keys := rfl
@[simp] theorem State.modTb_clasp (f : TimeBase → TimeBase) (s : State) : (s.modTb f).clasp = s.clasp := rfl
@[simp] theorem State.modTb_io (f : TimeBase → TimeBase) (s : State) : (s.modTb f).io = s.io := rfl
@[simp] theorem State.modTb_sfe (f : TimeBase → TimeBase) (s : State) : (s.modTb f).sfe = s.sfe := rfl
@[simp] theorem State.modTb_wams (f : TimeBase → TimeBase) (s : State) : (s.modTb f).wams = s.wams := rfl
@[simp] theorem State.modTb_power (f : TimeBase → TimeBase) (s : State) : (s.modTb f).power = s.power := rfl
@[simp] theorem State.modTb_locket (f : TimeBase → TimeBase) (s : State) : (s.modTb f).locket = s.locket := rfl
@[simp] theorem State.modTb_sec (f : TimeBase → TimeBase) (s : State) : (s.modTb f).sec = s.sec := rfl
@[simp] theorem State.modTb_resp (f : TimeBase → TimeBase) (s : State) : (s.modTb f).resp = s.resp := rfl
@[simp] theorem State.modTb_rdata (f : TimeBase → TimeBase) (s : State) : (s.modTb f).rdata = s.rdata := rfl
@[simp] theorem State.modTb_draws (f : TimeBase → TimeBase) (s : State) : (s.modTb f).draws = s.draws := rfl
@[simp] theorem State.modTb_pending (f : TimeBase → TimeBase) (s : State) : (s.modTb f).pending = s.pending := rfl

/-! ### modBezel -/

@[simp] theorem State.modBezel_variant (f : Bezel → Bezel) (s : State) : (s.modBezel f).variant = s.variant := rfl
@[simp] theorem State.modBezel_regs (f : Bezel → Bezel) (s : State) : (s.modBezel f).regs = s.regs := rfl
@[simp] theorem State.modBezel_mem (f : Bezel → Bezel) (s : State) : (s.modBezel f).mem = s.mem := rfl
@[simp] theorem State.modBezel_pubMem (f : Bezel → Bezel) (s : State) : (s.modBezel f).pubMem = s.pubMem := rfl
@[simp] theorem State.modBezel_retMem (f : Bezel → Bezel) (s : State) : (s.modBezel f).retMem = s.retMem := rfl
@[simp] theorem State.modBezel_flash (f : Bezel → Bezel) (s : State) : (s.modBezel f).flash = s.flash := rfl
@[simp] theorem State.modBezel_ecc (f : Bezel → Bezel) (s : State) : (s.modBezel f).ecc = s.ecc := rfl
@[simp] theorem State.modBezel_cecc (f : Bezel → Bezel) (s : State) : (s.modBezel f).cecc = s.cecc := rfl
@[simp] theorem State.modBezel_tb (f : Bezel → Bezel) (s : State) : (s.modBezel f).tb = s.tb := rfl
@[simp] theorem State.modBezel_since (f : Bezel → Bezel) (s : State) : (s.modBezel f).since = s.since := rfl
@[simp] theorem State.modBezel_lanes (f : Bezel → Bezel) (s : State) : (s.modBezel f).lanes = s.lanes := rfl
@[simp] theorem State.modBezel_dlogs (f : Bezel → Bezel) (s : State) : (s.modBezel f).dlogs = s.dlogs := rfl
@[simp] theorem State.modBezel_bezel (f : Bezel → Bezel) (s : State) : (s.modBezel f).bezel = f s.bezel := rfl
@[simp] theorem State.modBezel_tasks (f : Bezel → Bezel) (s : State) : (s.modBezel f).tasks = s.tasks := rfl
@[simp] theorem State.modBezel_tokens (f : Bezel → Bezel) (s : State) : (s.modBezel f).tokens = s.tokens := rfl
@[simp] theorem State.modBezel_arbs (f : Bezel → Bezel) (s : State) : (s.modBezel f).arbs = s.arbs := rfl
@[simp] theorem State.modBezel_resv (f : Bezel → Bezel) (s : State) : (s.modBezel f).resv = s.resv := rfl
@[simp] theorem State.modBezel_vpis (f : Bezel → Bezel) (s : State) : (s.modBezel f).vpis = s.vpis := rfl
@[simp] theorem State.modBezel_pubs (f : Bezel → Bezel) (s : State) : (s.modBezel f).pubs = s.pubs := rfl
@[simp] theorem State.modBezel_subs (f : Bezel → Bezel) (s : State) : (s.modBezel f).subs = s.subs := rfl
@[simp] theorem State.modBezel_fo (f : Bezel → Bezel) (s : State) : (s.modBezel f).fo = s.fo := rfl
@[simp] theorem State.modBezel_log (f : Bezel → Bezel) (s : State) : (s.modBezel f).log = s.log := rfl
@[simp] theorem State.modBezel_recs (f : Bezel → Bezel) (s : State) : (s.modBezel f).recs = s.recs := rfl
@[simp] theorem State.modBezel_net (f : Bezel → Bezel) (s : State) : (s.modBezel f).net = s.net := rfl
@[simp] theorem State.modBezel_keys (f : Bezel → Bezel) (s : State) : (s.modBezel f).keys = s.keys := rfl
@[simp] theorem State.modBezel_clasp (f : Bezel → Bezel) (s : State) : (s.modBezel f).clasp = s.clasp := rfl
@[simp] theorem State.modBezel_io (f : Bezel → Bezel) (s : State) : (s.modBezel f).io = s.io := rfl
@[simp] theorem State.modBezel_sfe (f : Bezel → Bezel) (s : State) : (s.modBezel f).sfe = s.sfe := rfl
@[simp] theorem State.modBezel_wams (f : Bezel → Bezel) (s : State) : (s.modBezel f).wams = s.wams := rfl
@[simp] theorem State.modBezel_power (f : Bezel → Bezel) (s : State) : (s.modBezel f).power = s.power := rfl
@[simp] theorem State.modBezel_locket (f : Bezel → Bezel) (s : State) : (s.modBezel f).locket = s.locket := rfl
@[simp] theorem State.modBezel_sec (f : Bezel → Bezel) (s : State) : (s.modBezel f).sec = s.sec := rfl
@[simp] theorem State.modBezel_resp (f : Bezel → Bezel) (s : State) : (s.modBezel f).resp = s.resp := rfl
@[simp] theorem State.modBezel_rdata (f : Bezel → Bezel) (s : State) : (s.modBezel f).rdata = s.rdata := rfl
@[simp] theorem State.modBezel_draws (f : Bezel → Bezel) (s : State) : (s.modBezel f).draws = s.draws := rfl
@[simp] theorem State.modBezel_pending (f : Bezel → Bezel) (s : State) : (s.modBezel f).pending = s.pending := rfl

/-! ### modFo -/

@[simp] theorem State.modFo_variant (f : Failover → Failover) (s : State) : (s.modFo f).variant = s.variant := rfl
@[simp] theorem State.modFo_regs (f : Failover → Failover) (s : State) : (s.modFo f).regs = s.regs := rfl
@[simp] theorem State.modFo_mem (f : Failover → Failover) (s : State) : (s.modFo f).mem = s.mem := rfl
@[simp] theorem State.modFo_pubMem (f : Failover → Failover) (s : State) : (s.modFo f).pubMem = s.pubMem := rfl
@[simp] theorem State.modFo_retMem (f : Failover → Failover) (s : State) : (s.modFo f).retMem = s.retMem := rfl
@[simp] theorem State.modFo_flash (f : Failover → Failover) (s : State) : (s.modFo f).flash = s.flash := rfl
@[simp] theorem State.modFo_ecc (f : Failover → Failover) (s : State) : (s.modFo f).ecc = s.ecc := rfl
@[simp] theorem State.modFo_cecc (f : Failover → Failover) (s : State) : (s.modFo f).cecc = s.cecc := rfl
@[simp] theorem State.modFo_tb (f : Failover → Failover) (s : State) : (s.modFo f).tb = s.tb := rfl
@[simp] theorem State.modFo_since (f : Failover → Failover) (s : State) : (s.modFo f).since = s.since := rfl
@[simp] theorem State.modFo_lanes (f : Failover → Failover) (s : State) : (s.modFo f).lanes = s.lanes := rfl
@[simp] theorem State.modFo_dlogs (f : Failover → Failover) (s : State) : (s.modFo f).dlogs = s.dlogs := rfl
@[simp] theorem State.modFo_bezel (f : Failover → Failover) (s : State) : (s.modFo f).bezel = s.bezel := rfl
@[simp] theorem State.modFo_tasks (f : Failover → Failover) (s : State) : (s.modFo f).tasks = s.tasks := rfl
@[simp] theorem State.modFo_tokens (f : Failover → Failover) (s : State) : (s.modFo f).tokens = s.tokens := rfl
@[simp] theorem State.modFo_arbs (f : Failover → Failover) (s : State) : (s.modFo f).arbs = s.arbs := rfl
@[simp] theorem State.modFo_resv (f : Failover → Failover) (s : State) : (s.modFo f).resv = s.resv := rfl
@[simp] theorem State.modFo_vpis (f : Failover → Failover) (s : State) : (s.modFo f).vpis = s.vpis := rfl
@[simp] theorem State.modFo_pubs (f : Failover → Failover) (s : State) : (s.modFo f).pubs = s.pubs := rfl
@[simp] theorem State.modFo_subs (f : Failover → Failover) (s : State) : (s.modFo f).subs = s.subs := rfl
@[simp] theorem State.modFo_fo (f : Failover → Failover) (s : State) : (s.modFo f).fo = f s.fo := rfl
@[simp] theorem State.modFo_log (f : Failover → Failover) (s : State) : (s.modFo f).log = s.log := rfl
@[simp] theorem State.modFo_recs (f : Failover → Failover) (s : State) : (s.modFo f).recs = s.recs := rfl
@[simp] theorem State.modFo_net (f : Failover → Failover) (s : State) : (s.modFo f).net = s.net := rfl
@[simp] theorem State.modFo_keys (f : Failover → Failover) (s : State) : (s.modFo f).keys = s.keys := rfl
@[simp] theorem State.modFo_clasp (f : Failover → Failover) (s : State) : (s.modFo f).clasp = s.clasp := rfl
@[simp] theorem State.modFo_io (f : Failover → Failover) (s : State) : (s.modFo f).io = s.io := rfl
@[simp] theorem State.modFo_sfe (f : Failover → Failover) (s : State) : (s.modFo f).sfe = s.sfe := rfl
@[simp] theorem State.modFo_wams (f : Failover → Failover) (s : State) : (s.modFo f).wams = s.wams := rfl
@[simp] theorem State.modFo_power (f : Failover → Failover) (s : State) : (s.modFo f).power = s.power := rfl
@[simp] theorem State.modFo_locket (f : Failover → Failover) (s : State) : (s.modFo f).locket = s.locket := rfl
@[simp] theorem State.modFo_sec (f : Failover → Failover) (s : State) : (s.modFo f).sec = s.sec := rfl
@[simp] theorem State.modFo_resp (f : Failover → Failover) (s : State) : (s.modFo f).resp = s.resp := rfl
@[simp] theorem State.modFo_rdata (f : Failover → Failover) (s : State) : (s.modFo f).rdata = s.rdata := rfl
@[simp] theorem State.modFo_draws (f : Failover → Failover) (s : State) : (s.modFo f).draws = s.draws := rfl
@[simp] theorem State.modFo_pending (f : Failover → Failover) (s : State) : (s.modFo f).pending = s.pending := rfl

/-! ### modLog -/

@[simp] theorem State.modLog_variant (f : EventLog → EventLog) (s : State) : (s.modLog f).variant = s.variant := rfl
@[simp] theorem State.modLog_regs (f : EventLog → EventLog) (s : State) : (s.modLog f).regs = s.regs := rfl
@[simp] theorem State.modLog_mem (f : EventLog → EventLog) (s : State) : (s.modLog f).mem = s.mem := rfl
@[simp] theorem State.modLog_pubMem (f : EventLog → EventLog) (s : State) : (s.modLog f).pubMem = s.pubMem := rfl
@[simp] theorem State.modLog_retMem (f : EventLog → EventLog) (s : State) : (s.modLog f).retMem = s.retMem := rfl
@[simp] theorem State.modLog_flash (f : EventLog → EventLog) (s : State) : (s.modLog f).flash = s.flash := rfl
@[simp] theorem State.modLog_ecc (f : EventLog → EventLog) (s : State) : (s.modLog f).ecc = s.ecc := rfl
@[simp] theorem State.modLog_cecc (f : EventLog → EventLog) (s : State) : (s.modLog f).cecc = s.cecc := rfl
@[simp] theorem State.modLog_tb (f : EventLog → EventLog) (s : State) : (s.modLog f).tb = s.tb := rfl
@[simp] theorem State.modLog_since (f : EventLog → EventLog) (s : State) : (s.modLog f).since = s.since := rfl
@[simp] theorem State.modLog_lanes (f : EventLog → EventLog) (s : State) : (s.modLog f).lanes = s.lanes := rfl
@[simp] theorem State.modLog_dlogs (f : EventLog → EventLog) (s : State) : (s.modLog f).dlogs = s.dlogs := rfl
@[simp] theorem State.modLog_bezel (f : EventLog → EventLog) (s : State) : (s.modLog f).bezel = s.bezel := rfl
@[simp] theorem State.modLog_tasks (f : EventLog → EventLog) (s : State) : (s.modLog f).tasks = s.tasks := rfl
@[simp] theorem State.modLog_tokens (f : EventLog → EventLog) (s : State) : (s.modLog f).tokens = s.tokens := rfl
@[simp] theorem State.modLog_arbs (f : EventLog → EventLog) (s : State) : (s.modLog f).arbs = s.arbs := rfl
@[simp] theorem State.modLog_resv (f : EventLog → EventLog) (s : State) : (s.modLog f).resv = s.resv := rfl
@[simp] theorem State.modLog_vpis (f : EventLog → EventLog) (s : State) : (s.modLog f).vpis = s.vpis := rfl
@[simp] theorem State.modLog_pubs (f : EventLog → EventLog) (s : State) : (s.modLog f).pubs = s.pubs := rfl
@[simp] theorem State.modLog_subs (f : EventLog → EventLog) (s : State) : (s.modLog f).subs = s.subs := rfl
@[simp] theorem State.modLog_fo (f : EventLog → EventLog) (s : State) : (s.modLog f).fo = s.fo := rfl
@[simp] theorem State.modLog_log (f : EventLog → EventLog) (s : State) : (s.modLog f).log = f s.log := rfl
@[simp] theorem State.modLog_recs (f : EventLog → EventLog) (s : State) : (s.modLog f).recs = s.recs := rfl
@[simp] theorem State.modLog_net (f : EventLog → EventLog) (s : State) : (s.modLog f).net = s.net := rfl
@[simp] theorem State.modLog_keys (f : EventLog → EventLog) (s : State) : (s.modLog f).keys = s.keys := rfl
@[simp] theorem State.modLog_clasp (f : EventLog → EventLog) (s : State) : (s.modLog f).clasp = s.clasp := rfl
@[simp] theorem State.modLog_io (f : EventLog → EventLog) (s : State) : (s.modLog f).io = s.io := rfl
@[simp] theorem State.modLog_sfe (f : EventLog → EventLog) (s : State) : (s.modLog f).sfe = s.sfe := rfl
@[simp] theorem State.modLog_wams (f : EventLog → EventLog) (s : State) : (s.modLog f).wams = s.wams := rfl
@[simp] theorem State.modLog_power (f : EventLog → EventLog) (s : State) : (s.modLog f).power = s.power := rfl
@[simp] theorem State.modLog_locket (f : EventLog → EventLog) (s : State) : (s.modLog f).locket = s.locket := rfl
@[simp] theorem State.modLog_sec (f : EventLog → EventLog) (s : State) : (s.modLog f).sec = s.sec := rfl
@[simp] theorem State.modLog_resp (f : EventLog → EventLog) (s : State) : (s.modLog f).resp = s.resp := rfl
@[simp] theorem State.modLog_rdata (f : EventLog → EventLog) (s : State) : (s.modLog f).rdata = s.rdata := rfl
@[simp] theorem State.modLog_draws (f : EventLog → EventLog) (s : State) : (s.modLog f).draws = s.draws := rfl
@[simp] theorem State.modLog_pending (f : EventLog → EventLog) (s : State) : (s.modLog f).pending = s.pending := rfl

/-! ### modNet -/

@[simp] theorem State.modNet_variant (f : Net → Net) (s : State) : (s.modNet f).variant = s.variant := rfl
@[simp] theorem State.modNet_regs (f : Net → Net) (s : State) : (s.modNet f).regs = s.regs := rfl
@[simp] theorem State.modNet_mem (f : Net → Net) (s : State) : (s.modNet f).mem = s.mem := rfl
@[simp] theorem State.modNet_pubMem (f : Net → Net) (s : State) : (s.modNet f).pubMem = s.pubMem := rfl
@[simp] theorem State.modNet_retMem (f : Net → Net) (s : State) : (s.modNet f).retMem = s.retMem := rfl
@[simp] theorem State.modNet_flash (f : Net → Net) (s : State) : (s.modNet f).flash = s.flash := rfl
@[simp] theorem State.modNet_ecc (f : Net → Net) (s : State) : (s.modNet f).ecc = s.ecc := rfl
@[simp] theorem State.modNet_cecc (f : Net → Net) (s : State) : (s.modNet f).cecc = s.cecc := rfl
@[simp] theorem State.modNet_tb (f : Net → Net) (s : State) : (s.modNet f).tb = s.tb := rfl
@[simp] theorem State.modNet_since (f : Net → Net) (s : State) : (s.modNet f).since = s.since := rfl
@[simp] theorem State.modNet_lanes (f : Net → Net) (s : State) : (s.modNet f).lanes = s.lanes := rfl
@[simp] theorem State.modNet_dlogs (f : Net → Net) (s : State) : (s.modNet f).dlogs = s.dlogs := rfl
@[simp] theorem State.modNet_bezel (f : Net → Net) (s : State) : (s.modNet f).bezel = s.bezel := rfl
@[simp] theorem State.modNet_tasks (f : Net → Net) (s : State) : (s.modNet f).tasks = s.tasks := rfl
@[simp] theorem State.modNet_tokens (f : Net → Net) (s : State) : (s.modNet f).tokens = s.tokens := rfl
@[simp] theorem State.modNet_arbs (f : Net → Net) (s : State) : (s.modNet f).arbs = s.arbs := rfl
@[simp] theorem State.modNet_resv (f : Net → Net) (s : State) : (s.modNet f).resv = s.resv := rfl
@[simp] theorem State.modNet_vpis (f : Net → Net) (s : State) : (s.modNet f).vpis = s.vpis := rfl
@[simp] theorem State.modNet_pubs (f : Net → Net) (s : State) : (s.modNet f).pubs = s.pubs := rfl
@[simp] theorem State.modNet_subs (f : Net → Net) (s : State) : (s.modNet f).subs = s.subs := rfl
@[simp] theorem State.modNet_fo (f : Net → Net) (s : State) : (s.modNet f).fo = s.fo := rfl
@[simp] theorem State.modNet_log (f : Net → Net) (s : State) : (s.modNet f).log = s.log := rfl
@[simp] theorem State.modNet_recs (f : Net → Net) (s : State) : (s.modNet f).recs = s.recs := rfl
@[simp] theorem State.modNet_net (f : Net → Net) (s : State) : (s.modNet f).net = f s.net := rfl
@[simp] theorem State.modNet_keys (f : Net → Net) (s : State) : (s.modNet f).keys = s.keys := rfl
@[simp] theorem State.modNet_clasp (f : Net → Net) (s : State) : (s.modNet f).clasp = s.clasp := rfl
@[simp] theorem State.modNet_io (f : Net → Net) (s : State) : (s.modNet f).io = s.io := rfl
@[simp] theorem State.modNet_sfe (f : Net → Net) (s : State) : (s.modNet f).sfe = s.sfe := rfl
@[simp] theorem State.modNet_wams (f : Net → Net) (s : State) : (s.modNet f).wams = s.wams := rfl
@[simp] theorem State.modNet_power (f : Net → Net) (s : State) : (s.modNet f).power = s.power := rfl
@[simp] theorem State.modNet_locket (f : Net → Net) (s : State) : (s.modNet f).locket = s.locket := rfl
@[simp] theorem State.modNet_sec (f : Net → Net) (s : State) : (s.modNet f).sec = s.sec := rfl
@[simp] theorem State.modNet_resp (f : Net → Net) (s : State) : (s.modNet f).resp = s.resp := rfl
@[simp] theorem State.modNet_rdata (f : Net → Net) (s : State) : (s.modNet f).rdata = s.rdata := rfl
@[simp] theorem State.modNet_draws (f : Net → Net) (s : State) : (s.modNet f).draws = s.draws := rfl
@[simp] theorem State.modNet_pending (f : Net → Net) (s : State) : (s.modNet f).pending = s.pending := rfl

/-! ### modClasp -/

@[simp] theorem State.modClasp_variant (f : Clasp → Clasp) (s : State) : (s.modClasp f).variant = s.variant := rfl
@[simp] theorem State.modClasp_regs (f : Clasp → Clasp) (s : State) : (s.modClasp f).regs = s.regs := rfl
@[simp] theorem State.modClasp_mem (f : Clasp → Clasp) (s : State) : (s.modClasp f).mem = s.mem := rfl
@[simp] theorem State.modClasp_pubMem (f : Clasp → Clasp) (s : State) : (s.modClasp f).pubMem = s.pubMem := rfl
@[simp] theorem State.modClasp_retMem (f : Clasp → Clasp) (s : State) : (s.modClasp f).retMem = s.retMem := rfl
@[simp] theorem State.modClasp_flash (f : Clasp → Clasp) (s : State) : (s.modClasp f).flash = s.flash := rfl
@[simp] theorem State.modClasp_ecc (f : Clasp → Clasp) (s : State) : (s.modClasp f).ecc = s.ecc := rfl
@[simp] theorem State.modClasp_cecc (f : Clasp → Clasp) (s : State) : (s.modClasp f).cecc = s.cecc := rfl
@[simp] theorem State.modClasp_tb (f : Clasp → Clasp) (s : State) : (s.modClasp f).tb = s.tb := rfl
@[simp] theorem State.modClasp_since (f : Clasp → Clasp) (s : State) : (s.modClasp f).since = s.since := rfl
@[simp] theorem State.modClasp_lanes (f : Clasp → Clasp) (s : State) : (s.modClasp f).lanes = s.lanes := rfl
@[simp] theorem State.modClasp_dlogs (f : Clasp → Clasp) (s : State) : (s.modClasp f).dlogs = s.dlogs := rfl
@[simp] theorem State.modClasp_bezel (f : Clasp → Clasp) (s : State) : (s.modClasp f).bezel = s.bezel := rfl
@[simp] theorem State.modClasp_tasks (f : Clasp → Clasp) (s : State) : (s.modClasp f).tasks = s.tasks := rfl
@[simp] theorem State.modClasp_tokens (f : Clasp → Clasp) (s : State) : (s.modClasp f).tokens = s.tokens := rfl
@[simp] theorem State.modClasp_arbs (f : Clasp → Clasp) (s : State) : (s.modClasp f).arbs = s.arbs := rfl
@[simp] theorem State.modClasp_resv (f : Clasp → Clasp) (s : State) : (s.modClasp f).resv = s.resv := rfl
@[simp] theorem State.modClasp_vpis (f : Clasp → Clasp) (s : State) : (s.modClasp f).vpis = s.vpis := rfl
@[simp] theorem State.modClasp_pubs (f : Clasp → Clasp) (s : State) : (s.modClasp f).pubs = s.pubs := rfl
@[simp] theorem State.modClasp_subs (f : Clasp → Clasp) (s : State) : (s.modClasp f).subs = s.subs := rfl
@[simp] theorem State.modClasp_fo (f : Clasp → Clasp) (s : State) : (s.modClasp f).fo = s.fo := rfl
@[simp] theorem State.modClasp_log (f : Clasp → Clasp) (s : State) : (s.modClasp f).log = s.log := rfl
@[simp] theorem State.modClasp_recs (f : Clasp → Clasp) (s : State) : (s.modClasp f).recs = s.recs := rfl
@[simp] theorem State.modClasp_net (f : Clasp → Clasp) (s : State) : (s.modClasp f).net = s.net := rfl
@[simp] theorem State.modClasp_keys (f : Clasp → Clasp) (s : State) : (s.modClasp f).keys = s.keys := rfl
@[simp] theorem State.modClasp_clasp (f : Clasp → Clasp) (s : State) : (s.modClasp f).clasp = f s.clasp := rfl
@[simp] theorem State.modClasp_io (f : Clasp → Clasp) (s : State) : (s.modClasp f).io = s.io := rfl
@[simp] theorem State.modClasp_sfe (f : Clasp → Clasp) (s : State) : (s.modClasp f).sfe = s.sfe := rfl
@[simp] theorem State.modClasp_wams (f : Clasp → Clasp) (s : State) : (s.modClasp f).wams = s.wams := rfl
@[simp] theorem State.modClasp_power (f : Clasp → Clasp) (s : State) : (s.modClasp f).power = s.power := rfl
@[simp] theorem State.modClasp_locket (f : Clasp → Clasp) (s : State) : (s.modClasp f).locket = s.locket := rfl
@[simp] theorem State.modClasp_sec (f : Clasp → Clasp) (s : State) : (s.modClasp f).sec = s.sec := rfl
@[simp] theorem State.modClasp_resp (f : Clasp → Clasp) (s : State) : (s.modClasp f).resp = s.resp := rfl
@[simp] theorem State.modClasp_rdata (f : Clasp → Clasp) (s : State) : (s.modClasp f).rdata = s.rdata := rfl
@[simp] theorem State.modClasp_draws (f : Clasp → Clasp) (s : State) : (s.modClasp f).draws = s.draws := rfl
@[simp] theorem State.modClasp_pending (f : Clasp → Clasp) (s : State) : (s.modClasp f).pending = s.pending := rfl

/-! ### modIo -/

@[simp] theorem State.modIo_variant (f : IoState → IoState) (s : State) : (s.modIo f).variant = s.variant := rfl
@[simp] theorem State.modIo_regs (f : IoState → IoState) (s : State) : (s.modIo f).regs = s.regs := rfl
@[simp] theorem State.modIo_mem (f : IoState → IoState) (s : State) : (s.modIo f).mem = s.mem := rfl
@[simp] theorem State.modIo_pubMem (f : IoState → IoState) (s : State) : (s.modIo f).pubMem = s.pubMem := rfl
@[simp] theorem State.modIo_retMem (f : IoState → IoState) (s : State) : (s.modIo f).retMem = s.retMem := rfl
@[simp] theorem State.modIo_flash (f : IoState → IoState) (s : State) : (s.modIo f).flash = s.flash := rfl
@[simp] theorem State.modIo_ecc (f : IoState → IoState) (s : State) : (s.modIo f).ecc = s.ecc := rfl
@[simp] theorem State.modIo_cecc (f : IoState → IoState) (s : State) : (s.modIo f).cecc = s.cecc := rfl
@[simp] theorem State.modIo_tb (f : IoState → IoState) (s : State) : (s.modIo f).tb = s.tb := rfl
@[simp] theorem State.modIo_since (f : IoState → IoState) (s : State) : (s.modIo f).since = s.since := rfl
@[simp] theorem State.modIo_lanes (f : IoState → IoState) (s : State) : (s.modIo f).lanes = s.lanes := rfl
@[simp] theorem State.modIo_dlogs (f : IoState → IoState) (s : State) : (s.modIo f).dlogs = s.dlogs := rfl
@[simp] theorem State.modIo_bezel (f : IoState → IoState) (s : State) : (s.modIo f).bezel = s.bezel := rfl
@[simp] theorem State.modIo_tasks (f : IoState → IoState) (s : State) : (s.modIo f).tasks = s.tasks := rfl
@[simp] theorem State.modIo_tokens (f : IoState → IoState) (s : State) : (s.modIo f).tokens = s.tokens := rfl
@[simp] theorem State.modIo_arbs (f : IoState → IoState) (s : State) : (s.modIo f).arbs = s.arbs := rfl
@[simp] theorem State.modIo_resv (f : IoState → IoState) (s : State) : (s.modIo f).resv = s.resv := rfl
@[simp] theorem State.modIo_vpis (f : IoState → IoState) (s : State) : (s.modIo f).vpis = s.vpis := rfl
@[simp] theorem State.modIo_pubs (f : IoState → IoState) (s : State) : (s.modIo f).pubs = s.pubs := rfl
@[simp] theorem State.modIo_subs (f : IoState → IoState) (s : State) : (s.modIo f).subs = s.subs := rfl
@[simp] theorem State.modIo_fo (f : IoState → IoState) (s : State) : (s.modIo f).fo = s.fo := rfl
@[simp] theorem State.modIo_log (f : IoState → IoState) (s : State) : (s.modIo f).log = s.log := rfl
@[simp] theorem State.modIo_recs (f : IoState → IoState) (s : State) : (s.modIo f).recs = s.recs := rfl
@[simp] theorem State.modIo_net (f : IoState → IoState) (s : State) : (s.modIo f).net = s.net := rfl
@[simp] theorem State.modIo_keys (f : IoState → IoState) (s : State) : (s.modIo f).keys = s.keys := rfl
@[simp] theorem State.modIo_clasp (f : IoState → IoState) (s : State) : (s.modIo f).clasp = s.clasp := rfl
@[simp] theorem State.modIo_io (f : IoState → IoState) (s : State) : (s.modIo f).io = f s.io := rfl
@[simp] theorem State.modIo_sfe (f : IoState → IoState) (s : State) : (s.modIo f).sfe = s.sfe := rfl
@[simp] theorem State.modIo_wams (f : IoState → IoState) (s : State) : (s.modIo f).wams = s.wams := rfl
@[simp] theorem State.modIo_power (f : IoState → IoState) (s : State) : (s.modIo f).power = s.power := rfl
@[simp] theorem State.modIo_locket (f : IoState → IoState) (s : State) : (s.modIo f).locket = s.locket := rfl
@[simp] theorem State.modIo_sec (f : IoState → IoState) (s : State) : (s.modIo f).sec = s.sec := rfl
@[simp] theorem State.modIo_resp (f : IoState → IoState) (s : State) : (s.modIo f).resp = s.resp := rfl
@[simp] theorem State.modIo_rdata (f : IoState → IoState) (s : State) : (s.modIo f).rdata = s.rdata := rfl
@[simp] theorem State.modIo_draws (f : IoState → IoState) (s : State) : (s.modIo f).draws = s.draws := rfl
@[simp] theorem State.modIo_pending (f : IoState → IoState) (s : State) : (s.modIo f).pending = s.pending := rfl

/-! ### modSfe -/

@[simp] theorem State.modSfe_variant (f : Sfe → Sfe) (s : State) : (s.modSfe f).variant = s.variant := rfl
@[simp] theorem State.modSfe_regs (f : Sfe → Sfe) (s : State) : (s.modSfe f).regs = s.regs := rfl
@[simp] theorem State.modSfe_mem (f : Sfe → Sfe) (s : State) : (s.modSfe f).mem = s.mem := rfl
@[simp] theorem State.modSfe_pubMem (f : Sfe → Sfe) (s : State) : (s.modSfe f).pubMem = s.pubMem := rfl
@[simp] theorem State.modSfe_retMem (f : Sfe → Sfe) (s : State) : (s.modSfe f).retMem = s.retMem := rfl
@[simp] theorem State.modSfe_flash (f : Sfe → Sfe) (s : State) : (s.modSfe f).flash = s.flash := rfl
@[simp] theorem State.modSfe_ecc (f : Sfe → Sfe) (s : State) : (s.modSfe f).ecc = s.ecc := rfl
@[simp] theorem State.modSfe_cecc (f : Sfe → Sfe) (s : State) : (s.modSfe f).cecc = s.cecc := rfl
@[simp] theorem State.modSfe_tb (f : Sfe → Sfe) (s : State) : (s.modSfe f).tb = s.tb := rfl
@[simp] theorem State.modSfe_since (f : Sfe → Sfe) (s : State) : (s.modSfe f).since = s.since := rfl
@[simp] theorem State.modSfe_lanes (f : Sfe → Sfe) (s : State) : (s.modSfe f).lanes = s.lanes := rfl
@[simp] theorem State.modSfe_dlogs (f : Sfe → Sfe) (s : State) : (s.modSfe f).dlogs = s.dlogs := rfl
@[simp] theorem State.modSfe_bezel (f : Sfe → Sfe) (s : State) : (s.modSfe f).bezel = s.bezel := rfl
@[simp] theorem State.modSfe_tasks (f : Sfe → Sfe) (s : State) : (s.modSfe f).tasks = s.tasks := rfl
@[simp] theorem State.modSfe_tokens (f : Sfe → Sfe) (s : State) : (s.modSfe f).tokens = s.tokens := rfl
@[simp] theorem State.modSfe_arbs (f : Sfe → Sfe) (s : State) : (s.modSfe f).arbs = s.arbs := rfl
@[simp] theorem State.modSfe_resv (f : Sfe → Sfe) (s : State) : (s.modSfe f).resv = s.resv := rfl
@[simp] theorem State.modSfe_vpis (f : Sfe → Sfe) (s : State) : (s.modSfe f).vpis = s.vpis := rfl
@[simp] theorem State.modSfe_pubs (f : Sfe → Sfe) (s : State) : (s.modSfe f).pubs = s.pubs := rfl
@[simp] theorem State.modSfe_subs (f : Sfe → Sfe) (s : State) : (s.modSfe f).subs = s.subs := rfl
@[simp] theorem State.modSfe_fo (f : Sfe → Sfe) (s : State) : (s.modSfe f).fo = s.fo := rfl
@[simp] theorem State.modSfe_log (f : Sfe → Sfe) (s : State) : (s.modSfe f).log = s.log := rfl
@[simp] theorem State.modSfe_recs (f : Sfe → Sfe) (s : State) : (s.modSfe f).recs = s.recs := rfl
@[simp] theorem State.modSfe_net (f : Sfe → Sfe) (s : State) : (s.modSfe f).net = s.net := rfl
@[simp] theorem State.modSfe_keys (f : Sfe → Sfe) (s : State) : (s.modSfe f).keys = s.keys := rfl
@[simp] theorem State.modSfe_clasp (f : Sfe → Sfe) (s : State) : (s.modSfe f).clasp = s.clasp := rfl
@[simp] theorem State.modSfe_io (f : Sfe → Sfe) (s : State) : (s.modSfe f).io = s.io := rfl
@[simp] theorem State.modSfe_sfe (f : Sfe → Sfe) (s : State) : (s.modSfe f).sfe = f s.sfe := rfl
@[simp] theorem State.modSfe_wams (f : Sfe → Sfe) (s : State) : (s.modSfe f).wams = s.wams := rfl
@[simp] theorem State.modSfe_power (f : Sfe → Sfe) (s : State) : (s.modSfe f).power = s.power := rfl
@[simp] theorem State.modSfe_locket (f : Sfe → Sfe) (s : State) : (s.modSfe f).locket = s.locket := rfl
@[simp] theorem State.modSfe_sec (f : Sfe → Sfe) (s : State) : (s.modSfe f).sec = s.sec := rfl
@[simp] theorem State.modSfe_resp (f : Sfe → Sfe) (s : State) : (s.modSfe f).resp = s.resp := rfl
@[simp] theorem State.modSfe_rdata (f : Sfe → Sfe) (s : State) : (s.modSfe f).rdata = s.rdata := rfl
@[simp] theorem State.modSfe_draws (f : Sfe → Sfe) (s : State) : (s.modSfe f).draws = s.draws := rfl
@[simp] theorem State.modSfe_pending (f : Sfe → Sfe) (s : State) : (s.modSfe f).pending = s.pending := rfl

/-! ### modWams -/

@[simp] theorem State.modWams_variant (f : Wams → Wams) (s : State) : (s.modWams f).variant = s.variant := rfl
@[simp] theorem State.modWams_regs (f : Wams → Wams) (s : State) : (s.modWams f).regs = s.regs := rfl
@[simp] theorem State.modWams_mem (f : Wams → Wams) (s : State) : (s.modWams f).mem = s.mem := rfl
@[simp] theorem State.modWams_pubMem (f : Wams → Wams) (s : State) : (s.modWams f).pubMem = s.pubMem := rfl
@[simp] theorem State.modWams_retMem (f : Wams → Wams) (s : State) : (s.modWams f).retMem = s.retMem := rfl
@[simp] theorem State.modWams_flash (f : Wams → Wams) (s : State) : (s.modWams f).flash = s.flash := rfl
@[simp] theorem State.modWams_ecc (f : Wams → Wams) (s : State) : (s.modWams f).ecc = s.ecc := rfl
@[simp] theorem State.modWams_cecc (f : Wams → Wams) (s : State) : (s.modWams f).cecc = s.cecc := rfl
@[simp] theorem State.modWams_tb (f : Wams → Wams) (s : State) : (s.modWams f).tb = s.tb := rfl
@[simp] theorem State.modWams_since (f : Wams → Wams) (s : State) : (s.modWams f).since = s.since := rfl
@[simp] theorem State.modWams_lanes (f : Wams → Wams) (s : State) : (s.modWams f).lanes = s.lanes := rfl
@[simp] theorem State.modWams_dlogs (f : Wams → Wams) (s : State) : (s.modWams f).dlogs = s.dlogs := rfl
@[simp] theorem State.modWams_bezel (f : Wams → Wams) (s : State) : (s.modWams f).bezel = s.bezel := rfl
@[simp] theorem State.modWams_tasks (f : Wams → Wams) (s : State) : (s.modWams f).tasks = s.tasks := rfl
@[simp] theorem State.modWams_tokens (f : Wams → Wams) (s : State) : (s.modWams f).tokens = s.tokens := rfl
@[simp] theorem State.modWams_arbs (f : Wams → Wams) (s : State) : (s.modWams f).arbs = s.arbs := rfl
@[simp] theorem State.modWams_resv (f : Wams → Wams) (s : State) : (s.modWams f).resv = s.resv := rfl
@[simp] theorem State.modWams_vpis (f : Wams → Wams) (s : State) : (s.modWams f).vpis = s.vpis := rfl
@[simp] theorem State.modWams_pubs (f : Wams → Wams) (s : State) : (s.modWams f).pubs = s.pubs := rfl
@[simp] theorem State.modWams_subs (f : Wams → Wams) (s : State) : (s.modWams f).subs = s.subs := rfl
@[simp] theorem State.modWams_fo (f : Wams → Wams) (s : State) : (s.modWams f).fo = s.fo := rfl
@[simp] theorem State.modWams_log (f : Wams → Wams) (s : State) : (s.modWams f).log = s.log := rfl
@[simp] theorem State.modWams_recs (f : Wams → Wams) (s : State) : (s.modWams f).recs = s.recs := rfl
@[simp] theorem State.modWams_net (f : Wams → Wams) (s : State) : (s.modWams f).net = s.net := rfl
@[simp] theorem State.modWams_keys (f : Wams → Wams) (s : State) : (s.modWams f).keys = s.keys := rfl
@[simp] theorem State.modWams_clasp (f : Wams → Wams) (s : State) : (s.modWams f).clasp = s.clasp := rfl
@[simp] theorem State.modWams_io (f : Wams → Wams) (s : State) : (s.modWams f).io = s.io := rfl
@[simp] theorem State.modWams_sfe (f : Wams → Wams) (s : State) : (s.modWams f).sfe = s.sfe := rfl
@[simp] theorem State.modWams_wams (f : Wams → Wams) (s : State) : (s.modWams f).wams = f s.wams := rfl
@[simp] theorem State.modWams_power (f : Wams → Wams) (s : State) : (s.modWams f).power = s.power := rfl
@[simp] theorem State.modWams_locket (f : Wams → Wams) (s : State) : (s.modWams f).locket = s.locket := rfl
@[simp] theorem State.modWams_sec (f : Wams → Wams) (s : State) : (s.modWams f).sec = s.sec := rfl
@[simp] theorem State.modWams_resp (f : Wams → Wams) (s : State) : (s.modWams f).resp = s.resp := rfl
@[simp] theorem State.modWams_rdata (f : Wams → Wams) (s : State) : (s.modWams f).rdata = s.rdata := rfl
@[simp] theorem State.modWams_draws (f : Wams → Wams) (s : State) : (s.modWams f).draws = s.draws := rfl
@[simp] theorem State.modWams_pending (f : Wams → Wams) (s : State) : (s.modWams f).pending = s.pending := rfl

/-! ### modPower -/

@[simp] theorem State.modPower_variant (f : Power → Power) (s : State) : (s.modPower f).variant = s.variant := rfl
@[simp] theorem State.modPower_regs (f : Power → Power) (s : State) : (s.modPower f).regs = s.regs := rfl
@[simp] theorem State.modPower_mem (f : Power → Power) (s : State) : (s.modPower f).mem = s.mem := rfl
@[simp] theorem State.modPower_pubMem (f : Power → Power) (s : State) : (s.modPower f).pubMem = s.pubMem := rfl
@[simp] theorem State.modPower_retMem (f : Power → Power) (s : State) : (s.modPower f).retMem = s.retMem := rfl
@[simp] theorem State.modPower_flash (f : Power → Power) (s : State) : (s.modPower f).flash = s.flash := rfl
@[simp] theorem State.modPower_ecc (f : Power → Power) (s : State) : (s.modPower f).ecc = s.ecc := rfl
@[simp] theorem State.modPower_cecc (f : Power → Power) (s : State) : (s.modPower f).cecc = s.cecc := rfl
@[simp] theorem State.modPower_tb (f : Power → Power) (s : State) : (s.modPower f).tb = s.tb := rfl
@[simp] theorem State.modPower_since (f : Power → Power) (s : State) : (s.modPower f).since = s.since := rfl
@[simp] theorem State.modPower_lanes (f : Power → Power) (s : State) : (s.modPower f).lanes = s.lanes := rfl
@[simp] theorem State.modPower_dlogs (f : Power → Power) (s : State) : (s.modPower f).dlogs = s.dlogs := rfl
@[simp] theorem State.modPower_bezel (f : Power → Power) (s : State) : (s.modPower f).bezel = s.bezel := rfl
@[simp] theorem State.modPower_tasks (f : Power → Power) (s : State) : (s.modPower f).tasks = s.tasks := rfl
@[simp] theorem State.modPower_tokens (f : Power → Power) (s : State) : (s.modPower f).tokens = s.tokens := rfl
@[simp] theorem State.modPower_arbs (f : Power → Power) (s : State) : (s.modPower f).arbs = s.arbs := rfl
@[simp] theorem State.modPower_resv (f : Power → Power) (s : State) : (s.modPower f).resv = s.resv := rfl
@[simp] theorem State.modPower_vpis (f : Power → Power) (s : State) : (s.modPower f).vpis = s.vpis := rfl
@[simp] theorem State.modPower_pubs (f : Power → Power) (s : State) : (s.modPower f).pubs = s.pubs := rfl
@[simp] theorem State.modPower_subs (f : Power → Power) (s : State) : (s.modPower f).subs = s.subs := rfl
@[simp] theorem State.modPower_fo (f : Power → Power) (s : State) : (s.modPower f).fo = s.fo := rfl
@[simp] theorem State.modPower_log (f : Power → Power) (s : State) : (s.modPower f).log = s.log := rfl
@[simp] theorem State.modPower_recs (f : Power → Power) (s : State) : (s.modPower f).recs = s.recs := rfl
@[simp] theorem State.modPower_net (f : Power → Power) (s : State) : (s.modPower f).net = s.net := rfl
@[simp] theorem State.modPower_keys (f : Power → Power) (s : State) : (s.modPower f).keys = s.keys := rfl
@[simp] theorem State.modPower_clasp (f : Power → Power) (s : State) : (s.modPower f).clasp = s.clasp := rfl
@[simp] theorem State.modPower_io (f : Power → Power) (s : State) : (s.modPower f).io = s.io := rfl
@[simp] theorem State.modPower_sfe (f : Power → Power) (s : State) : (s.modPower f).sfe = s.sfe := rfl
@[simp] theorem State.modPower_wams (f : Power → Power) (s : State) : (s.modPower f).wams = s.wams := rfl
@[simp] theorem State.modPower_power (f : Power → Power) (s : State) : (s.modPower f).power = f s.power := rfl
@[simp] theorem State.modPower_locket (f : Power → Power) (s : State) : (s.modPower f).locket = s.locket := rfl
@[simp] theorem State.modPower_sec (f : Power → Power) (s : State) : (s.modPower f).sec = s.sec := rfl
@[simp] theorem State.modPower_resp (f : Power → Power) (s : State) : (s.modPower f).resp = s.resp := rfl
@[simp] theorem State.modPower_rdata (f : Power → Power) (s : State) : (s.modPower f).rdata = s.rdata := rfl
@[simp] theorem State.modPower_draws (f : Power → Power) (s : State) : (s.modPower f).draws = s.draws := rfl
@[simp] theorem State.modPower_pending (f : Power → Power) (s : State) : (s.modPower f).pending = s.pending := rfl

/-! ### modLkt -/

@[simp] theorem State.modLkt_variant (f : Locket → Locket) (s : State) : (s.modLkt f).variant = s.variant := rfl
@[simp] theorem State.modLkt_regs (f : Locket → Locket) (s : State) : (s.modLkt f).regs = s.regs := rfl
@[simp] theorem State.modLkt_mem (f : Locket → Locket) (s : State) : (s.modLkt f).mem = s.mem := rfl
@[simp] theorem State.modLkt_pubMem (f : Locket → Locket) (s : State) : (s.modLkt f).pubMem = s.pubMem := rfl
@[simp] theorem State.modLkt_retMem (f : Locket → Locket) (s : State) : (s.modLkt f).retMem = s.retMem := rfl
@[simp] theorem State.modLkt_flash (f : Locket → Locket) (s : State) : (s.modLkt f).flash = s.flash := rfl
@[simp] theorem State.modLkt_ecc (f : Locket → Locket) (s : State) : (s.modLkt f).ecc = s.ecc := rfl
@[simp] theorem State.modLkt_cecc (f : Locket → Locket) (s : State) : (s.modLkt f).cecc = s.cecc := rfl
@[simp] theorem State.modLkt_tb (f : Locket → Locket) (s : State) : (s.modLkt f).tb = s.tb := rfl
@[simp] theorem State.modLkt_since (f : Locket → Locket) (s : State) : (s.modLkt f).since = s.since := rfl
@[simp] theorem State.modLkt_lanes (f : Locket → Locket) (s : State) : (s.modLkt f).lanes = s.lanes := rfl
@[simp] theorem State.modLkt_dlogs (f : Locket → Locket) (s : State) : (s.modLkt f).dlogs = s.dlogs := rfl
@[simp] theorem State.modLkt_bezel (f : Locket → Locket) (s : State) : (s.modLkt f).bezel = s.bezel := rfl
@[simp] theorem State.modLkt_tasks (f : Locket → Locket) (s : State) : (s.modLkt f).tasks = s.tasks := rfl
@[simp] theorem State.modLkt_tokens (f : Locket → Locket) (s : State) : (s.modLkt f).tokens = s.tokens := rfl
@[simp] theorem State.modLkt_arbs (f : Locket → Locket) (s : State) : (s.modLkt f).arbs = s.arbs := rfl
@[simp] theorem State.modLkt_resv (f : Locket → Locket) (s : State) : (s.modLkt f).resv = s.resv := rfl
@[simp] theorem State.modLkt_vpis (f : Locket → Locket) (s : State) : (s.modLkt f).vpis = s.vpis := rfl
@[simp] theorem State.modLkt_pubs (f : Locket → Locket) (s : State) : (s.modLkt f).pubs = s.pubs := rfl
@[simp] theorem State.modLkt_subs (f : Locket → Locket) (s : State) : (s.modLkt f).subs = s.subs := rfl
@[simp] theorem State.modLkt_fo (f : Locket → Locket) (s : State) : (s.modLkt f).fo = s.fo := rfl
@[simp] theorem State.modLkt_log (f : Locket → Locket) (s : State) : (s.modLkt f).log = s.log := rfl
@[simp] theorem State.modLkt_recs (f : Locket → Locket) (s : State) : (s.modLkt f).recs = s.recs := rfl
@[simp] theorem State.modLkt_net (f : Locket → Locket) (s : State) : (s.modLkt f).net = s.net := rfl
@[simp] theorem State.modLkt_keys (f : Locket → Locket) (s : State) : (s.modLkt f).keys = s.keys := rfl
@[simp] theorem State.modLkt_clasp (f : Locket → Locket) (s : State) : (s.modLkt f).clasp = s.clasp := rfl
@[simp] theorem State.modLkt_io (f : Locket → Locket) (s : State) : (s.modLkt f).io = s.io := rfl
@[simp] theorem State.modLkt_sfe (f : Locket → Locket) (s : State) : (s.modLkt f).sfe = s.sfe := rfl
@[simp] theorem State.modLkt_wams (f : Locket → Locket) (s : State) : (s.modLkt f).wams = s.wams := rfl
@[simp] theorem State.modLkt_power (f : Locket → Locket) (s : State) : (s.modLkt f).power = s.power := rfl
@[simp] theorem State.modLkt_locket (f : Locket → Locket) (s : State) : (s.modLkt f).locket = f s.locket := rfl
@[simp] theorem State.modLkt_sec (f : Locket → Locket) (s : State) : (s.modLkt f).sec = s.sec := rfl
@[simp] theorem State.modLkt_resp (f : Locket → Locket) (s : State) : (s.modLkt f).resp = s.resp := rfl
@[simp] theorem State.modLkt_rdata (f : Locket → Locket) (s : State) : (s.modLkt f).rdata = s.rdata := rfl
@[simp] theorem State.modLkt_draws (f : Locket → Locket) (s : State) : (s.modLkt f).draws = s.draws := rfl
@[simp] theorem State.modLkt_pending (f : Locket → Locket) (s : State) : (s.modLkt f).pending = s.pending := rfl

/-! ### modSec -/

@[simp] theorem State.modSec_variant (f : Security → Security) (s : State) : (s.modSec f).variant = s.variant := rfl
@[simp] theorem State.modSec_regs (f : Security → Security) (s : State) : (s.modSec f).regs = s.regs := rfl
@[simp] theorem State.modSec_mem (f : Security → Security) (s : State) : (s.modSec f).mem = s.mem := rfl
@[simp] theorem State.modSec_pubMem (f : Security → Security) (s : State) : (s.modSec f).pubMem = s.pubMem := rfl
@[simp] theorem State.modSec_retMem (f : Security → Security) (s : State) : (s.modSec f).retMem = s.retMem := rfl
@[simp] theorem State.modSec_flash (f : Security → Security) (s : State) : (s.modSec f).flash = s.flash := rfl
@[simp] theorem State.modSec_ecc (f : Security → Security) (s : State) : (s.modSec f).ecc = s.ecc := rfl
@[simp] theorem State.modSec_cecc (f : Security → Security) (s : State) : (s.modSec f).cecc = s.cecc := rfl
@[simp] theorem State.modSec_tb (f : Security → Security) (s : State) : (s.modSec f).tb = s.tb := rfl
@[simp] theorem State.modSec_since (f : Security → Security) (s : State) : (s.modSec f).since = s.since := rfl
@[simp] theorem State.modSec_lanes (f : Security → Security) (s : State) : (s.modSec f).lanes = s.lanes := rfl
@[simp] theorem State.modSec_dlogs (f : Security → Security) (s : State) : (s.modSec f).dlogs = s.dlogs := rfl
@[simp] theorem State.modSec_bezel (f : Security → Security) (s : State) : (s.modSec f).bezel = s.bezel := rfl
@[simp] theorem State.modSec_tasks (f : Security → Security) (s : State) : (s.modSec f).tasks = s.tasks := rfl
@[simp] theorem State.modSec_tokens (f : Security → Security) (s : State) : (s.modSec f).tokens = s.tokens := rfl
@[simp] theorem State.modSec_arbs (f : Security → Security) (s : State) : (s.modSec f).arbs = s.arbs := rfl
@[simp] theorem State.modSec_resv (f : Security → Security) (s : State) : (s.modSec f).resv = s.resv := rfl
@[simp] theorem State.modSec_vpis (f : Security → Security) (s : State) : (s.modSec f).vpis = s.vpis := rfl
@[simp] theorem State.modSec_pubs (f : Security → Security) (s : State) : (s.modSec f).pubs = s.pubs := rfl
@[simp] theorem State.modSec_subs (f : Security → Security) (s : State) : (s.modSec f).subs = s.subs := rfl
@[simp] theorem State.modSec_fo (f : Security → Security) (s : State) : (s.modSec f).fo = s.fo := rfl
@[simp] theorem State.modSec_log (f : Security → Security) (s : State) : (s.modSec f).log = s.log := rfl
@[simp] theorem State.modSec_recs (f : Security → Security) (s : State) : (s.modSec f).recs = s.recs := rfl
@[simp] theorem State.modSec_net (f : Security → Security) (s : State) : (s.modSec f).net = s.net := rfl
@[simp] theorem State.modSec_keys (f : Security → Security) (s : State) : (s.modSec f).keys = s.keys := rfl
@[simp] theorem State.modSec_clasp (f : Security → Security) (s : State) : (s.modSec f).clasp = s.clasp := rfl
@[simp] theorem State.modSec_io (f : Security → Security) (s : State) : (s.modSec f).io = s.io := rfl
@[simp] theorem State.modSec_sfe (f : Security → Security) (s : State) : (s.modSec f).sfe = s.sfe := rfl
@[simp] theorem State.modSec_wams (f : Security → Security) (s : State) : (s.modSec f).wams = s.wams := rfl
@[simp] theorem State.modSec_power (f : Security → Security) (s : State) : (s.modSec f).power = s.power := rfl
@[simp] theorem State.modSec_locket (f : Security → Security) (s : State) : (s.modSec f).locket = s.locket := rfl
@[simp] theorem State.modSec_sec (f : Security → Security) (s : State) : (s.modSec f).sec = f s.sec := rfl
@[simp] theorem State.modSec_resp (f : Security → Security) (s : State) : (s.modSec f).resp = s.resp := rfl
@[simp] theorem State.modSec_rdata (f : Security → Security) (s : State) : (s.modSec f).rdata = s.rdata := rfl
@[simp] theorem State.modSec_draws (f : Security → Security) (s : State) : (s.modSec f).draws = s.draws := rfl
@[simp] theorem State.modSec_pending (f : Security → Security) (s : State) : (s.modSec f).pending = s.pending := rfl

end Sys2Proof.Machine
end

