-- ==== Sys2Proof/Laws/Lanes.lean ====
section
/-! SUPPORT. What issue does: an instruction that passes its checks runs its plan, and one that changes its bank alone changes
nothing else. -/
namespace Sys2Proof.Machine

@[simp] theorem State.modLane_lane (i : Fin 52) (f : Lane → Lane) (s : State) : (s.modLane i f).lane i = f (s.lane i) := by
  simp [State.lane, State.modLane]

theorem State.modLane_lane_ne (i j : Fin 52) (f : Lane → Lane) (s : State) (h : j ≠ i) :
    (s.modLane i f).lane j = s.lane j := by
  simp only [State.lane, State.modLane, Fin.getElem_fin]
  rw [Vector.getElem_set_ne]
  intro e
  exact h (Fin.ext e.symm)

theorem State.modLane_modLane (i : Fin 52) (f g : Lane → Lane) (s : State) :
    (s.modLane i f).modLane i g = s.modLane i (fun x => g (f x)) := by
  simp [State.modLane, Vector.set_set]

/-- A change of lane `l` alone changes nothing else. -/
theorem OnlyLane_modLane (l : Fin 52) (f : Lane → Lane) (s : State) : OnlyLane l s (s.modLane l f) :=
  ⟨rfl, fun j h => State.modLane_lane_ne l j f s h⟩

theorem Lane.bank_modBank (f : Bank → Bank) (x : Lane) : (x.modBank f).bank = f x.bank := by
  unfold Lane.modBank Lane.bank
  split <;> simp_all

theorem Lane.modBank_modBank (f g : Bank → Bank) (x : Lane) : (x.modBank f).modBank g = x.modBank (fun b => g (f b)) := by
  unfold Lane.modBank
  split <;> simp_all

theorem spend_eq (l : Fin 52) (n : Nat) (s : State) : spend l n s = s.modLane l (spentLane n) := rfl

theorem spentLane_inG (n : Nat) (x : Lane) : (spentLane n x).inG = x.inG := by
  unfold spentLane
  split
  · rfl
  · split <;> rfl

theorem spentLane_bank (n : Nat) (x : Lane) : (spentLane n x).bank = x.bank := by
  unfold spentLane Lane.bank
  split
  · simp_all
  · split <;> simp_all

/-- A fetch that raises nothing answers the state after it. -/
theorem fetch_of_ok {l : Fin 52} {s : State} (h : fetchOk l s = true) : fetch l s = (.ok none, fetched l s) := by
  unfold fetchOk at h
  unfold fetched
  rcases hf : fetch l s with ⟨r, s'⟩
  rw [hf] at h
  match r, h with
  | .ok none, _ => rfl

/-- An instruction that passes its checks runs its plan and ends as `finish` says. -/
theorem issue_of_issues {l : Fin 52} {i : Instr} {k : Kind} {n : Nat} {s s2 : State} {body : State → Ans}
    {plan : State → Except Trap Plan × State} (h : Issues l i k n s)
    (hp : plan (fetched l s) = (.ok ⟨n, none, body⟩, s2)) :
    issue l i k plan s = finish l (body (spend l n s2)) := by
  obtain ⟨h1, h2, h3, h4, h5, h6, h7, h8, h9, h10⟩ := h
  have hb : ¬ ((s.lane l).atBoundary = true ∧ (s.lane l).posted ≠ []) := by
    unfold Lane.atBoundary
    rcases h2 with h2 | h2 <;> simp [h2]
  have he : earlyTrap l (instrWord i) (fieldsOk i) k (s.lane l) = none := by
    unfold earlyTrap
    have hc : ¬ (clusterOnly (instrWord i / 2 ^ 26) = true ∧ ¬ isCluster l = true) := fun hh => hh.2 (h5 hh.1)
    have hu : ¬ (k.untimed = true ∧ (s.lane l).timed = true) := fun hh => by simp [h9 hh.1] at hh
    simp only [h4, h6, h7, h8, hu, not_true_eq_false, if_false, false_or, Bool.false_eq_true, or_false]
    rw [if_neg]
    simpa using hc
  unfold issue issueWord
  simp [h1, hb, fetch_of_ok h3, he, hp, h10]

/-- An instruction that changes registers of its bank alone completes, moves the PC on and changes nothing else. -/
theorem runs_of_regOp {l : Fin 52} {i : Instr} {n : Nat} {f : Bank → Bank} {s : State}
    (he : exec i s = regOp l i n f s) (hf : ∀ b : Bank, (f b).pc = b.pc) (h : Issues l i plain n s) : Runs l i n f s := by
  refine ⟨_, he, ?_⟩
  rw [issue_of_issues (plan := fun s => regPlan n f s l) (s2 := fetched l s) (body := fun s => .next (s.modBank l f)) h rfl]
  simp only [finish, State.setPc, State.modBank, spend_eq, State.modLane_modLane, State.modLane_lane, Lane.bank_modBank,
    Lane.modBank_modBank]
  refine ⟨OnlyLane_modLane l _ _, ?_⟩
  simp only [State.modLane_lane, spentLane_bank, hf]
  unfold Lane.modBank onward
  have hpc := spentLane_bank n ((fetched l s).lane l)
  unfold Lane.bank at hpc ⊢
  rw [spentLane_inG] at hpc ⊢
  split <;> simp_all

end Sys2Proof.Machine
end

