-- ==== Sys2Proof/Laws/Memory.lean ====
section
/-! SUPPORT. Memory in canonical form: every operation keeps it, a read after a write gives what was written, and a write leaves
every other byte alone. -/
namespace Sys2Proof.Machine

/-- The canonical form, said with the list's own relation: addresses rise strictly and no byte is 0. -/
theorem mem_wf_iff (m : Mem) :
    Mem.wf m = true ↔ m.Pairwise (fun x y => x.1 < y.1) ∧ ∀ c ∈ m, c.2 ≠ 0 := by
  induction m with
  | nil => simp [Mem.wf]
  | cons x l ih =>
    obtain ⟨a, v⟩ := x
    cases l with
    | nil => simp [Mem.wf]
    | cons y l =>
      obtain ⟨b, w⟩ := y
      simp only [Mem.wf, Bool.and_eq_true, bne_iff_ne, decide_eq_true_eq, ih, List.pairwise_cons, List.mem_cons]
      constructor
      · rintro ⟨⟨hv, hab⟩, ⟨hb, hp⟩, hn⟩
        refine ⟨⟨?_, hb, hp⟩, ?_⟩
        · rintro c (rfl | hc)
          · exact hab
          · exact Nat.lt_trans hab (hb c hc)
        · rintro c (rfl | hc)
          · exact hv
          · exact hn c hc
      · rintro ⟨⟨ha, hb, hp⟩, hn⟩
        exact ⟨⟨hn _ (.inl rfl), ha _ (.inl rfl)⟩, ⟨hb, hp⟩, fun c hc => hn c (.inr hc)⟩

/-- A filter keeps the canonical form. -/
theorem mem_wf_filter (m : Mem) (p : Host.Cell → Bool) (h : Mem.wf m = true) : Mem.wf (m.filter p) = true := by
  rw [mem_wf_iff] at *
  exact ⟨h.1.filter p, fun c hc => h.2 c (List.mem_filter.mp hc).1⟩

/-- Clearing a range keeps the canonical form. -/
theorem mem_wf_memClear (m : Mem) (a n : Nat) (h : Mem.wf m = true) : Mem.wf (memClear m a n) = true :=
  mem_wf_filter m _ h

/-- The cells of written bytes lie in the range and hold no 0. -/
theorem memCells_mem {a : Nat} {bs : List Byte} {c : Host.Cell} (h : c ∈ memCells a bs) :
    a ≤ c.1 ∧ c.1 < a + bs.length ∧ c.2 ≠ 0 := by
  induction bs generalizing a with
  | nil => simp [memCells] at h
  | cons b bs ih =>
    unfold memCells at h
    split at h
    · obtain ⟨h1, h2, h3⟩ := ih h
      refine ⟨by omega, ?_, h3⟩
      simp only [List.length_cons]
      omega
    · rcases List.mem_cons.mp h with rfl | h
      · simp_all
      · obtain ⟨h1, h2, h3⟩ := ih h
        refine ⟨by omega, ?_, h3⟩
        simp only [List.length_cons]
        omega

/-- The cells of written bytes rise strictly. -/
theorem memCells_pairwise (a : Nat) (bs : List Byte) : (memCells a bs).Pairwise (fun x y => x.1 < y.1) := by
  induction bs generalizing a with
  | nil => simp [memCells]
  | cons b bs ih =>
    unfold memCells
    split
    · exact ih _
    · exact List.pairwise_cons.mpr ⟨fun c hc => (memCells_mem hc).1, ih _⟩

/-- A write keeps the canonical form. -/
theorem mem_wf_memWrite (m : Mem) (a : Nat) (bs : List Byte) (h : Mem.wf m = true) : Mem.wf (memWrite m a bs) = true := by
  have hm := (mem_wf_iff m).mp h
  rw [mem_wf_iff]
  unfold memWrite
  refine ⟨?_, ?_⟩
  · rw [List.pairwise_append, List.pairwise_append]
    refine ⟨⟨hm.1.filter _, memCells_pairwise a bs, ?_⟩, hm.1.filter _, ?_⟩
    · intro x hx y hy
      have := (memCells_mem hy).1
      simp only [List.mem_filter, decide_eq_true_eq] at hx
      omega
    · intro x hx y hy
      simp only [List.mem_append, List.mem_filter, decide_eq_true_eq] at hx hy
      rcases hx with hx | hx
      · omega
      · have := memCells_mem hx
        omega
  · intro c hc
    simp only [List.mem_append, List.mem_filter] at hc
    rcases hc with (hc | hc) | hc
    · exact hm.2 c hc.1
    · exact (memCells_mem hc).2.2
    · exact hm.2 c hc.1

/-- Reading behind cells that all lie elsewhere. -/
theorem memGet_append_of_not (l m : Mem) (a : Nat) (h : ∀ c ∈ l, c.1 ≠ a) : memGet (l ++ m) a = memGet m a := by
  induction l with
  | nil => rfl
  | cons c l ih =>
    obtain ⟨k, v⟩ := c
    have hk : k ≠ a := h _ List.mem_cons_self
    simp only [List.cons_append, memGet, if_neg hk]
    exact ih (fun c hc => h c (List.mem_cons_of_mem _ hc))

/-- A byte that no cell lists reads 0. -/
theorem memGet_of_not (l : Mem) (a : Nat) (h : ∀ c ∈ l, c.1 ≠ a) : memGet l a = 0 := by
  simpa [memGet] using memGet_append_of_not l [] a h

/-- A filter that keeps every cell of an address leaves what it reads as. -/
theorem memGet_filter (m : Mem) (p : Host.Cell → Bool) (a : Nat) (h : ∀ c : Host.Cell, c.1 = a → p c = true) :
    memGet (m.filter p) a = memGet m a := by
  induction m with
  | nil => rfl
  | cons c l ih =>
    obtain ⟨k, v⟩ := c
    by_cases hk : k = a
    · subst hk
      simp [memGet, h (k, v) rfl]
    · by_cases hp : p (k, v) = true
      · simp [hp, memGet, hk, ih]
      · simp [hp, memGet, hk, ih]

/-- Reading in front of what follows: a byte the first cells list as not 0, or none of the rest lists, reads from them. -/
theorem memGet_append_left (l m : Mem) (a : Nat) (h : ∀ c ∈ m, c.1 ≠ a) : memGet (l ++ m) a = memGet l a := by
  induction l with
  | nil => simpa [memGet] using memGet_of_not m a h
  | cons c l ih =>
    obtain ⟨k, v⟩ := c
    by_cases hk : k = a
    · simp [memGet, hk]
    · simp [memGet, hk, ih]

/-- The cells of written bytes read as those bytes. -/
theorem memGet_memCells (a : Nat) (bs : List Byte) (x : Nat) :
    memGet (memCells a bs) x = if a ≤ x ∧ x < a + bs.length then bs.getD (x - a) 0 else 0 := by
  induction bs generalizing a with
  | nil => simp [memCells, memGet]
  | cons b bs ih =>
    have key : memGet (memCells a (b :: bs)) x = if x = a then b else memGet (memCells (a + 1) bs) x := by
      rw [show memCells a (b :: bs) = if b = 0 then memCells (a + 1) bs else (a, b) :: memCells (a + 1) bs from rfl]
      split
      · rename_i hb
        split
        · subst_vars
          exact memGet_of_not _ _ (fun c hc => by have := (memCells_mem hc).1; omega)
        · rfl
      · simp only [memGet]
        by_cases hx : a = x
        · simp [hx]
        · simp [hx, Ne.symm hx]
    rw [key, ih]
    by_cases hx : x = a
    · subst hx
      simp
    · by_cases hr : a + 1 ≤ x ∧ x < a + 1 + bs.length
      · have h1 : a ≤ x ∧ x < a + (b :: bs).length := by simp only [List.length_cons]; omega
        have h2 : x - a = (x - (a + 1)) + 1 := by omega
        rw [if_neg hx, if_pos hr, if_pos h1, h2, List.getD_cons_succ]
      · have h1 : ¬ (a ≤ x ∧ x < a + (b :: bs).length) := by simp only [List.length_cons]; omega
        rw [if_neg hx, if_neg hr, if_neg h1]

/-- A read after a write: the bytes written inside the range, the old bytes outside it. -/
theorem memGet_memWrite (m : Mem) (a : Nat) (bs : List Byte) (x : Nat) :
    memGet (memWrite m a bs) x = if a ≤ x ∧ x < a + bs.length then bs.getD (x - a) 0 else memGet m x := by
  unfold memWrite
  by_cases hlo : x < a
  · rw [List.append_assoc, memGet_append_left, memGet_filter, if_neg (by omega)]
    · intro c hc
      simp [hc, hlo]
    · intro c hc
      simp only [List.mem_append, List.mem_filter, decide_eq_true_eq] at hc
      rcases hc with hc | hc
      · have := memCells_mem hc
        omega
      · omega
  · by_cases hhi : x < a + bs.length
    · rw [memGet_append_left, memGet_append_of_not, memGet_memCells, if_pos ⟨by omega, hhi⟩, if_pos ⟨by omega, hhi⟩]
      · intro c hc
        simp only [List.mem_filter, decide_eq_true_eq] at hc
        omega
      · intro c hc
        simp only [List.mem_filter, decide_eq_true_eq] at hc
        omega
    · rw [memGet_append_of_not, memGet_filter, if_neg (by omega)]
      · intro c hc
        simp only [decide_eq_true_eq]
        omega
      · intro c hc
        simp only [List.mem_append, List.mem_filter, decide_eq_true_eq] at hc
        rcases hc with hc | hc
        · omega
        · have := memCells_mem hc
          omega

/-- A cleared range reads 0 and every other byte stays. -/
theorem memGet_memClear (m : Mem) (a n x : Nat) :
    memGet (memClear m a n) x = if a ≤ x ∧ x < a + n then 0 else memGet m x := by
  unfold memClear
  split
  · refine memGet_of_not _ _ (fun c hc => ?_)
    simp only [List.mem_filter, Bool.or_eq_true, decide_eq_true_eq] at hc
    omega
  · refine memGet_filter _ _ _ (fun c hc => ?_)
    simp only [Bool.or_eq_true, decide_eq_true_eq]
    omega

/-- A write stores its bytes and nothing else. -/
theorem stored_memWrite (m : Mem) (a : Nat) (bs : List Byte) : Stored m (memWrite m a bs) a bs := fun x =>
  memGet_memWrite m a bs x

/-- A read of several bytes depends on those bytes alone. -/
theorem memRead_congr (m m' : Mem) (a n : Nat) (h : ∀ x, a ≤ x → x < a + n → memGet m x = memGet m' x) :
    memRead m a n = memRead m' a n := by
  induction n generalizing a with
  | zero => rfl
  | succ n ih =>
    simp only [memRead]
    rw [h a (by omega) (by omega), ih (a + 1) (fun x h1 h2 => h x (by omega) (by omega))]

/-- Reading what was written gives it back. -/
theorem memRead_memWrite (m : Mem) (a : Nat) (bs : List Byte) : memRead (memWrite m a bs) a bs.length = bs := by
  have gen : ∀ (cs : List Byte) (k : Nat) (M : Mem), (∀ i, i < cs.length → memGet M (k + i) = cs.getD i 0) →
      memRead M k cs.length = cs := by
    intro cs
    induction cs with
    | nil => intros; rfl
    | cons c cs ih =>
      intro k M h
      simp only [List.length_cons, memRead]
      have h0 := h 0 (by simp)
      simp only [Nat.add_zero, List.getD_cons_zero] at h0
      rw [h0, ih (k + 1) M]
      intro i hi
      have := h (i + 1) (by simpa using hi)
      rw [List.getD_cons_succ] at this
      rw [← this]
      congr 1
      omega
  refine gen bs a _ (fun i hi => ?_)
  rw [memGet_memWrite, if_pos (by omega)]
  congr 1
  omega

/-- A write of memory outside a read's range does not change the read. -/
theorem memRead_memWrite_of_disjoint (m : Mem) (a b n : Nat) (bs : List Byte)
    (h : b + n ≤ a ∨ a + bs.length ≤ b) : memRead (memWrite m a bs) b n = memRead m b n :=
  memRead_congr _ _ _ _ (fun x h1 h2 => by rw [memGet_memWrite, if_neg (by omega)])

end Sys2Proof.Machine
end

