-- ==== Sys2Proof/Laws/Registers.lean ====
section
/-! SUPPORT. Register fields after a write of a field, the event log after an event, and register accesses that pass the gate
of R472. -/
namespace Sys2Proof.Machine

/-- A key of a list reads the value last put there. -/
@[simp] theorem alookup_ainsert_same {α : Type} (k : Nat) (v : α) (l : List (Nat × α)) : alookup k (ainsert k v l) = some v := by
  induction l with
  | nil => simp [ainsert, alookup]
  | cons p l ih =>
    obtain ⟨k', v'⟩ := p
    simp only [ainsert]
    split
    · simp [alookup]
    · split
      · simp [alookup]
      · next h => simp [alookup, Ne.symm h, ih]

/-- Other keys of a list read as before. -/
theorem alookup_ainsert_ne {α : Type} (k j : Nat) (v : α) (l : List (Nat × α)) (h : j ≠ k) :
    alookup j (ainsert k v l) = alookup j l := by
  induction l with
  | nil => simp [ainsert, alookup, Ne.symm h]
  | cons p l ih =>
    obtain ⟨k', v'⟩ := p
    simp only [ainsert]
    split
    · simp [alookup, Ne.symm h]
    · split
      · next e => subst e; simp [alookup, Ne.symm h]
      · simp [alookup, ih]

/-- A field after a write of a field. -/
theorem State.fget_fset (s : State) (f g : Fld) (v : Nat) :
    (s.fset f v).fget g = if g.key = f.key then v % 2 ^ f.width else s.fget g := by
  by_cases h : g.key = f.key
  · simp [State.fget, h]
  · simp [State.fget, h, alookup_ainsert_ne _ _ _ _ h]

/-- A field after a write of that field. -/
@[simp] theorem State.fget_fset_same (s : State) (f : Fld) (v : Nat) : (s.fset f v).fget f = v % 2 ^ f.width := by
  simp [State.fget_fset]

/-- Fields depend on the register store alone. -/
theorem State.fget_congr {s t : State} (h : t.regs = s.regs) (f : Fld) : t.fget f = s.fget f := by simp [State.fget, h]

/-- An event joins a queue that has room and changes nothing else (R386). -/
theorem State.pushEv_room (s : State) (e : Ev) (h : LogRoom s) : s.pushEv e = { s with log := logPlus s [e] } := by
  simp [State.pushEv, h, logPlus]

/-- A module event joins a queue that has room. -/
theorem State.log'_room (s : State) (f : Fld) (p : Bool) (sev vmid : Nat) (args : List Nat) (h : LogRoom s) :
    s.log' f p sev vmid args = { s with log := logPlus s [eventOf s f p sev vmid args] } := by
  rw [State.log', State.logAt, State.pushEv_room _ _ h]; rfl

/-- An access without error leaves no record (R473). -/
@[simp] theorem State.recordFault_ok (s : State) (rq : Req) (a : Nat) (k : AccKind) (d c : Nat) :
    s.recordFault rq a k .ok d c = s := by simp [State.recordFault]

/-- A write access that passes the gate and that its block accepts. -/
theorem State.regWriteAccess_ok {s u : State} {rq : Req} {a : Nat} {body : State → Rsp × State} (h : WriteGranted rq a s)
    (hb : body s = (.ok, u)) : s.regWriteAccess rq a body = { u with resp := .ok, rdata := 0 } := by
  simp [State.regWriteAccess, State.regAccess, h, hb, State.complete]

/-- A write access that passes the gate and that its block refuses. -/
theorem State.regWriteAccess_refused {s u : State} {rq : Req} {a : Nat} {r : Rsp} {body : State → Rsp × State}
    (h : WriteGranted rq a s) (hb : body s = (r, u)) :
    s.regWriteAccess rq a body = (u.recordFault rq a .write r 0xF 0).complete r 0 := by
  simp [State.regWriteAccess, State.regAccess, h, hb]

/-- A read access that passes the gate. -/
theorem State.regReadAccess_ok {s u : State} {rq : Req} {a d : Nat} {body : State → Nat × State} (h : ReadGranted rq a s)
    (hb : body s = (d, u)) : s.regReadAccess rq a body = { u with resp := .ok, rdata := d % 2 ^ 32 } := by
  simp [State.regReadAccess, State.regAccess, h, hb, State.complete]

/-- A write of a field changes the register store alone. -/
theorem OnlyRegs_fset (s : State) (f : Fld) (v : Nat) : OnlyRegs [f] s (s.fset f v) := by
  refine ⟨rfl, fun g hg => ?_⟩
  simp at hg
  simp [State.fget_fset, hg]

/-- Nothing has changed. -/
theorem OnlyRegs.refl (fs : List Fld) (s : State) : OnlyRegs fs s s := ⟨rfl, fun _ _ => rfl⟩

/-- One more write of one of the fields. -/
theorem OnlyRegs.fset {fs : List Fld} {s t : State} (h : OnlyRegs fs s t) (f : Fld) (v : Nat) (hf : f.key ∈ fs.map Fld.key) :
    OnlyRegs fs s (t.fset f v) := by
  refine ⟨by rw [h.1]; rfl, fun g hg => ?_⟩
  have : g.key ≠ f.key := fun e => hg (e ▸ hf)
  simp [State.fget_fset, this, h.2 g hg]

/-- The fault record changes nothing but its own fields. -/
theorem OnlyRegs_recordFault (s : State) (rq : Req) (a : Nat) (k : AccKind) (r : Rsp) (d c : Nat) :
    OnlyRegs faultFields s (s.recordFault rq a k r d c) := by
  have hc : (rspCounter r).key ∈ faultFields.map Fld.key := by cases r <;> decide
  unfold State.recordFault State.bump
  split
  · exact .refl _ _
  · simp only
    have h1 := (OnlyRegs.refl faultFields s).fset _ (satInc (rspCounter r).width (s.fget (rspCounter r))) hc
    split
    · exact h1
    · exact (((((((((((h1.fset _ _ (by decide)).fset _ _ (by decide)).fset _ _ (by decide)).fset _ _ (by decide)).fset _ _ (by decide)).fset _ _ (by decide)).fset _ _ (by decide)).fset _ _ (by decide)).fset _ _ (by decide)).fset _ _ (by decide)).fset _ _ (by decide))

/-- A completion over a change of the register store alone. -/
theorem complete_frame (s u : State) (r : Rsp) (d : Nat) (h : u = { s with regs := u.regs }) :
    { u with resp := r, rdata := d } = { s with regs := u.regs, resp := r, rdata := d } := by rw [h]

/-- A refused write leaves the completion and the fault record, when its block changed nothing. -/
theorem State.regWriteAccess_denied {s : State} {rq : Req} {a : Nat} {r : Rsp} {body : State → Rsp × State} (hr : r ≠ .ok)
    (h : WriteGranted rq a s) (hb : body s = (r, s)) : Refused r s (s.regWriteAccess rq a body) := by
  rw [State.regWriteAccess_refused h hb]
  obtain ⟨h1, h2⟩ := OnlyRegs_recordFault s rq a .write r 0xF 0
  rw [State.complete, if_neg hr]
  exact ⟨complete_frame _ _ _ _ h1, fun g hg => h2 g hg⟩

end Sys2Proof.Machine
end

