-- ==== Sys2Proof/WellFormed.lean ====
section
/-! DEFINITION. Which commands are well formed: their operands lie in the ranges the spec gives them. The machine gives every
command of `Instr` a meaning, well formed or not. -/
namespace Sys2Proof

open Sys2Proof.Machine

/-- A requester byte, and a ticket VMID: 0 to 63, or 0xFF for supervisor software (R163, R473). -/
def Req.wf (rq : Req) : Bool := decide (rq.id < 256) && (decide (rq.vmid < 64) || rq.vmid == 0xFF)

/-- An address of the 40-bit physical map (R469). -/
def addrOk (a : Nat) : Bool := decide (a < 2 ^ 40)

/-- An access size: 1, 2, 4 or 8 bytes; a register block takes 4 alone (R13). -/
def sizeOk (n : Nat) : Bool := n == 1 || n == 2 || n == 4 || n == 8

/-- A raw stamp lies within the range of the time base (R29). -/
def stampOk (t : Nat) : Bool := decide (t < 2 ^ 48 * secUnits)

/-- A frame whose stamp is a time-base value. -/
def RxFrame.wf (fr : RxFrame) : Bool := stampOk fr.stamp

/-- A CAN frame: an 11-bit or 29-bit identifier; data of a classic frame up to 8 bytes, of an FD frame of a length that a data
length code has; no remote FD frame, and a rate switch in an FD frame alone (R440). -/
def CanFrame.wf (fr : CanFrame) : Bool :=
  decide (fr.id < if fr.ext then 2 ^ 29 else 2 ^ 11) && (fr.fd || !fr.brs) && !(fr.fd && fr.rtr) &&
    (decide (fr.data.length ≤ 8) || (fr.fd && [12, 16, 20, 24, 32, 48, 64].contains fr.data.length))

/-- A task index: VMID × 256 + task number (R150). -/
def taskOk (t : Nat) : Bool := decide (t < 16384)

/-- A record that was read has its whole length. -/
def recordOk (n : Nat) : Option (List Byte) → Bool
  | none => true
  | some r => r.length == n

/-- A command is well formed: requester, address, size, indices and records in their ranges, and the fields of an instruction
those that its word admits (R108, R110). -/
def Instr.wellFormed (i : Instr) : Bool :=
  match i with
  | .registerWrite rq addr size _ => rq.wf && addrOk addr && sizeOk size
  | .rcRegisterRead rq addr => rq.wf && addrOk addr
  | .handshakeWatchdogExpiry rq addr _ vc chan _ lane =>
    rq.wf && addrOk addr && decide (vc < 4) && decide (chan < 16) && decide (lane < 8)
  | .tdcEdge _ _ raw => stampOk raw
  | .bufferedStoreComplete _ _ slot => decide (slot < 8)
  | .slackReading _ _ slack => decide (slack < 256)
  | .reservationFrameEnd dir sent => decide (sent.length = if dir = 0 then 5 else 1)
  | .arbiterGrant _ arrivals => arrivals.all (fun r => decide (r.index ≤ 64))
  | .class1Release task => taskOk task
  | .class1DeadlineMiss task => taskOk task
  | .checkpointSeal task => taskOk task
  | .frameReceive _ fr => fr.wf
  | .claspFrameReceive _ fr => fr.wf
  | .accountTick energy => decide (energy.length = 9)
  | .class1MineHold task _ => taskOk task
  | .acqUpdate rq rec => rq.wf && decide (rec < 32)
  | .arm rq rec => rq.wf && decide (rec < 32)
  | .disarm rq rec => rq.wf && decide (rec < 32)
  | .trig rq rec => rq.wf && decide (rec < 32)
  | .freeSeg rq rec _ => rq.wf && decide (rec < 32)
  | .canFrameReceive _ fr => fr.wf
  | .slotDebounceDone _ identity => recordOk 128 identity
  | .sfpInsert _ a0 => recordOk 64 a0
  | .octetCounterLowRead rq _ _ | .tbIncrWrite rq _ | .tbStepRequest rq _ | .tbSet rq _ | .tbInval rq _ | .tbNowLatch rq
  | .tsqEntryRead rq | .tdcResultRead rq _ | .tbTdcctlWrite rq _ _ | .rateWrite rq _ | .optgtWrite rq _ | .bezelSlackRead rq _
  | .admission rq _ | .revoke rq _ | .takeup rq | .exchange rq | .stopTask rq | .restart rq | .dropTask rq
  | .portDisable rq _ _ | .streamUpdate rq _ | .streamActivate rq | .streamFlush rq | .replayGo rq _ | .netswC0useRead rq
  | .sfeUpdate rq _ | .sfeClear rq _ | .wamsEnable rq _ | .wamsUpdate rq _ | .wamsFlush rq _ | .detectorReset rq _
  | .kernelCancel rq _ | .vpiUpdate rq _ | .pubupd rq _ | .subupd rq _ | .startVpi rq _ | .freeze rq _ | .thaw rq _
  | .resetVpi rq _ | .drill rq _ | .cancel rq | .resync rq | .domainCommand rq _ | .movebeat rq | .movemgt rq | .claim rq _ _
  | .ownershipRelease rq _ _ | .viewFirst rq _ | .viewNext rq _ | .viewSeek rq _ | .viewRelatch rq _ | .viewRelease rq _
  | .viewPost rq _ _ | .mailboxSend rq _ | .advance rq _ | .rma rq _ | .scrap rq _ | .dbgopen rq _ | .progroot rq _
  | .svnup rq _ | .challenge rq _ | .progkey rq _ | .bootKeyRevoke rq _ | .writeKey rq _ | .derive rq _ | .invalidate rq _
  | .setlink rq _ | .keyRngRead rq | .recover rq _ _ | .iobusUpdate rq _ | .objConfig rq | .objLatch rq | .objSend rq
  | .objClear rq | .slotForce rq _ _ | .sfpRead rq _ _ | .sfpWrite rq _ _ | .dtripArmWrite rq _ | .dtripTestWrite rq _
  | .bicfgWrite rq _ _ | .xtdrvWrite rq _ | .sysRstcmdWrite rq _ | .sysWdogWrite rq _ | .sysWdkickWrite rq _
  | .sysLanerelWrite rq _ | .crcSeedWrite rq _ | .crcDataWrite rq _ => rq.wf
  | .aluOp _ _ _ _ _ | .mulOp _ _ _ _ _ | .divOp _ _ _ _ _ | .immediateOp _ _ _ _ _ | .shiftImmediate _ _ _ _ _ | .movHi _ _ _
  | .pcHi _ _ _ | .load _ _ _ _ _ _ | .store _ _ _ _ _ | .vLd _ _ _ _ | .vSt _ _ _ _ | .branch _ _ _ _ _ | .jmp _ _ | .call _ _
  | .jmpR _ _ _ _ | .atomic _ _ _ _ _ _ _ _ | .f32Op _ _ _ _ _ | .vectorOp _ _ _ _ _ _ | .cmul _ _ _ _ _ | .cconj _ _ _ _
  | .cmag _ _ _ _ | .cang _ _ _ _ | .cmac _ _ _ _ | .cmacC _ _ _ _ | .acClr _ _ | .acRd _ _ _ _ _ | .imgLd _ _ _ _ _ _
  | .imgSt _ _ _ _ _ _ | .imgSet _ _ _ _ | .imgClr _ _ _ _ | .tmrTon _ _ _ _ _ | .tmrTof _ _ _ _ _ | .tmrTp _ _ _ _ _
  | .tmrRst _ _ _ _ | .edgR _ _ _ _ _ | .edgF _ _ _ _ _ | .edgB _ _ _ _ _ | .edgInit _ _ _ _ _ | .bezOpen _ | .bezClose _ _
  | .chkCommit _ _ _ | .chkSize _ _ | .fence _ | .fenceW _ | .fenceI _ | .tsync _ _ | .wait _ | .yieldLane _ | .sysRd _ _ _
  | .sysWr _ _ _ | .sysCall _ _ | .brk _ _ | .eret _ | .sysIpi _ _ | .tlbInv _ _ _ _ | .tlbPin _ _ _ | .tlbUnpin _ _ _
  | .alkPost _ _ _ | .alkPoll _ _ _ => fieldsOk i
  | .beatPllReferenceLoss | .locketCardInserted | .locketCardRemoved | .ocxoWarm | .tbReferenceLost | .tbReferenceRelock
  | .launchFrameArrival _ _ | .launchSlotOpen _ | .loadResponse _ | .postedBusError _ _ _ _ | .interruptTake _
  | .tsyncComplete _ | .waitComplete _ | .glideComplete | .rampStart | .rampComplete | .op4HotExit | .hotClear
  | .quantumExpiry _ | .sourceFire _ | .waitingReleaseStart _ | .class0Overrun _ | .exchangeValidated | .streamMissLookupDone
  | .portFrameStart _ | .frameTransmitComplete _ | .t1sCollision _ | .t1sBackoffExpiry | .linkStateChange _ _ _ _
  | .streamActivateDone | .frameAgeOut _ _ | .residueService | .auditorVisit | .replayDone | .txRingFrame _ | .sfeFrameIngest
  | .setWindowExpiry _ | .groupCompletion _ | .groupLost _ | .c37FrameIngest | .feedRingSlot | .localRecordIngest
  | .bucketDeadline | .alarmFrame | .kernelActivationStart _ | .kernelMaxtExpiry _ | .echoRequestSend _ | .timeFrameSend
  | .shareIngressSwitch _ | .freezeDone _ | .vpiResetDone _ | .gooseRetransmit _ | .gooseSubscribe | .gooseTalExpiry _
  | .heartbeatMissing _ | .beatcntMismatch _ | .vcompFault _ | .sparePowerUpDone | .sparePowerTimeout | .drillBoundary
  | .resyncDone _ _ | .domainChangeDone _ | .governorGrant _ | .unitIdleGate _ | .unitWake _ | .temperatureReading _ _ _ _ _
  | .wakeSource _ | .standbyEntry | .standbyTimeout | .supplyInputChange _ _ | .holdupUpdate _ | .sfwClear | .aonSupplyLoss
  | .ocxoActive | .pllLock _ | .pllReferenceLoss _ | .eventRecordWrite | .acqRowWrite _ | .acqRowDeadline _ | .mailboxResponse
  | .mailboxTimeout | .locketFeedFrame | .ident | .locketStatus | .readPoint | .readHallmark | .readLog | .readParam
  | .paramWrite | .fwChunk | .commit | .sealSwitchOpen | .sealSwitchClose | .locketPowerUp | .locketPeriodicSave
  | .locketSupplyFail | .demandIntervalEnd | .lifeCycleReset | .keyRemask | .rngHealthFail | .dramWipeDone | .canFrameSent _ _
  | .canTxError _ _ _ | .canRecoveryDone _ | .ioGroupRefresh _ | .slotPresenceClose _ | .slotEnable _ | .slotPresenceOpen _
  | .cageOvercurrent _ | .dtOutChange _ _ | .dtReadbackMismatch _ | .biDebouncedChange _ _ | .biPeriodWrite | .xtEdge _ _
  | .xtPulseEnd _ | .powerOnReset | .warmReset _ | .watchdogExpiry | .watchdogHalf | .debugHaltRequest | .debugResetRequest
  | .commandComplete _ | .illegalInstruction _ _ | .cmpOutputChange _ _ | .cageModuleRemoved _ | .locketSecondEnd
  | .mailboxLineLockChange _ | .canRxError _ _ => true

end Sys2Proof
end

