-- ==== Sys2Proof/Tests/Slice0.lean ====
section
/-! SUPPORT. Tests: for every obligation states and operands that meet the hypotheses of its clauses (`witness_…`), and checks of
expected values from the spec (`test_…`). -/
namespace Sys2Proof.Tests

set_option Elab.async false

open Sys2Proof Sys2Proof.Machine Sys2Proof.Machine.Reg

/-! ### States of the tests -/

/-- Supervisor software on M0. -/
def sup : Req := ⟨0x80, 0xFF, false⟩

/-- After reset with the MEM PLL locked: M0 can fetch from DRAM. -/
def sM : State := State.reset.fset (CLK_PLL_LOCK 1) 1

/-- A translation of the first pages to themselves that serves every access of an instance. -/
def tlbAll : TlbEntry :=
  { vmid := 0xFF, asid := 0, page := 0, big := true, ppage := 0, r := true, w := true, x := true, tu := true, dev := false,
    dirty := true, one := false }

/-- Cluster 0 is on and its lane 0 runs bank F in mode `m`. -/
def sC (m : Mode) : State :=
  (sM.fset PWR_DSTATE_D0 1).modLane 0 (fun x => { x with
    st := .running, tlb := [tlbAll], f := { x.f with status := { x.f.status with mode := m, xoff := m == .s } } })

/-- A page of the lane's own memory, pinned. -/
def pinAt (page pa : Nat) : Pin :=
  { vmid := 0, page := page, big := false, ppage := pa / 4096, r := true, w := true, x := true, dev := false }

/-- Lane 0 runs task 7's activation in bank G: its instruction memory is pinned at 0, its data memory at 0x1000. -/
def sG : State :=
  (sC .t).modLane 0 (fun x => { x with
    inG := true, pins := (x.pins.set 0 (some (pinAt 0 0x4100000000))).set 1 (some (pinAt 1 0x4100010000)),
    cur := some (0, some 9),
    run := some { src := 0, entry := 0, task := 7, budget := 1000, beats := 0, items := [], header := [], nper := 1,
                  tok := ⟨0, 0, 0, 1, 1, false⟩ } })

/-- The instruction issues. -/
def issues (l : Fin 52) (i : Instr) (k : Kind) (n : Nat) (s : State) : Bool := decide (Issues l i k n s)

/-! ### Issue -/

/-- M0 issues every kind of register instruction after reset. -/
theorem witness_registerInstructions : ∀ x ∈ ([(.aluOp 40 .clz 31 31 0, 1), (.mulOp 40 .mulq 1 2 3, 2), (.mulOp 40 .mulD 30 2 3, 3),
    (.divOp 40 .remu 0 0 31, 18), (.immediateOp 40 .cmpLtui 1 2 0xFFFF, 1), (.shiftImmediate 40 .ror 1 2 31, 1),
    (.movHi 40 31 0x1FFFFF, 1), (.pcHi 40 31 0x1FFFFF, 1), (.branch 40 .eq 1 2 0x8000, 2), (.branch 40 .ne 1 2 0x7FFF, 1),
    (.jmp 40 0x2000000, 2), (.call 40 0x1FFFFFF, 2), (.jmpR 40 1 2 2, 3), (.jmpR 40 1 2 0xFFFC, 3), (.cmul 40 false 15 15 0, 3),
    (.cmul 40 true 15 15 0, 4), (.cconj 40 false 15 15, 1), (.cconj 40 true 0 15, 1), (.cmag 40 1 31 15, 6), (.cang 40 0 31 15, 8),
    (.cmac 40 1 15 0, 3), (.cmacC 40 0 15 0, 3), (.acClr 40 1, 1), (.acRd 40 1 15 1 9, 2)] : List (Instr × Nat)),
    issues 40 x.1 plain x.2 sM := by decide +kernel

/-- M0 issues every binary32 and vector operation after reset. -/
theorem witness_floatAndVector :
    (∀ op ∈ [FOp.add, .sqrt, .fma, .min, .cmps, .ftou, .class], issues 40 (.f32Op 40 op 31 1 0) plain (fBeats op) sM) ∧
    (∀ op ∈ [VOp.addI, .mulI, .xor, .addF, .fmaF], issues 40 (.vectorOp 40 op 15 0 15 0) plain (vBeats op) sM) ∧
    issues 40 (.vectorOp 40 .sumF 31 15 0 0) plain (vBeats .sumF) sM ∧ issues 40 (.vectorOp 40 .splat 15 31 0 0) plain (vBeats .splat) sM ∧
    issues 40 (.vectorOp 40 .ins 15 31 0 3) plain (vBeats .ins) sM ∧ issues 40 (.vectorOp 40 .ext 31 15 0 3) plain (vBeats .ext) sM ∧
    issues 40 (.vectorOp 40 .mov 15 0 0 0) plain (vBeats .mov) sM := by decide +kernel

/-- Branch relations that hold and that do not. -/
theorem witness_branchesAndJumps : BranchSays .eq ((bankAt 40 sM).reg 1) ((bankAt 40 sM).reg 2) ∧
    ¬ BranchSays .ne ((bankAt 40 sM).reg 1) ((bankAt 40 sM).reg 2) ∧
    (wordOf (((bankAt 40 sM).reg 2).toNat + (0xFFFC : BitVec 16).toInt)).toNat % 4 = 0 ∧
    (wordOf (((bankAt 40 sM).reg 2).toNat + (2 : BitVec 16).toInt)).toNat % 4 ≠ 0 := by
  unfold BranchSays; decide +kernel

/-- Finite operands with finite results: 1 + 1, 3 ÷ 2, 2² + 1 and an integer. -/
theorem witness_floatResultsAreNearest :
    ∀ op ∈ [FOp.add, .sub, .mul, .div, .fma, .itof, .utof], FFinite (fValue op 0 0x3F800000 0x3F800000 0x40000000).1 := by decide +kernel

/-! ### Memory -/

/-- A load, a store and a vector access of M0 in DRAM pass translation, and the memory answers. -/
theorem witness_loadsAndStores :
    (match translate 40 (vaOf (bankAt 40 sM) 1 0x100) .r (fetched 40 sM) with
      | (.ok p, s2) => decide ((targetTrap s2 40 p).isNone ∧ p.dev = false ∧ isDev p.pa = false ∧
          vaOf (bankAt 40 sM) 1 0x100 % 16 = 0 ∧ (s2.lane 40).timed = false ∧ (s2.lane 40).f.sbuf.length < 7 ∧
          issues 40 (.load 40 .d 30 1 0x100 false) plain (targetCost s2 40 p 2 6) sM ∧
          issues 40 (.load 40 .w 31 1 0x100 true) plain (targetCost s2 40 p 2 6) sM ∧
          issues 40 (.vLd 40 15 1 0x100) plain (targetCost s2 40 p 3 7) sM ∧
          (laneRead 40 false p.pa 8 .read (spend 40 (targetCost s2 40 p 2 6) s2)).1 = .ok ∧
          issues 40 (.store 40 .d 30 1 0x100) plain (targetCost s2 40 p 1 4) sM ∧
          issues 40 (.vSt 40 15 1 0x100) plain (targetCost s2 40 p 2 5) sM)
      | _ => false) = true := by decide +kernel

/-- In bank G, data memory is the target of the same accesses. -/
theorem witness_timedLoadsAndStores :
    (match translate 0 (vaOf (bankAt 0 sG) 1 0x1FF0) .w (fetched 0 sG) with
      | (.ok p, s2) => decide ((targetTrap s2 0 p).isNone ∧ p.dev = false ∧ isDev p.pa = false ∧ (s2.lane 0).timed = true ∧
          vaOf (bankAt 0 sG) 1 0x1FF0 % 16 = 0 ∧ (s2.lane 0).bank.sbuf = [] ∧ s2.ecc = [] ∧ s2.cecc = [] ∧
          s2.canon (p.pa + 8) = s2.canon p.pa + 8 ∧
          ([0, 8].all (fun o => (memWriteAcc ((s2.lane 0).req 0 (s2.lane 0).inG) (p.pa + o) (zeroBytes 8) .write s2).1 == .ok)) = true ∧
          issues 0 (.store 0 .w 31 1 0x1FF0) plain (targetCost s2 0 p 1 4) sG ∧
          issues 0 (.vSt 0 15 1 0x1FF0) plain (targetCost s2 0 p 2 5) sG)
      | _ => false) = true := by decide +kernel

/-- An outstanding load of M0, and stores waiting in its buffer: one that memory takes and one to a hole. -/
def sOut : State := sM.modLane 40 (fun x => { x with
  out := some ⟨31, 2, true, 0x3FFFFFFFE, false⟩,
  f := { x.f with sbuf := [⟨0x3FFFFFFF8, zeroBytes 8, 0xFF⟩, ⟨0x400000000, zeroBytes 4, 0xFF⟩] } })

/-- The response of an outstanding load, the end of a buffered store, and a posted error. -/
theorem witness_outstandingAccesses :
    (laneRead 40 false 0x3FFFFFFFE 2 .read (sOut.modLane 40 (fun x => { x with out := none }))).1 = .ok ∧
    (laneRead 40 false 0x3FFFFFFF8 8 .read (sOut.modLane 40 (fun x => { x with out := none }))).1 = .ok ∧
    nextOut 40 false 0 sOut = some ⟨0x3FFFFFFF8, zeroBytes 8, 0xFF⟩ ∧
    (memWriteAcc (laneReq 40 false 0xFF) 0x3FFFFFFF8 (zeroBytes 8) .write (dropBuf 40 false 0 sOut)).1 = .ok ∧
    nextOut 40 false 1 sOut = some ⟨0x400000000, zeroBytes 4, 0xFF⟩ ∧
    (memWriteAcc (laneReq 40 false 0xFF) 0x400000000 (zeroBytes 4) .write (dropBuf 40 false 1 sOut)).1 ≠ .ok ∧
    ((dropBuf 40 false 1 sOut).lane 40).atBoundary = false ∧
    ((dropBuf 40 false 1 (sOut.modLane 40 (fun x => { x with out := none }))).lane 40).atBoundary = true := by decide +kernel

/-- An atomic of M0 on the last word of DRAM. -/
theorem witness_atomics :
    let s := sM.modLane 40 (fun x => { x with f := x.f.setPair 2 0x3FFFFFFFC })
    (match translate 40 (atomicVa (bankAt 40 s) 2 true) .a (fetched 40 s) with
      | (.ok p, s2) => decide (atomicVa (bankAt 40 s) 2 true % 4 = 0 ∧ (targetTrap s2 40 p).isNone ∧ atomicRegion s2 p = true ∧
          (s2.lane 40).bank.sbuf = [] ∧ s2.ecc = [] ∧ s2.cecc = [] ∧
          (s2.gate ((s2.lane 40).req 40 false).vmid p.pa 4 true).rsp = .ok ∧
          (s2.gate ((s2.lane 40).req 40 false).vmid p.pa 4 false).rsp = .ok ∧
          issues 40 (.atomic 40 .cas true true true 1 2 3) { modes := .all, untimed := true, absent := none } (targetCost s2 40 p 0 0) s)
      | _ => false) = true := by decide +kernel

/-! ### Images -/

/-- Bank G with images of 32 bytes in data memory: I at 0, Q at 64, M at 128; g1 addresses the last byte of Q, g2 the last block
of M, g3 byte 24 of Q, g4 the last bit of Q. -/
def sI : State := sG.modLane 0 (fun x => { x with
  g := ((((({ x.g with imgI := 32 * 65536, imgQ := 32 * 65536 + 64, imgM := 32 * 65536 + 128 }).setReg 1 (131072 + 8 * 31)).setReg 2
    (262144 + 8 * 16)).setReg 3 (131072 + 8 * 24)).setReg 4 (131072 + 8 * 31 + 7)) })

/-- The checks of an access to an image, and the lane's data memory ready. -/
def imageOk (a n : Nat) (bit write : Bool) : Prop :=
  ImageOk (bankAt 0 sI) a n bit write ∧ DataReady 0 (imgOffset (bankAt 0 sI) a) n (fetched 0 sI)

/-- Image accesses at the ends of an image. -/
theorem witness_imageInstructions : imageOk (imgAddr (bankAt 0 sI) 4 0 0) 1 true true ∧ imageOk (imgAddr (bankAt 0 sI) 4 0 0) 1 true false ∧
    imageOk (imgAddr (bankAt 0 sI) 1 0 0) 1 false true ∧ imageOk (imgAddr (bankAt 0 sI) 3 0 0) 8 false true ∧
    issues 0 (.imgLd 0 .bit 31 4 0 0) plain 2 sI ∧ issues 0 (.imgLd 0 .d 30 3 0 0) plain 2 sI ∧ issues 0 (.imgSt 0 .bit 31 4 0 0) plain 2 sI ∧
    issues 0 (.imgSt 0 .d 30 3 0 0) plain 1 sI ∧ issues 0 (.imgSet 0 4 0 0) plain 2 sI ∧ issues 0 (.imgClr 0 4 0 0) plain 2 sI := by
  and_intros <;> decide +kernel

/-- The last timer block of an image. -/
theorem witness_timers : imgBit (blockAddr (bankAt 0 sI) 2 0) = 0 ∧ imgByte (blockAddr (bankAt 0 sI) 2 0) % 16 = 0 ∧
    imageOk (blockAddr (bankAt 0 sI) 2 0) 16 false true ∧
    issues 0 (.tmrTon 0 31 2 5 0) plain 5 sI ∧ issues 0 (.tmrTof 0 31 2 5 0) plain 5 sI ∧ issues 0 (.tmrTp 0 31 2 5 0) plain 5 sI ∧
    issues 0 (.tmrRst 0 31 2 0) plain 5 sI := by
  and_intros <;> decide +kernel

/-- The last bit of an image, in the edge-init set and not. -/
theorem witness_edges : imageOk (blockAddr (bankAt 0 sI) 4 0) 1 true true ∧
    issues 0 (.edgR 0 31 4 5 0) plain 3 sI ∧ issues 0 (.edgF 0 31 4 5 0) plain 3 sI ∧ issues 0 (.edgB 0 31 4 5 0) plain 3 sI ∧
    issues 0 (.edgInit 0 31 4 5 0) plain 3 sI ∧ runningTask ((fetched 0 sI).lane 0) = some 7 ∧
    (7, blockAddr (bankAt 0 sI) 4 0) ∉ ((fetched 0 sI).lane 0).edges ∧
    (let s := sI.modLane 0 (fun x => { x with edges := [(7, 131072 + 8 * 31 + 7)] })
     (7, blockAddr (bankAt 0 s) 4 0) ∈ ((fetched 0 s).lane 0).edges) := by
  and_intros <;> decide +kernel

/-- A task of class `c` in state RUN, descriptor bytes `b`. -/
def taskOf (b : List Byte) : Task :=
  { desc := parseDesc b, st := .run, cflt := 0, cycle := 0, skip := 0, dmiss := 0, ovr := 0, abt := 0, nskip := 0, first := false,
    restored := false, forced := [], warned := false, exch := none, stopReq := false, dropReq := false, active := true, gens := 1,
    actGens := 1, nper := 1, relAt := 0, dlAt := 0, missed := false, energy := 0, bofs := 0, unsealed := none, oldBofs := none,
    after := none, dir := 0 }

/-! ### Windows, waits and ends -/

/-- Task 7 may commit 4096 bytes. -/
def sGt : State := { sG with tasks := [(7, { taskOf (zeroBytes 64) with
  desc := { parseDesc (zeroBytes 64) with chkSize := 4096 } })] }

/-- Windows open and close; a commit of the whole CHKSIZE at the end of data memory. -/
theorem witness_windowsAndCommits :
    issues 0 (.bezOpen 0) plain 1 (sC .s) ∧ ((fetched 0 (sC .s)).lane 0).timed = false ∧
    (let s := sC .s |>.modLane 0 (fun x => { x with
       f := { x.f with pc := 0, status := { x.f.status with timed := true } }, posted := [] })
     ((fetched 0 s).lane 0).timed = true) ∧
    issues 0 (.chkCommit 0 1 511) plain (6 + 513 / 2) sGt ∧ ((fetched 0 sGt).task 7).isSome ∧
    ((sGt.modLane 0 (fun x => { x with g := x.g.setReg 1 61440 })).lane 0).bank.reg 1 = 61440 ∧
    issues 0 (.chkSize 0 31) plain 1 sGt := by decide +kernel

/-- A timed window of bank F whose instructions lie in the lane's instruction memory. -/
def sW : State := (sC .s).modLane 0 (fun x => { x with
  f := { x.f with status := { x.f.status with timed := true, xoff := false } },
  tlb := [{ tlbAll with one := true, ppage := 0x4100000000 / 4096, big := false }] })

/-- bez.close in a window. -/
theorem witness_windowCloses : issues 0 (.bezClose 0 31) plain 1 sW ∧ ((fetched 0 sW).lane 0).timed = true ∧
    ((fetched 0 sW).lane 0).inG = false := by decide +kernel

/-- M0 waits for an IPI that is pending and enabled, or is not. -/
theorem witness_fencesAndWaits :
    issues 40 (.fence 40) plain 1 sM ∧ issues 40 (.fenceW 40) plain 1 sM ∧ issues 40 (.fenceI 40) (untimed .all) 0 sM ∧
    issues 40 (.tsync 40 2) (untimed .ks) 0 sM ∧ issues 40 (.tsync 40 3) (untimed .ks) 0 sM ∧ issues 40 (.wait 40) (untimed .ks) 0 sM ∧
    ((fetched 40 sM).lane 40).timed = false ∧ (fetched 40 sM).dieW = true ∧ { fetched 40 sM with variant := .e }.dieW = false ∧
    waitOver sM 40 (sM.lane 40).k = false ∧
    (let s := sM.modLane 40 (fun x => { x with ipi := some 0x81, sr := { x.sr with sie := 16 }, st := .waiting })
     waitOver s 40 (s.lane 40).k = true ∧ (s.lane 40).st = .waiting ∧ (s.lane 40).inG = false ∧ (s.lane 40).gated = false) ∧
    (let s := sM.modLane 40 (fun x => { x with st := .tsync 3 0 [] })
     tsyncOver s 3 0 [] = true) ∧
    (let s := { sM with tasks := [(7, taskOf (zeroBytes 64))] }
     tsyncOver s 3 0 [(7, 1)] = false) := by decide +kernel

/-- A class-1 task of VPI 0 on lane 0 ends its activation. -/
def sY : State :=
  { sC .t with tasks := [(7, { taskOf (zeroBytes 64) with desc := { parseDesc (zeroBytes 64) with cls := 1, omapn := 0 } })] }.modLane 0
    (fun x => { x with cur := some (0, some 7) })

/-- yield of a kernel and of a class-1 task. -/
theorem witness_yield : issues 40 (.yieldLane 40) (untimed .all) 2 sM ∧ ((fetched 40 sM).lane 40).ctxs = [] ∧
    ((fetched 40 sM).lane 40).f.status.mode = .s ∧ issues 0 (.yieldLane 0) (untimed .all) 2 sY ∧
    ((fetched 0 sY).lane 0).f.status.mode = .t ∧ ((fetched 0 sY).lane 0).cur = some (7 / 256, some 7) ∧
    ((fetched 0 sY).lane 0).timed = false ∧
    ((fetched 0 sY).task 7).map (fun k => (k.desc.cls, k.desc.omapn, k.stopReq, k.dropReq)) = some (1, 0, false, false) := by decide +kernel

/-! ### Exceptions -/

/-- Lanes that can enter K and S, and one that meets a second exception in S. -/
theorem witness_exceptionEntry :
    (((sC .t).lane 0).inG = false ∧ ((sC .t).lane 0).ticket = none ∧ takesK 0 ((sC .t).lane 0) ⟨.callT, 0, 0, 0, 0⟩ = true) ∧
    (((sC .k).lane 0).f.status.mode = .k ∧ takesK 0 ((sC .k).lane 0) ⟨.illegal, 0, 0, 0, 0⟩ = false) ∧
    (let s := sM.modLane 40 (fun x => { x with f := { x.f with status := { x.f.status with exl := true } } })
     isCluster 40 = false ∧ (s.lane 40).f.status.mode = .s ∧ (s.lane 40).f.status.exl = true ∧ (s.lane 40).ticket = none ∧
       s.log.queue.length < 256) := by decide +kernel

/-- A fault of bank G in the only entry of a sequence. -/
theorem witness_bankGAbort : (sGt.lane 0).inG = true ∧ (sGt.lane 0).run.isSome ∧ (sGt.lane 0).cur.isSome = true ∧
    (sGt.lane 0).st = .running ∧ (sGt.lane 0).entries = [] ∧
    (sGt.task 7).map (fun k => (k.desc.flim, k.stopReq, k.dropReq)) = some (0, false, false) := by decide +kernel

/-- Calls, breaks and an unimplemented word, in T and in S. -/
theorem witness_callsAndBreaks :
    issues 0 (.sysCall 0 255) (untimed .all) 0 (sC .t) ∧ issues 40 (.sysCall 40 0) (untimed .all) 0 sM ∧ issues 0 (.brk 0 255) (untimed .all) 0 (sC .t) ∧
    ((fetched 0 (sC .t)).lane 0).timed = false ∧ ((fetched 0 (sC .t)).lane 0).f.status.mode = .t ∧
    illegalWord 40 (isCluster 40) 0xFC000000 = true ∧ fetchOk 40 sM = true ∧ (sM.lane 40).canRun = true ∧ (sM.lane 40).posted = [] := by
  decide +kernel

/-- eret from S to T, and in K. -/
theorem witness_eret :
    issues 0 (.eret 0) { untimed .ks with badMode := !supportsMode 0 (modeOf (bitsOf 0 3 2)) } 0 (sC .s) ∧
    savedStatus ((sC .s).lane 0) = (0 : Word).toNat ∧ ((fetched 0 (sC .s)).lane 0).sr.sepc.toNat % 4 = 0 ∧
    issues 0 (.eret 0) { untimed .ks with badMode := !supportsMode 0 (modeOf (bitsOf 0 3 2)) } 0 (sC .k) ∧
    ((fetched 0 (sC .k)).lane 0).f.status.mode = .k := by decide +kernel

/-- An IPI and a bank G abort record that can be taken; a lane outside a boundary. -/
theorem witness_interrupts :
    (let s := (sC .s).modLane 0 (fun x => { x with
       ipi := some 0x80, sr := { x.sr with sie := 0xFE }, f := { x.f with status := { x.f.status with ie := true } } })
     takeable s 0 = some 4 ∧ (s.lane 0).atBoundary = true ∧ (s.lane 0).posted = []) ∧
    (let s := (sC .s).modLane 0 (fun x => { x with
       g0cause := 0x80000005, sr := { x.sr with sie := 0xFE }, f := { x.f with status := { x.f.status with ie := true } } })
     takeable s 0 = some 1) ∧ (sG.lane 0).atBoundary = false := by decide +kernel

/-- Readable, writable and forbidden system registers. -/
theorem witness_systemRegisters :
    issues 40 (.sysRd 40 31 0x200) plain 2 sM ∧ srDenied 40 (sM.lane 40) 0x200 none = false ∧ issues 40 (.sysRd 40 31 4) plain 2 sM ∧
    (∀ p ∈ [0x008, 0x200, 0x201, 0x203, 0x204, 0x205], srDenied 40 (sM.lane 40) p (some 0) = false) ∧
    (∀ p ∈ [0x010, 0x011, 0x012, 0x101, 0x102, 0x104, 0x105, 0x106, 0x110, 0x111, 0x210, 0x211, 0x220],
      srDenied 0 ((sC .s).lane 0) p (some 0) = false) ∧
    bankAt 40 sM = (sM.lane 40).bank ∧ issues 40 (.sysWr 40 1 0x204) { plain with badMode := srBadMode 40 (sM.lane 40) 0x204 0 } 2 sM ∧
    srDenied 0 ((sC .t).lane 0) 0x200 none = true ∧ issues 0 (.sysRd 0 31 0x200) plain 2 (sC .t) := by decide +kernel

/-- Die W is on, and g2 and g3 of M0 and of lane 0 hold what the service instructions name. -/
def sS : State := ((sC .s).modLane 0 (fun x => { x with f := (x.f.setReg 2 0x80).setReg 3 0x1000 })).modLane 40
  (fun x => { x with f := (x.f.setReg 2 0x00).setReg 3 0x3F0F })

/-- An IPI between lanes, tlb.inv, tlb.pin, tlb.unpin, alk.post and alk.poll. -/
theorem witness_laneServices :
    issues 0 (.sysIpi 0 2) { untimed .s with absent := none } 0 sS ∧ laneIdOf (40 : Fin 52).val = ((sS.lane 0).f.reg 2).toNat % 256 ∧
    absentLane sS 8 0 = none ∧ ((fetched 0 sS).lane 40).st ≠ .off ∧
    issues 40 (.sysIpi 40 2) { untimed .s with absent := none } 0 sS ∧ (fetched 40 sS).domOn 0 = true ∧
    issues 40 (.tlbInv 40 1 2 8) { untimed .ks with absent := none } 0 sS ∧ absentLane sS ((8 : BitVec 12).toNat / 128 % 8) 0 = none ∧
    issues 0 (.tlbPin 0 2 3) (untimed .s) 0 sS ∧ ((sS.lane 0).f.reg 2).toNat / 16 % 16 ≠ 0 ∧
    issues 0 (.tlbPin 0 1 3) (untimed .s) 0 sS ∧ (pinOp 0 0x1000 0 ⟨0, by decide⟩ (fetched 0 sS)).1.toOption.isSome ∧
    issues 0 (.tlbUnpin 0 3 true) (untimed .s) 0 sS ∧ issues 0 (.tlbUnpin 0 3 false) (untimed .s) 0 sS ∧
    sS.dieW = true ∧ issues 0 (.alkPost 0 4 3) (alkKind sS) 0 sS ∧ issues 0 (.alkPoll 0 4 3) (alkKind sS) 0 sS ∧
    (match translate 0 ((sS.lane 0).f.reg 3).toNat .r (fetched 0 sS) with
      | (.ok p, s2) => (targetTrap s2 0 p).isNone && (targetCost s2 0 p 0 0 == 0) && (loadBytes 0 false p 64 s2).1.toOption.isSome
      | _ => false) = true := by decide +kernel

/-! ### Register accesses and time base -/

/-- Every PLL is locked and every domain on. -/
def sP : State :=
  [CLK_PLL0_LOCK, CLK_PLL_LOCK 0, CLK_PLL_LOCK 1, CLK_PLL_LOCK 2, CLK_PLL_LOCK 3, CLK_PLL_LOCK 4, PWR_DSTATE_D0, PWR_DSTATE_D1,
    PWR_DSTATE_D2, PWR_DSTATE_D3, PWR_DSTATE_D4, PWR_DSTATE_D8].foldl (fun s f => s.fset f 1) State.reset

/-- Supervisor software may write these registers. -/
def writes (as : List Nat) (s : State) : Bool := as.all (fun a => decide (WriteGranted sup a s))

/-- Supervisor software may read these registers. -/
def reads (as : List Nat) (s : State) : Bool := as.all (fun a => decide (ReadGranted sup a s))

/-- Accesses that are refused and why, one of each response; with a syndrome held and not. -/
theorem witness_refusedAccesses :
    (State.reset.gate 0xFF 0xF000090008 2 true).rsp = .denied ∧ (State.reset.gate 0xFF 0x400000000 4 false).rsp = .denied ∧
    (State.reset.gate 5 0xF000000020 4 true).rsp = .denied ∧ (State.reset.gate 0xFF 0x4000000000 4 true).rsp = .unpowered ∧
    (State.reset.gate 0xFF 0x3FFFFFFFC 4 false).rsp = .unpowered ∧ State.reset.clockStopped 0x3FFFFFFFC = true ∧
    ({ State.reset with variant := .e }.gate 0xFF 0x4002000000 4 true).rsp = .absent ∧ regionOf 0x400000000 = .hole ∧
    regionOf 0xF000090008 = .block 9 8 ∧ State.reset.fbit SYS_FSYND0_VALID = false ∧
    (State.reset.fset SYS_FSYND0_VALID 1).fbit SYS_FSYND0_VALID = true := by decide +kernel

/-- Values inside and outside a field's range, a locked field, and registers of distinct fields. -/
theorem witness_fields : writeIllegal [FAB_VC3LIM_LIM] 1 = true ∧ writeIllegal [FAB_VC3LIM_LIM] 2 = false ∧
    writeIllegal [FAB_VC3LIM_LIM] 15 = false ∧ writeIllegal [IO_NBT_SJW 0, IO_NBT_BRP 0] 0 = false ∧
    ([IO_NBT_SJW 0, IO_NBT_BRP 0].map Fld.key).Nodup ∧ ([BEZEL_STAT_HOTL, BEZEL_STAT_HOT, BEZEL_STAT_SRC].map Fld.key).Nodup := by
  decide +kernel

/-- A write at the end of DRAM, registers of the FAB block, octet counters, and an access that hangs. -/
theorem witness_busCommands : regionOf 0x3FFFFFFF8 = .dram 0x3FFFFFFF8 ∧ (sM.gate 0xFF 0x3FFFFFFF8 8 true).rsp = .ok ∧ sM.ecc = [] ∧
    sM.cecc = [] ∧ regionOf 0xF000050000 = .block 5 0 ∧ writes [0xF000050000] State.reset ∧ reads [0xF000050000] State.reset ∧
    (findReg regsFAB 0xF000050000).isSome ∧ reads [0xF0000B0020, 0xF0000B0028, 0xF0000BC020] sP ∧
    State.reset.log.queue.length < 256 ∧ laneOfId 0xC0 = none := by decide +kernel

/-- Time-base registers, with VALID and the lock as each clause needs them. -/
theorem witness_timeBase : writes [0xF000090008, 0xF000090014, 0xF000090000] sP ∧ State.reset.fbit TB_STAT_VALID = false ∧
    State.reset.fbit TB_LOCK_LOCK = true ∧ (State.reset.fset TB_LOCK_LOCK 0).fbit TB_LOCK_LOCK = false ∧
    (State.reset.fset TB_STAT_VALID 1).fbit TB_STAT_VALID = true ∧ State.reset.fget TB_SET_NS_V ≤ 999999999 ∧
    999999999 < (State.reset.fset TB_SET_NS_V 1000000000).fget TB_SET_NS_V ∧ writes [0xF000090008, 0xF000090014, 0xF000090000]
      ((sP.fset TB_STAT_VALID 1).fset TB_LOCK_LOCK 0) ∧
    signedOf 64 ((1 : Word).toNat * 2 ^ 32 + 0) > 0 ∧ signedOf 64 (0 * 2 ^ 32 + State.reset.fget TB_STEP_LO_STEP) = 0 := by decide +kernel

/-- Stamps to read and channels with and without an owner. -/
theorem witness_timeStamps : reads [0xF000090024, 0xF000090050, 0xF000090414, 0xF0000904F4] sP ∧ State.reset.tb.tsq = [] ∧
    State.reset.fget (TB_TDCCTL_OWNER 7) = 0 ∧ (State.reset.fset (TB_TDCCTL_OWNER 7) 2).fget (TB_TDCCTL_OWNER 7) = 2 ∧
    (State.reset.tdc 7).results = [] ∧ writes [0xF000090400, 0xF0000904E0] sP := by decide +kernel

/-! ### Resets, system control, Bezel -/

/-- Flash without an image; a transition accepted and none. -/
theorem witness_resets : bootForm (bootHeader State.reset 0) = false ∧ bootForm (bootHeader State.reset 1) = false ∧
    State.reset.sec.life ≠ 4 ∧ State.reset.sec.next = none ∧ (∀ r : Fin 32, State.reset.recs[r].st = .off) := by decide +kernel

/-- SYS, DEBUG and CRC registers; the watchdog off and on; the debug port open and closed. -/
theorem witness_systemControl : writes [0xF00000002C, 0xF000000020, 0xF000000024, 0xF000000028, 0xF000110000, 0xF000110004] State.reset ∧
    State.reset.fbit SYS_WDOG_EN = false ∧ ((State.reset.fset SYS_WDOG_EN 1).fset SYS_WDOG_MS 60000).fget SYS_WDOG_MS = 60000 ∧
    (State.reset.fset SYS_WDOG_EN 1).fbit SYS_WDOG_EN = true ∧ debugOpen State.reset = true ∧
    debugOpen { State.reset with sec := { State.reset.sec with life := 2 } } = false ∧
    (State.reset.fset SCHED_STAT_ADM 1).fbit SCHED_STAT_ADM = true ∧ crc32c [] = 0 ∧ State.reset.fget CRC_RESULT_V = crc32c [] := by
  decide +kernel

/-- The Bezel at rest at point 2, in a glide, in a ramp, in point 4, and with the cold plate hot. -/
theorem witness_bezel : writes [0xF000030008, 0xF00003003C] sP ∧ reads [0xF000030020, 0xF000030030] sP ∧
    State.reset.fget BEZEL_STAT_OPCUR = 2 ∧ State.reset.fget BEZEL_OPTGT_OP = 2 ∧ State.reset.bezel.ramp = none ∧
    State.reset.fbit BEZEL_STAT_SLEW = false ∧ (State.reset.fset BEZEL_STAT_SLEW 1).fbit BEZEL_STAT_SLEW = true ∧
    (State.reset.fset BEZEL_OPTGT_OP 1).fget BEZEL_OPTGT_OP < (State.reset.fset BEZEL_OPTGT_OP 1).fget BEZEL_STAT_OPCUR ∧
    State.reset.fget BEZEL_STAT_OPCUR < (State.reset.fset BEZEL_OPTGT_OP 3).fget BEZEL_OPTGT_OP ∧
    (State.reset.fset BEZEL_STAT_OPCUR 4).fget BEZEL_STAT_OPCUR = 4 ∧ State.reset.domOn 0 = false ∧ (sC .s).domOn 0 = true ∧
    (sC .s).bezel.ramp = none ∧ (sC .s).fget BEZEL_STAT_OPCUR < 3 := by decide +kernel

/-! ### Dispatch, admission and tasks -/

/-- The bytes of a class-1 descriptor that take-up accepts: cluster 0, lane 0, an input image of 32 bytes, period and deadline 10 µs. -/
def desc1 : List Byte :=
  padTo 0x14 ([0, 0, 0xC1, 0].map (BitVec.ofNat 8)) ++ leBytes 4 (32 * 65536) ++ leBytes 4 (8 * 65536 + 32) ++ leBytes 4 (8 * 65536 + 40) ++
    leBytes 2 48 ++ zeroBytes 18 ++ leBytes 4 10 ++ leBytes 4 10 ++ zeroBytes 4

/-- VPI 0 runs on lane 0 with its task table at DRAM 0; task 7 is the class-1 task of `desc1`, held and active or not. -/
def sT (active : Bool) : State :=
  { sC .t with
    mem := memWrite [] (64 * 7) desc1, tasks := [(7, { taskOf desc1 with active := active })],
    vpis := (sC .t).vpis.set 0 { vpi0 with ent := { vpiEntry0 with v := true, lanes := 1 }, st := .run } }

/-- A class-1 context that is ready. -/
def ctx1 : Ctx := { freshCtx 7 1 1000 with started := true }

/-- A started class-1 context of the earliest deadline that is ready on lane 0. -/
theorem witness_earliestDeadline :
    let s := (sT true).modLane 0 (fun x => { x with ctxs := [ctx1], cur := none, st := .idle })
    isCluster 0 = true ∧ dispatchable (s.lane 0) = true ∧ ctx1 ∈ (s.lane 0).ctxs ∧ ctx1.cls = 1 ∧ ctx1.started = true ∧ ctx1.waiting = false ∧
    ctxReady s 0 ctx1 = true ∧ runningCtx s (s.lane 0) = none ∧ (s.lane 0).cur = none ∧ (s.lane 0).f.sbuf = [] ∧
    dispatchable (sG.lane 0) = false := by decide +kernel

/-- Class-0 task 9 is bound to source 0 of lane 0, whose group completes; the lane is free, runs another source, or the same. -/
def sF (run waits : Option Nat) : State :=
  ({ sC .t with tasks := [(9, taskOf (zeroBytes 64))], tokens := (sC .t).tokens.set 0 [⟨5, 0, 0, 1, 1, false⟩] }.fset SCHED_STAT_ADM 1).modLane 0
    (fun x => { x with
      st := .idle, srcs := x.srcs.set 0 ⟨true, 1, 5⟩, entries := [⟨true, 9, 0, 1000⟩],
      waits := (match waits with
        | some n => x.waits.set (n % 4) (some ⟨5, 0, 0, 1, 1, false⟩)
        | none => x.waits),
      run := run.map (fun n => { src := n, entry := 0, task := 9, budget := 9, beats := 0, items := [], header := [], nper := 1,
                                 tok := ⟨5, 0, 0, 1, 1, false⟩ }) })

/-- A token that fires a source of a free lane, of a lane that runs another source, and of one that runs the same. -/
theorem witness_completions :
    (sF none none).tokens[0] = [⟨5, 0, 0, 1, 1, false⟩] ∧ (sF none none).fbit SCHED_STAT_ADM = true ∧ (sF none none).domOn 0 = true ∧
    firing (sF none none) (clusterLane 0 0) ⟨5, 0, 0, 1, 1, false⟩ = [0] ∧
    firing (sF none none) (clusterLane 0 7) ⟨5, 0, 0, 1, 1, false⟩ = [] ∧
    (liveEntries (sF none none) (clusterLane 0 0) 0 0 ⟨5, 0, 0, 1, 1, false⟩).length = 1 ∧
    ((sF none none).lane 0).st = .idle ∧ ((sF none none).lane 0).run = none ∧ ((sF (some 1) none).lane 0).run.isSome = true ∧
    ((sF (some 0) none).lane 0).run.map (·.src) = some 0 ∧ (sF (some 0) none).log.queue.length + 1 + 1 ≤ 256 ∧
    (((sF none (some 0)).lane 0).waits[0]).isSome = true ∧ ((sF none none).task 9).map (fun y => y.exch) = some none := by decide +kernel

/-- A class-0 activation at the last entry of its sequence that overruns. -/
theorem witness_overrun :
    let s := ({ sG with tasks := [(7, taskOf (zeroBytes 64))] }.fset FAILOVER_POL_OVR 15)
    (s.lane 0).run.isSome = true ∧ (s.task 7).map (fun k => (k.desc.flim, k.stopReq, k.dropReq)) = some (0, false, false) ∧
    (s.lane 0).cur.isSome = true ∧ (s.lane 0).st = .running ∧ s.fo.ovrAt[0].length + 1 < s.fget FAILOVER_POL_OVR ∧
    (s.lane 0).entries = [] ∧ (State.reset.lane 0).run = none := by decide +kernel

/-- Clusters on with empty slot tables, BEAT on its PLL at the floor: admission passes; each check that fails. -/
theorem witness_admission :
    let s := (sP.fset BEZEL_STAT_SRC 1).fset BEZEL_FLOOR_FLOOR 13
    writes [0xF000040000] sP ∧ sP.fbit BEZEL_STAT_SRC = false ∧ s.fget BEZEL_FLOOR_FLOOR ≤ s.fget BEZEL_BEAT_RATE ∧
    17 < (s.fset BEZEL_FLOOR_FLOOR 18).fget BEZEL_FLOOR_FLOOR ∧ (admitCheck ((sM.fset BEZEL_STAT_SRC 1).fset BEZEL_FLOOR_FLOOR 13)).1 = (0, 0, 0) ∧
    (admitCheck (((sM.fset BEZEL_STAT_SRC 1).fset BEZEL_FLOOR_FLOOR 13).fset SCHED_STAT_ADM 1)).1 = (7, 7, 0) ∧
    blockBad s (leBytes 4 0x81000000 ++ zeroBytes 268) = true ∧ sP.fbit FAILOVER_STAT_BUSY = false ∧
    (sP.fset FAILOVER_STAT_BUSY 1).fbit FAILOVER_STAT_BUSY = true := by decide +kernel

/-- Reservations at and above their limit, and an arbiter with requests of two indices. -/
theorem witness_arbitration :
    State.reset.resv[7] + 0 - State.reset.fget (FAB_VC0RES_UNITS 7) = 0 ∧ 0 < State.reset.resv[7] + 512 - State.reset.fget (FAB_VC0RES_UNITS 7) ∧
    deficit0.cursor < 65 ∧ deficit0.deficit.length = 65 ∧ 1 ≤ State.reset.fget FAB_SUPW_W ∧
    ((([⟨0, 64, 4⟩, ⟨1, 0, 1⟩] : List GrantReq).foldr byInput []).foldl enqueueReq []).length = 2 := by decide +kernel

/-- Task 7 active and not, in every state the task events name. -/
theorem witness_taskEvents :
    ((sT true).task 7).map (fun x => (x.desc.cls, x.active, x.missed)) = some (1, true, false) ∧
    ((sT true).task 7).map (fun x => decide (x.st = .run) && x.unsealed.isNone) = some true ∧
    ((sT false).task 7).map (fun x => !x.active && x.exch.isNone) = some true ∧ ((sT true).vpi 0).st = .run ∧
    (taskLane (sT true) (parseDesc desc1) = 0 ∧ ((sT true).lane 0).st ≠ .idle) ∧ ((sT true).lane 0).cur ≠ some (0, some 7) ∧
    laneBudget ((sT true).fset (bstField 0) 3) 0 = 3 ∧
    (let s := (sT true).modLane 0 (fun x => { x with cur := some (0, some 7) })
     dispatchable (s.lane 0) = true ∧ (s.lane 0).ctxs = []) ∧ (sT true).domOn 5 = true ∧ (sT true).ecc = [] ∧
    (parseDesc desc1).cluster < 4 ∧ (taskOf desc1).dir < 256 ∧ (parseDesc desc1).mine ≤ 0 := by decide +kernel

/-- Take-up, restart and the other task commands, with and without the task. -/
theorem witness_taskCommands :
    let s := (sT false).fset VPI_TXARG_TASK 7
    writes [0xF000158000] s ∧ s.fbit VPI_TXSTAT_BUSY = false ∧ s.fbit VPI_TXSTAT_PEND = false ∧ s.fget VPI_TXARG_TASK = 7 ∧
    (readDesc 7 s).1 = desc1 ∧ descErr s 7 0 desc1 = 0 ∧ descErr s 7 1 desc1 = 1 ∧ placeErr s (taskOf desc1) = 0 ∧
    foOnRole s (parseDesc desc1).cluster = false ∧ (taskOf desc1).desc.fact = false ∧ inActivation s 7 (taskOf desc1) = false ∧
    inActivation (s.modLane 0 (fun x => { x with cur := some (0, some 7) })) 7 (taskOf desc1) = true ∧ s.task 8 = none ∧
    (s.fset VPI_TXSTAT_PEND 1).fbit VPI_TXSTAT_PEND = true ∧ roleDown s 0 = false ∧ roleDown s 4 = true ∧
    (checkExchange s ([7, 0].map (BitVec.ofNat 8) ++ zeroBytes 30) 0 0 desc1).1 = 0 ∧
    (checkExchange s ([6, 0].map (BitVec.ofNat 8) ++ zeroBytes 30) 0 0 desc1).1 = 1 := by decide +kernel

/-! ### Failover and power -/

/-- Cluster 0 is on with the spare ready. -/
def sR : State := (sC .s).fset FAILOVER_STAT_SPARE 1

/-- Checks that fail on a cluster with a role, with and without a spare, and one of a cluster that is off. -/
theorem witness_failedChecks : sR.roleOf 0 = some 0 ∧ sR.domOn 0 = true ∧ sR.fget FAILOVER_STAT_PHASE = 0 ∧
    (sR.fset FAILOVER_CTL_EN 1).fbit FAILOVER_CTL_EN = true ∧ sR.fbit FAILOVER_STAT_SPARE = true ∧ spareGroup sR = 4 ∧
    (sC .s).fbit FAILOVER_STAT_SPARE = false ∧ sR.fo.revokePend = false ∧ sR.domOn 1 = false ∧ sR.roleOf 4 = none := by decide +kernel

/-- Failover in each phase; commands that are refused and that are not. -/
theorem witness_failover : govHolds State.reset 4 = false ∧ State.reset.groupOf 3 = 3 ∧ spareGroup State.reset = 4 ∧
    (State.reset.fset FAILOVER_STAT_PHASE 2).fget FAILOVER_STAT_PHASE = 2 ∧ (State.reset.fset FAILOVER_STAT_PHASE 7).fget FAILOVER_STAT_PHASE = 7 ∧
    (State.reset.fset FAILOVER_STAT_PHASE 6).fget FAILOVER_STAT_PHASE = 6 ∧ State.reset.fbit FAILOVER_STAT_DRILL = false ∧
    writes [0xF000060008] State.reset ∧ State.reset.clusterFitted 3 = true ∧ State.reset.tasks = [] ∧ State.reset.fbit FAILOVER_STAT_BUSY = false ∧
    (State.reset.fset FAILOVER_STAT_SPARE 1).fbit FAILOVER_STAT_SPARE = true ∧ atBoundary State.reset 3 = true ∧
    atBoundary ((sF (some 0) none)) 0 = false ∧ State.reset.fo.revokePend = false := by decide +kernel

/-- PWR_DCMD: each refusal, each error, and changes to ON, OFF and RET; domains on their way. -/
theorem witness_domains : writes [0xF000010008] State.reset ∧ State.reset.fbit PWR_DCMDSTAT_BUSY = false ∧
    (State.reset.fset PWR_DCMDSTAT_BUSY 1).fbit PWR_DCMDSTAT_BUSY = true ∧ domAbsent { State.reset with variant := .e } 2 = true ∧
    domAbsent State.reset 8 = false ∧ State.reset.dom 0 = 0 ∧ dcmdErr State.reset 0 1 = 0 ∧ dcmdErr State.reset 0 2 = 2 ∧
    dcmdErr sP 0 0 = 0 ∧ dcmdErr sP 7 2 = 0 ∧ dcmdErr State.reset 9 2 = 0 ∧ dcmdErr (sP.fset FAILOVER_STAT_BUSY 1) 0 0 = 5 ∧
    dcmdErr ([PWR_DSTATE_D6, PWR_DSTATE_D7, PWR_DSTATE_D9].foldl (fun s f => s.fset f 0) State.reset) 5 2 = 0 ∧
    alookup 0 State.reset.power.target = none ∧
    (∀ n ∈ [0, 1, 2], alookup 9 (State.reset.modPower (fun p => { p with target := [(9, n)] })).power.target = some n) ∧
    govHolds (State.reset.modPower (fun p => { p with gov := [⟨4, 0, [1]⟩] })) 0 = true ∧ govHolds State.reset 0 = false ∧
    State.reset.domOn 5 = true ∧ (0 : Nat) ≠ spareGroup State.reset := by decide +kernel

/-- A stage at the head of the governor that fits and one that does not; units gated, idle and busy. -/
theorem witness_governor : State.reset.power.gov = [] ∧ recentGrants State.reset = [] ∧
    (let s := State.reset.modPower (fun p => { p with grants := [(0, 5999, 1)] })
     ((recentGrants s).map (·.2.1)).sum + 1 ≤ 6000 ∧ ¬ ((recentGrants s).map (·.2.1)).sum + 2 ≤ 6000 ∧
       (recentGrants s).all (fun g => g.2.2 != 9) = true ∧ ¬ (recentGrants s).all (fun g => g.2.2 != 1) = true) ∧
    ¬ ((9 : Nat) = spareGroup State.reset ∧ State.reset.fget FAILOVER_STAT_PHASE ∈ [2, 6]) ∧
    (State.reset.lane (unitLane 0)).gated = false ∧ (State.reset.lane (unitLane 10)).ticket = none ∧
    (sP.modLane (unitLane 10) (fun x => { x with st := .idle })).lane (unitLane 10) = { sP.lane (unitLane 10) with st := .idle } ∧
    State.reset.fget (PWR_IDLE_T 0) = 0 ∧ ((State.reset.fset (PWR_IDLE_T 10) 1).fget (PWR_IDLE_T 10)) ≠ 0 := by decide +kernel

/-- A cluster that is on, and below its third threshold. -/
theorem witness_accounts : sP.domOn 4 = true ∧ State.reset.domOn 4 = false ∧ State.reset.fget (bstField 4) ≤ 3 ∧
    budgetHeld (State.reset.modPower (fun p => { p with hot := true })) = true ∧ State.reset.power.th ≤ 125 := by decide +kernel

/-- Standby in each state, the supplies up and down, the hold-up. -/
theorem witness_supply : bitOf (State.reset.fget PWR_WAKEEN_EN) 9 = false ∧ bitOf ((State.reset.fset PWR_WAKEEN_EN 0x3FF).fget PWR_WAKEEN_EN) 9 = true ∧
    State.reset.power.standby ≠ .asleep ∧ (State.reset.fset PWR_DSTATE_D5 2).dom 5 = 2 ∧
    (let s := (State.reset.modPower (fun p => { p with standby := .wait })).modLane 40 (fun x => { x with st := .waiting })
     s.power.standby = .wait ∧ (s.lane 40).st = .waiting ∧ (s.lane 41).st = .reset ∧ (s.lane 43).st = .reset) ∧
    State.reset.fbit PWR_STAT_HOLDUP = false ∧ (State.reset.fset PWR_STAT_HOLDUP 1).fbit PWR_STAT_HOLDUP = true ∧
    State.reset.power.finalLogged = false ∧ State.reset.fbit PWR_STAT_INA = true ∧ State.reset.fbit PWR_CTL_SFWSHED = true ∧
    ((State.reset.fset PWR_STAT_INA 0).fset PWR_STAT_INB 0).fbit PWR_STAT_INB = false := by decide +kernel

/-- PLLs enabled and not, and the sources moved and not. -/
theorem witness_clocks : State.reset.fbit (pllEn 0) = true ∧ State.reset.fbit CLK_STAT_OCXOACT = false ∧
    (State.reset.fset CLK_STAT_OCXOACT 1).fbit CLK_STAT_OCXOACT = true ∧ State.reset.fbit (pllEn 5) = false ∧
    (State.reset.fset (pllEn 5) 1).fbit (pllEn 5) = true ∧ writes [0xF000020004] State.reset ∧ State.reset.fbit BEZEL_STAT_SRC = false ∧
    sP.fbit (CLK_PLL_LOCK 0) = true ∧ sP.fbit (CLK_PLL_LOCK 3) = true ∧ State.reset.fbit CLK_STAT_MGTSRC = false := by decide +kernel

/-- Resources free, held by the claimer and held by another. -/
theorem witness_resources : writes [0xF000010200] State.reset ∧ State.reset.fget (PWR_OWN_OWNER 43) = 0 ∧
    (State.reset.fset (PWR_OWN_OWNER 43) 5).fget (PWR_OWN_OWNER 43) = 5 ∧
    (State.reset.fset (PWR_OWN_OWNER 0) 0x7F).fget (PWR_OWN_OWNER 0) = 0x7F := by decide +kernel

/-! ### Ports and the switch -/

/-- An untagged frame of 60 bytes. -/
def fr0 : List Byte := beBytes 6 0x010203040506 ++ beBytes 6 0x0A0B0C0D0E0F ++ beBytes 2 0x9000 ++ zeroBytes 46

/-- The same frame as received. -/
def rx0 : RxFrame := ⟨fr0, true, false, 0⟩

/-- The switch forwards and port 0 is enabled. -/
def sN : State := [PORT_CTL_EN 0, NETSW_CTL_EN].foldl (fun s f => s.fset f 1) sP

/-- A stream-table entry for `fr0` from port 0 to I0. -/
def se0 : List Byte :=
  leBytes 2 1 ++ leBytes 1 0x80 ++ leBytes 1 0xFF ++ mkKey 5 1 0x010203040506 0x9000 0 0 ++ leBytes 2 1 ++ leBytes 2 1 ++ leBytes 1 8 ++
    leBytes 1 0xFF ++ zeroBytes 34

/-- Memory answers a read anywhere in DRAM when it is on. -/
theorem gate_dram (s : State) (v a n : Nat) (w : Bool) (h : a < 0x400000000) (h9 : s.domOn 9 = true) (hp : s.pllOn 2 = true) :
    (s.gate v a n w).rsp = .ok := by
  have hr : regionOf a = .dram a := by unfold regionOf; rw [if_pos h]
  simp [State.gate, State.isAbsent, addrDenied, State.targetDom, State.clockStopped, pllOf, hr, h9, hp]

/-- A Class-0 entry of the same frame. -/
def seC : List Byte :=
  leBytes 2 1 ++ leBytes 1 0xE0 ++ leBytes 1 0xFF ++ mkKey 1 1 0x010203040506 0x88BA 0 0 ++ leBytes 2 1 ++ leBytes 2 0x4000 ++ leBytes 1 7 ++
    leBytes 1 0xFF ++ leBytes 2 100 ++ leBytes 1 4 ++ leBytes 1 1 ++ zeroBytes 30

/-- The first slot of an entry's key. -/
def slotOf (r : List Byte) : Nat := (keySlots (seKey r)).headD 0

/-- The stream table holds an entry, at its slot, and the same bytes stand at the source of UPDATE with the next generation. -/
def sTab (r : List Byte) : State :=
  { sN.fset NETSW_STSRC_ADDR 0x8000000 with
    mem := memWrite (memWrite [] (64 * slotOf r) r) 0x200000000 (leBytes 2 (seGen r + 1) ++ r.drop 2) }

/-- Frame 0 is stored, owned by supervisor software. -/
def nf0 : NetFrame := { rxNetFrame sN 0 fr0 0 with dest := 1, refs := 1 }

/-- The switch holds frame `f` as handle 0, in queue `q` of destination `d`. -/
def sQ (d q : Nat) (f : NetFrame) (s : State) : State :=
  setQueue d q [0] { s with net := { s.net with bufs := [(0, f)] } }

/-- A transmit ring of VPI or supervisor `r` with the descriptor `d` and the frame 0 at its head. -/
def sRing (r : Nat) (d : List Byte) : State :=
  { [(TXRING_CFG_EN r, 1), (TXRING_TAIL_IDX r, 1)].foldl (fun s f => s.fset f.1 f.2) sN with mem := memWrite [] 0 (d ++ fr0) }

/-- A descriptor that sends frame 0 from port 0. -/
def dsc0 : List Byte := zeroBytes 14 ++ leBytes 2 1 ++ leBytes 2 60 ++ zeroBytes 14

/-- Frames that each check drops, and one that passes them all; the switch ready and not, with the entry cached. -/
theorem witness_framesReceived : portTakes sN 0 = true ∧ claspRole sN 0 = false ∧ portTakes State.reset 0 = false ∧
    (∀ m < 4, sN.fbit (NETSW_MIRCTL_EN m) = false) ∧ pairOf sN 0 = none ∧ sN.fget TB_PTPCTL_ROLE = 0 ∧ frEt fr0 = 0x9000 ∧
    frEt (fr0.take 12 ++ [0x88, 0x08]) = 0x8808 ∧ vlanOk sN 0 fr0 = true ∧ vlanOk (sN.fset (PORT_VLAN_ACCEPT 0) 1) 0 fr0 = false ∧
    sN.fget (PORT_MAXLEN_LEN 0) = 1522 ∧ sN.fbit NETSW_STAT_READY = false ∧ sN.fget (PORT_CTL_MISS 0) = 0 ∧
    frameKeys sN (rxNetFrame sN 0 fr0 0) = [seKey se0] ∧ bitOf (seInports se0) 0 = true ∧ seC0 se0 = false ∧ 64 ≤ seKs se0 ∧
    seDest se0 % 2 ^ 15 = 2 ^ 0 ∧ bitOf (seTc se0) 3 = true ∧ sN.fbit (PORT_CTL_EN 0) = true ∧ queueFree sN 0 0 = true ∧
    sN.net.occupancy 0xFF + cellsOf 64 ≤ sN.shareLimit 0xFF ∧ cellsOf 64 ≤ sN.freeCells ∧
    (cacheFind { sN with net := { sN.net with cache := [⟨slotOf se0, se0, false, 0, 0⟩] } } (seKey se0)).isSome := by decide +kernel

/-- A frame that waits for the table: the table holds its entry, or nothing. -/
theorem witness_tableLookups : (sTab se0).ecc = [] ∧ cacheFind (sTab se0) (seKey se0) = none ∧
    tableFind (seKey se0) (sTab se0) = (some (slotOf se0, se0), sTab se0) ∧ tableFind (seKey se0) sN = (none, sN) := by decide +kernel

/-- Transmit rings that are empty, that hold a bad descriptor, and that hold a good one. -/
theorem witness_transmitRings : State.reset.fbit (TXRING_CFG_EN 0) = false ∧ (sRing 64 dsc0).fbit (TXRING_CFG_EN 64) = true ∧
    (sRing 64 dsc0).fget (TXRING_HEAD_IDX 64) ≠ (sRing 64 dsc0).fget (TXRING_TAIL_IDX 64) ∧ (sRing 64 dsc0).domOn 7 = true ∧
    (sRing 64 dsc0).ecc = [] ∧ (sRing 64 dsc0).fget (TXRING_CFG_SIZE 64) ≤ 8 ∧ ((sRing 64 dsc0).gate 0xFF 0 8 false).rsp = .ok ∧
    ((sRing 64 dsc0).rd 0 32) = dsc0 ∧ ((sRing 64 dsc0).rd 32 60) = fr0 ∧ descBad (sRing 64 dsc0) dsc0 2048 = false ∧
    descBad (sRing 0 (zeroBytes 32)) (zeroBytes 32) 2048 = true ∧ leAt dsc0 0x13 1 = 0 ∧ leAt dsc0 0xE 2 = 2 ^ 0 := by decide +kernel

/-- Ports enabled, and writes that are granted. -/
theorem witness_portWrites : writes [0xF0000B0000, 0xF0000BC000] sN ∧ sN.fbit (PORT_CTL_EN 0) = true ∧ (0 : Word).toNat / 256 % 16 ≤ 11 := by
  decide +kernel

/-- A port idle with a frame in its queue, sending one, and neither. -/
theorem witness_framesSent :
    (let s := sQ 0 3 nf0 sN
     portIdle s 0 = true ∧ s.queue 0 3 = [0] ∧ (∀ j < 8, j ≠ 3 → s.queue 0 j = []) ∧ s.buf 0 = some nf0 ∧
       wireLen (wireBytes s 0 nf0) ≤ s.fget (PORT_MAXLEN_LEN 0) ∧ nf0.stamp = false ∧ nf0.corr = false ∧ nf0.asIs = false ∧
       s.now ≤ nf0.at_ + s.fget NETSW_MAXRES_MS * 1000000 * 65536 ∧ s.tb.launch[0] = [] ∧ referenced s 0 = true) ∧
    portIdle State.reset 0 = false ∧ State.reset.txOf 12 = none ∧
    (let x : TxNow := ⟨fr0, some 0, 0, some ⟨0, 12, 0, 0⟩⟩
     let s := { sN with net := { sN.net with bufs := [(0, nf0)], tx := sN.net.tx.set 12 (some x) } }
     s.txOf 12 = some x ∧ s.net.t1s.until_ = none ∧ s.net.t1s.n < 15 ∧ s.tb.tsq.length < 16 ∧
       ({ s with net := { s.net with t1s := ⟨15, some 1⟩ } } : State).net.t1s.n = 15) := by decide +kernel

/-- Much later. -/
def sLate : State := { sN with tb := { sN.tb with count := 2 ^ 72 } }

/-- Port 0 is supervisor software's, and frame 0 is to leave there at `at_`. -/
def sLaunch (at_ : Nat) : State :=
  let s : State := sN.fset (PWR_OWN_OWNER 28) 1
  { s with net := { s.net with bufs := [(0, { nf0 with launch := some at_, ring := 64 })], arriving := [(0, 0)] } }

/-- Launch-time frames on their way to port 0 in time and too late, and one whose slot is due, is open and has passed. -/
theorem witness_launchTimes : (sLaunch 0).owner 28 = 1 ∧ (sLaunch 0).tb.launch[0].length < 16 ∧
    ((0, 0) ∈ (sLaunch 0).net.arriving ∧ (1, 0) ∉ (sLaunch 0).net.arriving) ∧ ¬ ((sLaunch (2 ^ 60)).now + secUnits ≥ 2 ^ 60) ∧
    (let s := { sLaunch 0 with tb := { (sLaunch 0).tb with launch := (sLaunch 0).tb.launch.set 0 [⟨0, 0⟩] } }
     (0 : Nat) ≤ s.now ∧ s.now ≤ 0 + 256 * 65536 ∧ s.queue 0 7 = [] ∧ portIdle s 0 = true) ∧
    (sQ 0 7 nf0 (sLaunch 0)).queue 0 7 ≠ [] ∧ 0 + 256 * 65536 < sLate.now := by decide +kernel

/-- Frames old and young at the head of a queue and in the residue; handles with and without references. -/
theorem witness_agesAndResidues : (sQ 14 2 nf0 sN).queue 14 2 = [0] ∧ (sQ 14 2 nf0 sN).buf 0 = some nf0 ∧ sN.queue 14 2 = [] ∧
    ¬ (nf0.at_ + sN.fget NETSW_MAXRES_MS * 1000000 * 65536 < sN.now) ∧
    sN.fget NETSW_MAXRES_MS * 1000000 * 65536 < sLate.now ∧ queueFree sN 0 0 = true ∧
    sN.fget NETSW_RESAGE_T * 10000 * 65536 < sLate.now ∧ nf0.q < 8 ∧ nf0.refs ≠ 0 ∧
    sN.fbit NETSW_CTL_AUDEN = true ∧ (sN.fset NETSW_CTL_AUDEN 0).fbit NETSW_CTL_AUDEN = false ∧
    referenced { sN with net := { sN.net with bufs := [(0, nf0)] } } 0 = false ∧
    queueFree { sN with net := { sN.net with queues := sN.net.queues.set 7 (List.replicate 256 0) } } 0 7 = false := by decide +kernel

/-- The faults that UPDATE and ACTIVATE look for. -/
def stFaults (s : State) (j : Nat) (r : List Byte) : List (Nat × Bool) :=
  (5, decide (3072 ≤ lockedOthers s j)) :: seChecks s j r ((keySlots (seKey r)).map (fun n => (n, s.rd (s.canon (stAddr s n)) 64)))

/-- The table and the source of UPDATE can be read. -/
theorem witness_streamReads : (sTab se0).ecc = [] ∧ (sTab se0).cecc = [] ∧
    ((sTab se0).gate 0xFF ((sTab se0).fget NETSW_STSRC_ADDR * 64) 8 false).rsp = .ok ∧
    ∀ j < 32768, ((sTab se0).gate 0xFF (stAddr (sTab se0) j) 8 false).rsp = .ok := by
  refine ⟨by decide +kernel, by decide +kernel, by decide +kernel, fun j hj => gate_dram _ _ _ _ _ ?_ (by decide +kernel) (by decide +kernel)⟩
  have h : (sTab se0).fget NETSW_STBASE_ADDR = 0 := by decide +kernel
  unfold stAddr
  omega

/-- UPDATE with every check passed and with a wrong generation; ACTIVATE of a table without locked entries, with a good one and
with a bad one. -/
theorem witness_streamCommands : writes [0xF0000A0010, 0xF0000A0038] (sTab se0) ∧ reads [0xF0000A0020] (sTab se0) ∧
    (sTab se0).fbit NETSW_STSTAT_BUSY = false ∧ ((sTab se0).fset NETSW_STSTAT_BUSY 1).fbit NETSW_STSTAT_BUSY = true ∧
    (let s := sTab se0
     let r := s.rd (s.canon (s.fget NETSW_STSRC_ADDR * 64)) 64
     seGen r = (seGen se0 + 1) % 65536 ∧ seGen r ≠ (seGen r + 1) % 65536 ∧ s.rd (s.canon (stAddr s (slotOf se0))) 64 = se0 ∧
       seV r = true ∧ (s.fbit SCHED_STAT_ADM && (seC0 se0 && seV se0 || seC0 r && seV r)) = false ∧
       (stFaults s (slotOf se0) r).all (fun x => !x.2) = true ∧ (s.gate 0xFF (stAddr s (slotOf se0)) 8 true).rsp = .ok ∧
       stCandidates s = []) ∧
    stCandidates (sTab seC) = [slotOf seC] ∧ (stFaults (sTab seC) (slotOf seC) seC).all (fun x => !x.2) = true ∧
    (let bad := seC.set 0x18 0
     let bad := bad.set 0x1B 0
     stCandidates (sTab bad) = [slotOf bad] ∧ (6, true) ∈ stFaults (sTab bad) (slotOf bad) bad) := by decide +kernel

/-- A replay asked for and refused; captures wanted and not, close to the last one, with a full FIFO. -/
theorem witness_replayAndCaptures : sN.fget FAILOVER_STAT_PHASE ≠ 4 ∧ sN.fbit NETSW_RPSTAT_BUSY = false ∧ sN.net.replayQ = [] ∧
    sN.sfe.replay = none ∧ sN.net.actErr = none ∧ sN.owner 0 ≠ 3 ∧ (sN.tdc 0).last = none ∧ (sN.tdc 0).results.length < 4 ∧
    (let s := (sN.fset (TB_TDCCTL_SRC 0) 1).fset (TB_TDCCTL_EDGE 0) 1
     s.fget (TB_TDCCTL_SRC 0) ≠ 31 ∧ edgeSelected (s.fget (TB_TDCCTL_EDGE 0)) true = true ∧ s.fget (TB_TDCDLY_DLY 0) = 0) ∧
    edgeSelected (sN.fget (TB_TDCCTL_EDGE 0)) false = false := by decide +kernel

/-! ### Sample front end, recorders, Locket -/

/-- A sampled-value frame with one ASDU. -/
def svFrame (confRev : Nat) (data : List Byte) : List Byte :=
  let asdu := berElem 0x80 [0x41] ++ berElem 0x82 (beBytes 2 5) ++ berElem 0x83 (beBytes 4 confRev) ++ berElem 0x85 [2] ++ berElem 0x87 data
  let apdu := berElem 0x60 (berElem 0x80 [1] ++ berElem 0xA2 (berElem 0x30 asdu))
  fr0.take 12 ++ [0x88, 0xBA] ++ beBytes 2 0x4000 ++ beBytes 2 (8 + apdu.length) ++ zeroBytes 4 ++ apdu

/-- Group 3 with the inputs 10 and 11 in slots 0 and 1. -/
def sfe3 : Sfe :=
  let inp := fun (m : Nat) => ({ gen := 1, v := true, c0 := false, sim := false, nch := 1, rate := 4000, nasdu := 1, member := m, group := 3,
                                 confRev := 7, slot0 := m, used := 1, lastConf := none } : SfeInput)
  let ch : SfeChan := { gen := 1, v := true, c0 := false, gain := 2 ^ 16, ofs := 0, pdly := 0, stgs := [], det := 0, detThr := 0 }
  { sfe0 with
    inputs := [(10, inp 0), (11, inp 1), (12, { inp 0 with v := false, group := 4 })], chans := [(0, ch), (1, ch)],
    groups := [(3, { gen := 1, v := true, c0 := false, localOk := false, reqSync := true, zero := false, nmem := 2, win := 100, hmax := 3,
                     nout := 2, odiv := 1, hdep := 1, outF := false, loss := 5, dests := [(0, 0, 0)] })] }

/-- The front end runs with these tables, and a frame of input `i` waits for it. -/
def sSfe (i : Nat) (b : List Byte) : State :=
  sQ 14 2 { nf0 with bytes := b, kind := 1, target := i } { sN.fset SFE_CTL_EN 1 with sfe := sfe3 }

/-- Frames for no input, for an invalid one, with a wrong configuration, with the wrong number of channels, and a good one; a
simulated frame and one that does not parse. -/
theorem witness_sampleFrames :
    (let s := sSfe 10 (svFrame 7 (zeroBytes 8))
     s.domOn 6 = true ∧ s.fbit SFE_CTL_EN = true ∧ s.sfe.replay = none ∧ s.sfe.outbox = [] ∧ s.fget FAILOVER_STAT_PHASE ≠ 4 ∧
       lktPresent s = false ∧ ((takeI1 1 s).map (·.1.target)) = some 10 ∧ grpComplete s.sfe 3 = true ∧ (grpSt s false 3).sets = [] ∧
       (grpSt s false 3).last = none ∧ 3 ∉ s.sfe.lost ∧ ((alookup 10 s.sfe.inputs).map (·.lastConf)) = some none ∧
       (s.sfe.inputs.map (·.1)) = [10, 11, 12] ∧ ((alookup 12 s.sfe.inputs).map (·.v)) = some false ∧ alookup 9 s.sfe.inputs = none) ∧
    ([(7, 8), (6, 8), (7, 16)].all (fun (x : Nat × Nat) =>
      svApdu 1 (svFrame x.1 (zeroBytes x.2)) == some [⟨5, x.1, 2, none, zeroBytes x.2⟩]) = true) ∧
    bitOf (beAt (frPay (svFrame 7 [])) 4 2) 15 = false ∧ bitOf (beAt (frPay ((svFrame 7 []).set 18 0x80)) 4 2) 15 = true ∧
    svApdu 1 fr0 = none := by decide +kernel

/-- An open set past its window, outputs acknowledged, a group not complete. -/
theorem witness_setsAndOutputs :
    (let s := sSfe 10 []
     let o : OpenSet := ⟨0, 1, 4000, 0, { ((grpOf sfe3 3).getD ⟨0, true, false, false, false, false, 0, 0, 0, 0, 0, 0, false, 0, []⟩) with odiv := 2 }, [], 0xFF, 0, 0⟩
     let t := { s with sfe := { s.sfe with live := { s.sfe.live with groups := [(3, ⟨[o], none, 0, [], [], none⟩)] } } }
     (grpSt t false 3).sets = [o] ∧ (grpSt t false 3).last = none ∧ o.n % o.grp.odiv ≠ 0 ∧ t.sfe.phasors = [] ∧
       (List.finRange 32).all (fun r => !(t.recorder r).ent.v && !(t.recorder r).running) = true ∧ (grpSt s true 3).sets = []) ∧
    sfe3.compl = [] ∧ ({ sfe3 with compl := [⟨3, [0], ⟨3, 0, 0, 1, 1, false⟩, 0⟩] } : Sfe).compl.map (·.group) = [3] ∧
    grpComplete sfe3 4 = false := by decide +kernel

/-- A staged entry of the front end. -/
def sStage (b : List Byte) : State := { sSfe 10 [] with mem := memWrite [] 0 b }

/-- Staged entries of each table that pass, one with a bad field, one with a wrong generation; commands refused and accepted. -/
theorem witness_sfeCommands : writes [0xF0000C000C] (sStage []) ∧ (sStage []).fbit SFE_CMDSTAT_BUSY = false ∧
    ((sStage []).fset SFE_CMDSTAT_BUSY 1).fbit SFE_CMDSTAT_BUSY = true ∧ (sStage []).ecc = [] ∧ ((sStage []).gate 0xFF 0 8 false).rsp = .ok ∧
    (sStage []).fget SFE_STSRC_ADDR = 0 ∧ 5 < (sStage []).sfeSlots ∧ ({ sStage [] with variant := .e } : State).sfeSlots ≤ 2 ^ 14 - 1 ∧
    (let in0 := leBytes 2 1 ++ leBytes 1 0x80 ++ leBytes 1 1 ++ leBytes 4 4000 ++ leBytes 1 1 ++ leBytes 1 0 ++ leBytes 2 20 ++ leBytes 4 1 ++
       leBytes 2 5 ++ zeroBytes 2 ++ leBytes 4 1 ++ zeroBytes 8
     (inputUpdate (sStage []) 5 in0).1 = 0 ∧ (inputUpdate (sStage []) 5 (in0.set 0 2)).1 = 2 ∧
       inputBad (in0.set 2 0x81) (parseInput (in0.set 2 0x81)) = true) ∧
    (let g := leBytes 2 1 ++ leBytes 1 0x80 ++ leBytes 1 1 ++ leBytes 2 100 ++ leBytes 1 3 ++ leBytes 1 1 ++ leBytes 1 1 ++ leBytes 1 0 ++
       leBytes 2 5 ++ zeroBytes 52
     (groupUpdate (sStage []) 20 g).1 = 0) ∧
    (chanUpdate (sStage []) 5 (leBytes 2 1 ++ leBytes 1 0x80 ++ zeroBytes 29)).1 = 0 ∧
    (phasorUpdate (sStage []) 5 (leBytes 2 1 ++ leBytes 1 0x80 ++ leBytes 1 50 ++ zeroBytes 12)).1 = 0 ∧
    (coefUpdate (sStage []) 5 (leBytes 2 1 ++ leBytes 1 1 ++ zeroBytes 269)).1 = 0 := by decide +kernel

/-- A recorder entry with one segment and a command term. -/
def ent1 : RecEntry :=
  { rec0.ent with v := true, na := 1, rate := 4000, pre := 1, post := 1, nseg := 2, segsz := 1, terms := [⟨5, 0, 0, false, 0⟩], chans := [0] }

/-- Recorder 0 in a state. -/
def sRec (x : Recorder) : State := { sN.fset ACQ_CTL_EN 1 with recs := sN.recs.set 0 x }

/-- Recorder 0 off, filling and armed; segments free and filling; a row that is complete; a staged entry that passes. -/
theorem witness_recorders : writes [0xF000100014] (sRec rec0) ∧ (sRec rec0).fbit ACQ_CMDSTAT_BUSY = false ∧
    (sRec rec0).fbit ACQ_CTL_EN = true ∧ (sRec rec0).ecc = [] ∧ ((sRec rec0).gate 0xFF 0 8 false).rsp = .ok ∧
    (sRec rec0).fget ACQ_STSRC_ADDR = 0 ∧ recErr (sRec rec0) 0 (leBytes 2 1 ++ zeroBytes 510) = 0 ∧
    recBad (sRec rec0) (zeroBytes 512) (parseRec (zeroBytes 512)) = false ∧
    recBad (sRec rec0) (zeroBytes 0x13 ++ [1] ++ zeroBytes 492) (parseRec (zeroBytes 0x13 ++ [1] ++ zeroBytes 492)) = true ∧
    (let off := { rec0 with ent := ent1, segs := [0, 1] }
     let arm := { off with st := .armed, segs := [1, 0] }
     let fil := { arm with st := .fill, next := 1, pend := [⟨1, [some 0], 0⟩] }
     freeSegment off 0 = some 0 ∧ (sRec off).recorder 0 = off ∧ off.running = false ∧ (sRec arm).recorder 0 = arm ∧ arm.running = true ∧
       (sRec fil).recorder 0 = fil ∧ fil.running = true ∧ fil.lost = [] ∧ nth arm.segs 0 = 1 ∧ nth arm.segs 1 ≠ 1 ∧
       rowTag 1 4000 + 2000000 * 65536 ≤ sLate.now ∧ (sRec fil).now < rowTag 1000000 4000 + 2000000 * 65536 ∧ arm.ent.owner ≠ 0xFF ∧
       (List.finRange 32).all (fun q => ((sRec arm).recorder q).ent.terms.all (fun z => z.kind != 6)) = true) := by decide +kernel

/-- A request of the mailbox. -/
def lktReq (op : Nat) (p : List Byte) : List Byte :=
  let b := leBytes 1 0xA5 ++ leBytes 1 op ++ zeroBytes 2 ++ leBytes 2 p.length ++ zeroBytes 2 ++ p
  b ++ leBytes 4 (crc32c b)

/-- The card holds a request. -/
def sLkt (r : List Byte) (locked : Bool) : State :=
  { State.reset with locket := { locket0 with requests := [r], sealed_ := locked } }

/-- A request of each operation, one with a bad CRC, with the card sealed and open, and with its log full. -/
theorem witness_locketRequests :
    (∀ x ∈ ([(1, []), (2, []), (3, [31]), (3, [32]), (4, []), (5, [0, 0, 30]), (6, [0]), (6, [0xFF]), (0x10, 0xFF :: zeroBytes 64),
      (0x11, zeroBytes 8), (0x12, [1]), (0x12, [2]), (0x12, [3]), (0x12, [4, 0, 0, 0, 0])] : List (Nat × List Byte)),
      reqPayload (lktReq x.1 x.2) = some x.2 ∧ leAt (lktReq x.1 x.2) 1 1 = x.1) ∧
    reqPayload ((lktReq 1 []).set 8 0 |>.set 9 0) = none ∧ (sLkt [] true).locket.on = true ∧ (sLkt [] false).locket.log.length < 256 ∧
    256 ≤ ({ (sLkt [] false).locket with log := List.replicate 256 ⟨0, 0, 0, 0⟩ } : Locket).log.length := by decide +kernel

/-- The mailbox, the feed and the card. -/
theorem witness_locketEvents :
    (let s := State.reset.fset SYS_UNITS_LOCKET 1
     writes [0xF000160008] s ∧ s.fbit LOCKET_STAT_BUSY = false ∧ (s.fset LOCKET_STAT_BUSY 1).fbit LOCKET_STAT_BUSY = true ∧
       lktPresent s = true ∧ s.variant ≠ .p ∧ s.fbit SYS_UNITS_LOCKET = true ∧ State.reset.fbit SYS_UNITS_LOCKET = false ∧
       leAt (((List.range 128).flatMap (fun k => leBytes 4 ((s.fset (LOCKET_MBTX_V 0) 0x01A5).fget (LOCKET_MBTX_V k)))).take 8) 0 2 = 0x01A5 ∧
       s.locket.responses = [] ∧ s.locket.on = true ∧ s.locket.sealed_ = true ∧ s.locket.final ≠ none) ∧
    asdusOf (svFrame 7 (zeroBytes 8)) ≠ none ∧ asdusOf fr0 = none ∧
    (let r := lktResponse locket0 (lktReq 1 []) 0 [1]
     leAt r 0 1 = 0x5A ∧ r.length = 13 ∧ leAt r 4 2 = 1 ∧ leAt r 9 4 = crc32c (r.take 9)) := by decide +kernel

/-- The card's image and parameters are whole after reset, and an image that is not. -/
theorem witness_locketPowerUp : sha256 (memRead locket0.fwNext.1 0 locket0.fwNext.2) = locket0.hall.fwsum ∧
    sha256 (lktParams locket0) = locket0.hall.parsum ∧
    sha256 (memRead locket0.fwNext.1 0 locket0.fwNext.2) ≠ ({ locket0.hall with fwsum := 0 } : Hallmark).fwsum := by decide +kernel

/-! ### Concentrator -/

/-- The concentrator is enabled and time is valid. -/
def sWn : State := [WAMS_CTL_EN, TB_STAT_VALID].foldl (fun s f => s.fset f 1) sN

/-- A data frame with one block of ten bytes, at `frac` millionths of second `soc`. -/
def c37 (id soc frac : Nat) : List Byte :=
  let b := leBytes 1 0xAA ++ leBytes 1 1 ++ beBytes 2 26 ++ beBytes 2 id ++ beBytes 4 soc ++ beBytes 1 0 ++ beBytes 3 frac ++ zeroBytes 10
  b ++ beBytes 2 (crcCcitt b)

/-- The frame over UDP. -/
def udp (b : List Byte) : List Byte :=
  fr0.take 12 ++ [0x08, 0x00] ++ leBytes 1 0x45 ++ zeroBytes 1 ++ beBytes 2 (28 + b.length) ++ zeroBytes 5 ++ leBytes 1 17 ++ zeroBytes 10 ++
    zeroBytes 8 ++ b

/-- Input 5 expects frames with IDCODE 7; local source 3 is valid. -/
def wams5 : Wams :=
  { wams0 with
    inputs := [(5, { gen := 1, v := true, exp := false, cont := false, feed := true, idcode := 7, next := 0xFFFF, fsize := 26, fs := 50,
                     timebase := 1000000, blks := [⟨0, false, 1, 0, 0, 0, 0⟩] }),
               (6, { gen := 1, v := false, exp := false, cont := false, feed := true, idcode := 7, next := 0xFFFF, fsize := 26, fs := 50,
                     timebase := 1000000, blks := [] })],
    locals_ := [(3, ⟨1, true, true, false, 50, 0, 0⟩)] }

/-- A frame waits for input `i`. -/
def sC37 (i : Nat) (b : List Byte) : State := sQ 14 2 { nf0 with bytes := b, kind := 3, target := i } { sWn with wams := wams5 }

/-- Frames taken, malformed, with a bad CHK, for no input, for an invalid one, off the grid, early, and accepted. -/
theorem witness_c37Frames :
    (let s := sC37 5 (udp (c37 7 0 0))
     ((takeI1 3 s).map (fun x => (x.1.target, x.2.domOn 8, x.2.fbit WAMS_CTL_EN, x.2.fbit TB_STAT_VALID))) = some (5, true, true, true) ∧
       udpAt (udp (c37 7 0 0)) = some 20 ∧ udpPay (udp (c37 7 0 0)) 20 = c37 7 0 0 ∧ takeI1 3 sWn = none ∧ udpAt fr0 = none ∧
       chainBlocks s.wams.inputs 64 5 = some [⟨0, false, 1, 0, 0, 0, 0⟩] ∧ blockLen ⟨0, false, 1, 0, 0, 0, 0⟩ + 16 = 26 ∧
       alookup 4 s.wams.inputs = none ∧ ((alookup 6 s.wams.inputs).map (·.v)) = some false ∧ 0 < nexpOf s 0 ∧
       s.wams.open_ = [] ∧ s.wams.lastClosed = none ∧ s.now < 0 + s.fget WAMS_WIN_MS * 1000000 * 65536) ∧
    beAt (c37 7 0 0) 24 2 = crcCcitt ((c37 7 0 0).take 24) ∧ beAt ((c37 7 0 0).set 20 1) 24 2 ≠ crcCcitt (((c37 7 0 0).set 20 1).take 24) ∧
    sWn.fget WAMS_GRID_TOL * 1000000 * 50 < 10000 * 50 * 1000000 ∧
    ¬ sWn.now + sWn.fget WAMS_GRID_LEAD * 1000000 * 65536 ≥ 1000 * secUnits ∧ sWn.fget WAMS_GRID_FS = 50 := by decide +kernel

/-- Feed-ring slots, records of the front end. -/
theorem witness_feedAndRecords :
    (let s := [(WAMS_RCFG_EN 1, 1), (WAMS_RTAIL_IDX 1, 1)].foldl (fun s f => s.fset f.1 f.2) sWn
     s.domOn 8 = true ∧ s.fbit (WAMS_RCFG_EN 1) = true ∧ s.fget (WAMS_RHEAD_IDX 1) ≠ s.fget (WAMS_RTAIL_IDX 1) ∧
       s.fget (WAMS_RCFG_SIZE 1) ≤ 10 ∧ s.ecc = [] ∧ (s.gate 0xFF 0 8 false).rsp = .ok ∧ s.fget (WAMS_RBASE_ADDR 1) = 0 ∧
       leAt (s.rd 0 2048) 0xE 2 ≤ 2016 ∧ allZero (sliceOf (s.rd 0 2048) 0x10 16) = true) ∧
    sWn.fbit (WAMS_RCFG_EN 1) = false ∧ sWn.sfe.conc = [] ∧ ((alookup 3 wams5.locals_).map (·.v)) = some true ∧
    alookup 4 wams5.locals_ = none ∧ State.reset.domOn 8 = false := by decide +kernel

/-- A bucket at its deadline and before it; closed buckets whose alarm frame is due and not. -/
theorem witness_bucketsAndAlarms :
    (let o : Bucket := ⟨5, 1, 0, 0, false, [], [], [], 0⟩
     let s := { sWn with wams := { wams5 with open_ := [o, { o with deadline := 2 ^ 60 }] } }
     o.deadline ≤ s.now ∧ s.now < 2 ^ 60 ∧ o.complete = false ∧ s.wams.outputs = [] ∧ s.wams.modals = [] ∧ s.wams.coh.v = false ∧
       s.wams.monitors = [] ∧ s.wams.tickets = [] ∧ (s.gate 0xFF (slotAddr s 5) 8 true).rsp = .ok ∧ s.ecc = []) ∧
    wams5.pend = [] ∧ wams5.krecs = [] ∧ sWn.fbit WAMS_CTL_ALMEN = false ∧ sWn.fbit (WAMS_RCFG_EN 0) = false ∧
    (let s := (sWn.fset WAMS_CTL_ALMEN 1).fset WAMS_ALMCTL_HB 5
     s.fbit WAMS_CTL_ALMEN = true ∧ s.fget WAMS_ALMCTL_HB ≠ 0 ∧ 10 % s.fget WAMS_ALMCTL_HB = 0 ∧ 11 % s.fget WAMS_ALMCTL_HB ≠ 0 ∧
       (s.gate 0xFF (s.fget WAMS_ALMTPL_ADDR * 64) 8 false).rsp = .ok) ∧ 2 ≤ leAt [1, 3] 1 1 := by decide +kernel

/-- Detectors of the tests. -/
def modal1 : Modal :=
  { gen := 1, v := true, alm := true, dec := 1, nbin := 8, nw := 64, evdiv := 1, persist := 1, flo := 0, fhi := 0, zmin := 0, amin := 0,
    mems := [], hist := [], last := [], lastRaw := [], seen := [], count := 0, per := ⟨1, true⟩, res := (0, 0, 0, 0), seq := 0 }
def monitor1 : Monitor := ⟨1, true, true, 0, 1, 0, 0, 1, 0, 0, ⟨1, true⟩, none, 0, 0⟩

/-- WAMS_CTL and WAMS_CMD: enabling with windows that fit and not; detectors present and absent; staged entries that pass. -/
theorem witness_wamsCommands : writes [0xF0000D0000, 0xF0000D0028, 0xF0000D008C] sWn ∧
    ¬ 64 < (sWn.fget WAMS_WIN_MS + sWn.fget WAMS_GRID_LEAD) * sWn.fget WAMS_GRID_FS / 1000 + 1 ∧
    (let s := (sN.fset WAMS_WIN_MS 1000).fset WAMS_GRID_FS 240
     64 < (s.fget WAMS_WIN_MS + s.fget WAMS_GRID_LEAD) * s.fget WAMS_GRID_FS / 1000 + 1 ∧ s.fbit WAMS_CTL_EN = false) ∧
    sWn.fbit WAMS_CMDSTAT_BUSY = false ∧ (sWn.fset WAMS_CMDSTAT_BUSY 1).fbit WAMS_CMDSTAT_BUSY = true ∧
    (let w := { wams5 with modals := [(3, modal1)], monitors := [(4, monitor1)] }
     alookup 3 w.modals = some modal1 ∧ alookup 4 w.monitors = some monitor1 ∧ alookup 4 w.modals = none ∧ alookup 3 w.monitors = none ∧
       modal1.per.active = true) ∧
    (let g := leBytes 2 1 ++ zeroBytes 62
     (wInputUpdate sWn 9 g).1 = 0 ∧ (wInputUpdate sWn 9 (zeroBytes 64)).1 = 2 ∧ (wLocalUpdate sWn 9 (g.take 16)).1 = 0 ∧
       (wOutputUpdate sWn 9 g (zeroBytes 64)).1 = 0 ∧ (wModalUpdate sWn 9 (g ++ zeroBytes 256)).1 = 0 ∧ (wCohUpdate 256 g sWn.wams).1 = 0 ∧
       (wMonitorUpdate sWn.wams 9 (g.take 32)).1 = 0 ∧ wSigErr sWn 9 (g.take 32) (zeroBytes 32) = 0 ∧
       wSigErr sWn 9 (zeroBytes 32) (zeroBytes 32) = 2 ∧ (sWn.gate 0xFF (sigAddr sWn 9) 8 true).rsp = .ok) ∧
    sWn.ecc = [] ∧ (sWn.gate 0xFF (sWn.fget WAMS_STSRC_ADDR * 64) 8 false).rsp = .ok := by decide +kernel

/-- A kernel ticket. -/
def tick1 (st : Nat) : Ticket := ⟨1, st, 0x100, 0x200, 0x300, true, false, 1, 0, 100, 0xFF, 0, 0, 0, 0, 0, some (5, 9), false⟩

/-- A free analytic lane with a due kernel, one that runs it, and tickets that have ended. -/
theorem witness_kernels :
    (let s := { (sWn.modLane 44 (fun x => { x with st := .idle })) with wams := { wams5 with tickets := [tick1 0], kq := [1] } }
     s.domOn 8 = true ∧ (s.lane 44).st = .idle ∧ (s.lane 44).gated = false ∧ (s.lane 44).halted = false ∧ (s.lane 44).ticket = none ∧
       ticketOf s.wams 1 = some (tick1 0) ∧ (tick1 0).due = some (5, 9) ∧ (tick1 0).st < 2 ∧ laneOfTicket s 1 = none ∧
       ticketOf s.wams 2 = none ∧ (laneOfTicket (s.modLane 44 (fun x => { x with ticket := some 1 })) 1).isSome = true) ∧
    2 ≤ (tick1 3).st := by decide +kernel

/-! ### Clasp -/

/-- Port 0 is a Clasp port of device 9, port 1 another one, and device 20 is reached through port 1. -/
def sCl : State :=
  let s : State := [(CLASP_CTL_EN, 1), (CLASP_PCTL_ROLE 0, 1), (CLASP_PCTL_ROLE 1, 1), (PORT_CTL_EN 1, 1), (CLASP_DEV_NUM, 9),
    (CLASP_TM_TMASTER, 30)].foldl (fun s f => s.fset f.1 f.2) sN
  { s with clasp := { s.clasp with routes := [(20, 2)], echo := s.clasp.echo.set 0 (some (3, some 100)) } }

/-- A Clasp frame. -/
def clFrame (ty src dst hops age : Nat) (pay : List Byte) : List Byte :=
  fr0.take 12 ++ beBytes 2 (sCl.fget CLASP_ETYPE_ET) ++ leBytes 1 0x10 ++ leBytes 1 ty ++ leBytes 2 src ++ leBytes 2 dst ++ leBytes 2 1 ++
    leBytes 4 age ++ leBytes 1 hops ++ leBytes 1 0 ++ leBytes 2 pay.length ++ zeroBytes 16 ++ pay ++ zeroBytes (14 - pay.length)

/-- The fields of a frame that the statement asks for. -/
def clFields (b : List Byte) : List Nat :=
  [leAt b 14 1 / 16, leAt b 15 1, leAt b 16 2 % 512, leAt b 18 2, leAt b 22 4, leAt b 26 1, leAt b 28 2]

/-- Requests, responses, own frames, old ones, times and frames for others, at a port that takes them. -/
theorem witness_claspFrames : portTakes sCl 0 = true ∧ claspRole sCl 0 = true ∧ claspRole sCl 1 = true ∧ claspRole sCl 2 = false ∧
    sCl.fbit CLASP_CTL_EN = true ∧ sN.fbit CLASP_CTL_EN = false ∧ sCl.fget (CLASP_PCTL_ROLE 0) ≠ 2 ∧
    (sCl.fset (CLASP_PCTL_ROLE 0) 2).fget (CLASP_PCTL_ROLE 0) = 2 ∧ sCl.fget CLASP_MAXAGE_US ≤ 4000 ∧
    sCl.fget CLASP_MAXAGE_US * 16000 < 2 ^ 32 - 1 ∧ sCl.fbit CLASP_STAT_TTNEW = false ∧ sCl.fbit CLASP_STAT_DUPDEV = false ∧
    (alookup 20 sCl.clasp.routes).getD 0 = 2 ∧ (alookup 21 sCl.clasp.routes).getD 0 = 0 ∧ sCl.clasp.echo[0] = some (3, some 100) ∧
    sCl.fget CLASP_DEV_NUM = 9 ∧ sCl.fget CLASP_TM_TMASTER = 30 ∧ beAt fr0 12 2 ≠ sCl.fget CLASP_ETYPE_ET ∧
    ([(3, 20, 0xFFFF, 0, 0), (4, 20, 9, 0, 0), (5, 9, 20, 0, 0), (5, 20, 9, 0, 2 ^ 32 - 1), (2, 30, 9, 0, 0), (2, 31, 9, 0, 0), (5, 30, 20, 0, 0),
      (5, 30, 20, 3, 0), (5, 30, 21, 3, 0)].all (fun (x : Nat × Nat × Nat × Nat × Nat) =>
        let b := clFrame x.1 x.2.1 x.2.2.1 x.2.2.2.1 x.2.2.2.2 []
        clFields b == [1, x.1, x.2.1, x.2.2.1, x.2.2.2.2, x.2.2.2.1, 0] && b.length == 60 && (rx0.fcsOk && !rx0.symErr)) = true) ∧
    (let b := clFrame 4 20 9 0 0 (zeroBytes 24 ++ leBytes 2 20 ++ leBytes 2 3)
     leAt (sliceOf b 46 28) 0x18 2 = 20 ∧ leAt (sliceOf b 46 28) 0x1A 2 = 3 ∧ 46 + leAt b 28 2 ≤ b.length) := by decide +kernel

/-- A duplicate in the ring's table, an echo that was answered and three that were not, and the time master. -/
theorem witness_claspSends :
    (let s := { sCl with clasp := { sCl.clasp with dups := [(30, 1, 0)], miss := sCl.clasp.miss.set 0 2 } }
     (30, 1, 0) ∈ s.clasp.dups ∧ s.now < 0 + (s.fget CLASP_MAXAGE_US + 10) * 1000 * 65536 ∧ s.clasp.echo[0].isSome = true ∧ 2 ≤ s.clasp.miss[0]) ∧
    (let s := (sCl.fset CLASP_CTL_TTEN 1).fset CLASP_TM_TMASTER 9
     s.fbit CLASP_CTL_EN = true ∧ s.fbit CLASP_CTL_TTEN = true ∧ s.fbit CLASP_STAT_DUPDEV = false ∧ s.fget CLASP_DEV_NUM = s.fget CLASP_TM_TMASTER) ∧
    sCl.fget CLASP_DEV_NUM ≠ sCl.fget CLASP_TM_TMASTER := by decide +kernel

/-! ### Virtual protection instances -/

/-- VPI 5 in a state, on lane 0, with `mem` at the source of the commands. -/
def sV (x : Vpi) (m : List Byte) : State := { sN with vpis := sN.vpis.set 5 x, mem := memWrite [] 0 m }

/-- A VPI with an entry. -/
def vpiOf (st : VpiSt) : Vpi := { vpi0 with st := st, ent := { vpiEntry0 with gen := 1, v := true, w := 1, lanes := 1, pubN := 4 } }

/-- VPI 5 in each state, its kernel lane off, idle and busy, a failover on its cluster and none. -/
theorem witness_instances : writes [0xF00015000C] (sV (vpiOf .ready) []) ∧ (sV (vpiOf .ready) []).fbit VPI_CMDSTAT_BUSY = false ∧
    (sV (vpiOf .ready) []).fbit VPI_TXSTAT_BUSY = false ∧ ((sV (vpiOf .ready) []).vpi 5) = vpiOf .ready ∧
    kernelLane (sV (vpiOf .ready) []) (vpiOf .ready).ent = some 0 ∧ vpiInFo (sV (vpiOf .run) []) 5 = false ∧
    vpiInFo ((sV (vpiOf .run) []).fset FAILOVER_STAT_BUSY 1) 5 = true ∧ laneGroup 0 = 0 ∧ (sV (vpiOf .ready) []).domOn 0 = true ∧
    ((sV (vpiOf .ready) []).fset PWR_DSTATE_D0 0).domOn 0 = false ∧ ((sV (vpiOf .ready) []).lane 0).st ≠ .idle ∧
    (List.finRange 52).all (fun l => !isCluster l || decide ((sN.lane l).st ≠ .idle ∧ (sN.lane l).cur = none)) = true ∧
    vpiTasks (sV (vpiOf .run) []) 5 = [] ∧ (sV (vpiOf .run) []).fget (TXRING_TAIL_IDX 5) < 4096 ∧ (sV (vpiOf .run) []).wams.tickets = [] ∧
    (let s := (sV (vpiOf .ready) []).modLane 0 (fun x => { x with st := .idle, arb2 := ⟨List.replicate 64 1, 5⟩ })
     (s.lane 0).st = .idle ∧ (s.lane 0).halted = false ∧ (s.lane 0).retired = false ∧ (s.lane 0).inG = false ∧ (s.lane 0).out = none ∧
       (s.lane 0).ctxs = [] ∧ (s.lane 0).cur = none ∧ (s.lane 0).f.sbuf = [] ∧ laneBudget s 0 < 2 ∧ (s.lane 0).arb2.cursor = 5 ∧
       1 ≤ nth (s.lane 0).arb2.deficit 5) := by decide +kernel

/-- A publish entry of sampled values: 60 bytes of template, 4 of data. -/
def pub1 (gen ctl : Nat) : List Byte :=
  leBytes 2 gen ++ leBytes 1 ctl ++ leBytes 1 5 ++ zeroBytes 15 ++ leBytes 1 0xFF ++ leBytes 2 0 ++ leBytes 2 60 ++ leBytes 2 0 ++ leBytes 2 4 ++
    leBytes 2 1000 ++ leBytes 2 10 ++ zeroBytes 32 ++ zeroBytes 60

/-- Staged VPI, publish and subscription entries that pass, that have a bad field, and that have the wrong generation. -/
theorem witness_stagedInstances :
    (let b := leBytes 2 2 ++ leBytes 1 0x80 ++ leBytes 1 7 ++ zeroBytes 8 ++ leBytes 4 1 ++ zeroBytes 48
     vpiErr (sV (vpiOf .ready) b) 5 b = 0 ∧ vpiErr (sV (vpiOf .ready) b) 5 (b.set 0 3) = 2 ∧ vpiRangeBad (b.set 2 1) = true ∧
       (parseVpi b).v = true ∧ vpiErr (sV (vpiOf .ready) b) 5 (zeroBytes 64 |>.set 0 2) = 0 ∧
       (sV (vpiOf .ready) b).ecc = [] ∧ ((sV (vpiOf .ready) b).gate 0xFF ((sV (vpiOf .ready) b).fget VPI_STSRC_ADDR * 64) 8 false).rsp = .ok) ∧
    (let s := sV (vpiOf .ready) (pub1 1 0x82)
     (pubUpdateOp 2 s).1 = 0 ∧ s.pub 2 = none ∧ (pubUpdateOp 2 { s with pubs := [(2, { parsePub (pub1 0 0x82) with v := true })] }).1 = 0 ∧
       (pubUpdateOp 2 (sV (vpiOf .ready) (pub1 3 0x82))).1 = 2 ∧ (pubUpdateOp 2 (sV (vpiOf .ready) (pub1 1 0x86))).1 = 1 ∧
       (pubUpdateOp 2 (sV (vpiOf .ready) (pub1 1 0))).1 = 0) ∧
    (let b := leBytes 2 1 ++ leBytes 1 0x80 ++ leBytes 1 5 ++ zeroBytes 4 ++ leBytes 2 4 ++ zeroBytes 22
     (subUpdateOp 2 (sV (vpiOf .ready) b)).1 = 0 ∧ (subUpdateOp 2 (sV (vpiOf .ready) (b.set 0 2))).1 = 2 ∧
       subRangeBad (b.set 2 0x81) = true) := by decide +kernel

/-- A freeze under way with the instance on no lane and on lane 0, with an access outstanding; a reset; a share change. -/
theorem witness_instanceEnds :
    (let x := { vpiOf .run with freezing := true }
     let s := (sV x []).modLane 0 (fun y => { y with st := .running, cur := some (5, none) })
     x.freezing = true ∧ isCluster 0 = true ∧ (s.lane 0).cur = some (5, none) ∧ (s.lane 0).st = .running ∧ (s.lane 0).inG = false ∧
       (s.lane 0).out = none ∧ (s.lane 0).f.sbuf = [] ∧ (s.lane 0).ctxs = [] ∧
       (List.finRange 52).all (fun l => decide (l = 0) || decide ((s.lane l).cur = none ∧ (s.lane l).st ≠ .idle)) = true ∧
       ((s.modLane 0 (fun y => { y with out := some ⟨1, 2, false, 0, false⟩ })).lane 0).out.isSome = true) ∧
    (vpiOf .resetting).st = .resetting ∧ (vpiOf .run).st ≠ .resetting ∧
    (let x := { vpiOf .run with oldW := some 3, ent := { (vpiOf .run).ent with cells := 1 } }
     x.oldW.isSome = true ∧ (sV x []).net.occupancy 5 < x.ent.cells) := by decide +kernel

/-! ### GOOSE -/

/-- A GOOSE message with two bytes of data. -/
def gooseMsg (rev : Nat) (data : List Byte) : List Byte :=
  let apdu := berElem 0x61 (berElem 0x81 (beBytes 2 100) ++ berElem 0x85 (beBytes 2 3) ++ berElem 0x86 (beBytes 2 4) ++ berElem 0x88 [BitVec.ofNat 8 rev] ++
    berElem 0xAB data)
  fr0.take 12 ++ [0x88, 0xB8] ++ beBytes 2 1 ++ beBytes 2 (8 + apdu.length) ++ zeroBytes 4 ++ apdu

/-- A subscription to lane 0, of an owner, with the block it wrote last. -/
def sub1 (vmid : Nat) : Sub :=
  { gen := 1, v := true, sim := false, vmid := vmid, cluster := 0, lane := 0, dofs := 0, dlen := 2, confRev := 6,
    last := some (zeroBytes 34, 5, 0) }

/-- Messages taken, of each outcome; their subscription's lane answers; entries valid and not; intervals elapsed. -/
theorem witness_goose :
    (let s := { sN with subs := [(4, sub1 0xFF)], net := (sQ 14 2 { nf0 with bytes := gooseMsg 6 [1, 2], kind := 2, target := 4 } sN).net }
     s.domOn 5 = true ∧ ((takeI1 2 s).map (fun x => (x.1.target, x.1.owner))) = some (4, 0xFF) ∧ takeI1 2 sN = none ∧
       (s.gate 0xFF 0x4100010000 8 true).rsp = .ok ∧ s.ecc = [] ∧ (5 : Nat) ≤ sLate.now ∧ s.now < 5 ∧ s.igen 7 = 0) ∧
    ([(6, [1, 2]), (7, [1, 2]), (6, [1, 2, 3])].all (fun (x : Nat × List Byte) => match apduElems 0x61 (gooseMsg x.1 x.2) with
      | some l => berU32 0x81 l == some 100 && berU32 0x85 l == some 3 && berU32 0x86 l == some 4 && berU32 0x88 l == some x.1 &&
          berFind 0xAB l == some x.2
      | none => false) = true) ∧
    apduElems 0x61 fr0 = none ∧ (apduElems 0x61 (svFrame 7 [])) = none ∧
    bitOf (beAt (frPay ((gooseMsg 6 [1, 2]).set 18 0x80)) 4 2) 15 = true ∧ bitOf (beAt (frPay (gooseMsg 6 [1, 2])) 4 2) 15 = false ∧
    ({ parsePub (pub1 1 0x82) with sched := some (4, 0) } : Pub).sched = some (4, 0) := by decide +kernel

/-! ### Event log -/

/-- A record and an event like it. -/
def rec1 (part pseq sev : Nat) (cls : Bool) : EvRec :=
  { ts := 0, seq := 1, pseq := pseq, code := 9, clsP := cls, sev := sev, sw := false, snap := false, tsinv := false, hasSnap := false, vmid := 0xFF,
    part := part, orig := 0, rpt := 0, lastW := [0, 0, 0], args := [1], at_ := 0, bad := false }
def ev1 (part code sev : Nat) (cls : Bool) : Ev :=
  { clsP := cls, sev := sev, code := code, vmid := 0xFF, part := part, sw := false, orig := 0, tsinv := false, ts := 0, args := [1] }

/-- The log holds the records and an event waits. -/
def sEv (l : List (Nat × EvRec)) (e : Ev) : State :=
  let s : State := { sV { vpiOf .run with ent := { (vpiOf .run).ent with evp := 1, evo := 1 } } [] with
    log := { eventLog0 with slots := l, queue := [e] } }
  (s.fset EVREC_STAT_READY 1).fset EVREC_CTL_REPWIN 100

/-- Events that repeat a record, that find room, that replace a victim and that are lost. -/
theorem witness_events :
    (let s := sEv [(16384, rec1 5 1 3 false)] (ev1 5 9 3 false)
     s.fbit EVREC_STAT_READY = true ∧ nsnap s (ev1 5 9 3 false) = 0 ∧ newestRec s 5 false = some (16384, rec1 5 1 3 false) ∧
       repeats s (ev1 5 9 3 false) (rec1 5 1 3 false) = true ∧ repeats s (ev1 5 8 3 false) (rec1 5 1 3 false) = false ∧
       logQuota s 5 false = 1 ∧ (logRecs s 5 false).length = 1 ∧ clsUsed s false ≤ 49152 ∧ victim s 5 3 = some (16384, rec1 5 1 3 false) ∧
       victim s 5 2 = none ∧ logRoom s 5 false ≤ 0 ∧ s.fget EVREC_SEQ_NEXT < 2 ^ 32 ∧ logRoom s 5 true = 1 ∧
       snapOfRec (rec1 5 1 3 false) (rec1 5 1 3 false) = false ∧ newestRec s 5 true = none) ∧
    logRoom (sEv [(0, rec1 5 1 3 true)] (ev1 5 8 3 true)) 5 true ≤ 0 ∧ State.reset.fbit EVREC_STAT_READY = false := by decide +kernel

/-- The views of supervisor software and of VPI 5, open and closed, over records that are there and not. -/
theorem witness_views :
    (let s := sEv [(0, rec1 64 1 3 true), (1, rec1 64 2 3 true), (16384, rec1 5 1 3 false)] (ev1 5 9 3 false)
     let s := (s.fset (VIEW_SEL_CLS 64) 1).fset (VIEW_SEL_PART 64) 64
     writes [0xF0000F1004, 0xF0000F1034] s ∧ decide (WriteGranted ⟨0, 5, false⟩ 0xF0000FC004 s) = true ∧
       decide (WriteGranted ⟨0, 5, false⟩ 0xF0000FC034 s) = true ∧ viewOf sup false s = 64 ∧ viewOf ⟨0, 5, false⟩ true s = 5 ∧
       viewOpen s 64 = true ∧ viewOpen s 5 = true ∧ viewOpen s 6 = false ∧
       (s.log.slots.filter (fun x => x.2.part == viewPart s 64 && x.2.clsP == s.fbit (VIEW_SEL_CLS 64))).map (·.1) = [0, 1] ∧
       (s.view 64).slot = none) := by decide +kernel

/-! ### Keys, life cycle -/

/-- Slot 3 holds a key that may derive, slot 4 a locked child of it. -/
def sKey : State := [(KEY_ATTR_V 3, 1), (KEY_ATTR_UKDF 3, 1), (KEY_ATTR_V 4, 1), (KEY_ATTR_PARENT 4, 3), (KEY_ATTR_LOCKED 4, 1)].foldl
  (fun s f => s.fset f.1 f.2) State.reset

/-- KEY_CMD in each state of the slots, of the store and of the random source. -/
theorem witness_keys : writes [0xF000070008] sKey ∧ reads [0xF000070060] sKey ∧ sKey.fbit KEY_CMDSTAT_BUSY = false ∧
    (sKey.fset KEY_CMDSTAT_BUSY 1).fbit KEY_CMDSTAT_BUSY = true ∧ sKey.fbit (KEY_ATTR_V 3) = true ∧ sKey.fbit (KEY_ATTR_V 5) = false ∧
    sKey.fget KEY_NEWATTR_ALG < 6 ∧ 6 ≤ (sKey.fset KEY_NEWATTR_ALG 6).fget KEY_NEWATTR_ALG ∧ sKey.fbit (KEY_ATTR_UKDF 3) = true ∧
    sKey.fbit (KEY_ATTR_UKDF 4) = false ∧ sKey.sec.life = 0 ∧
    ({ sKey with sec := { sKey.sec with life := 1, fuseRoot := some 7 } } : State).sec.fuseRoot = some 7 ∧ sKey.fget (KEY_ATTR_PARENT 4) = 3 ∧
    sKey.fbit (KEY_ATTR_LOCKED 4) = true ∧ (List.range 64).all (fun j => !State.reset.fbit (KEY_ATTR_LOCKED j)) = true ∧
    (List.range 64).all (fun j => !(sKey.fbit (KEY_ATTR_V j) && sKey.fget (KEY_ATTR_PARENT j) == 5)) = true ∧
    (sKey.fset KEY_NEWATTR_NEXTV 1).fbit KEY_NEWATTR_NEXTV = true ∧ sKey.fget KEY_NEWATTR_NEXT = 0 ∧ sKey.fbit (KEY_ATTR_V 0) = false ∧
    sKey.fbit KEY_NEWATTR_NEXTV = false ∧ sKey.fbit KEY_STAT_RNGFAIL = false ∧ sKey.domOn 5 = true := by decide +kernel

/-- A part in a life-cycle state, with what the fuses hold. -/
def sLife (n : Nat) (sec : Security) : State := { State.reset with sec := { sec with life := n } }

/-- Parts in each state, with a response, fuses and keys that allow each transition and that do not. -/
theorem witness_lifeCycle : writes [0xF000080004] (sLife 0 security0) ∧ (sLife 0 security0).fbit LIFE_CMDSTAT_BUSY = false ∧
    (sLife 0 security0).fbit SCHED_STAT_ADM = false ∧ (List.finRange 64).all (fun j => decide (((sLife 0 security0).vpi j).st = .off)) = true ∧
    ((sLife 0 security0).fset SCHED_STAT_ADM 1).fbit SCHED_STAT_ADM = true ∧ security0.fuseRoot = none ∧ security0.wrong < 3 ∧
    (let x := { security0 with prog := 3, rev := 0, fuseRoot := some 7, runSvn := 1, runKey := 0 }
     bitOf x.prog 0 = true ∧ bitOf x.rev 0 = false ∧ x.svn < x.runSvn ∧ (x.runKey = 0 ∧ bitOf x.prog 1 = true ∧ bitOf x.rev 1 = false) ∧
       bitOf x.prog 2 = false) ∧
    ¬ security0.svn < security0.runSvn ∧ security0.next = none ∧ security0.chal = false ∧ security0.runKey = 0xFF ∧
    State.reset.fbit KEY_STAT_RNGFAIL = false ∧ State.reset.fbit LIFE_STAT_WIPE = false ∧
    (State.reset.fset LIFE_STAT_WIPE 1).fbit LIFE_STAT_WIPE = true := by decide +kernel

/-! ### The response that unlocks a part -/

/-- The bytes of the value of some bytes. -/
theorem leBytes_leVal (l : List Byte) : leBytes l.length (leVal l) = l := by
  induction l with
  | nil => rfl
  | cons b l ih =>
    have hb := b.isLt
    simp only [List.length_cons, leVal, leBytes]
    have h1 : (b.toNat + 256 * leVal l) / 256 = leVal l := by omega
    have h2 : BitVec.ofNat 8 (b.toNat + 256 * leVal l) = b := by
      apply BitVec.eq_of_toNat_eq
      simp only [BitVec.toNat_ofNat]
      omega
    rw [h1, h2, ih]

/-- A value is the value of its bytes. -/
theorem beVal_beBytes (k n : Nat) : beVal (beBytes k n) = n % 256 ^ k := by
  have app : ∀ (l : List Byte) (b : Byte), beVal (l ++ [b]) = beVal l * 256 + b.toNat := fun l b => by simp [beVal]
  induction k generalizing n with
  | zero => simp [beBytes, leBytes, beVal]; omega
  | succ k ih =>
    have h := ih (n / 256)
    simp only [beBytes] at h ⊢
    simp only [leBytes, List.reverse_cons, app, h, BitVec.toNat_ofNat]
    rw [show 256 ^ (k + 1) = 256 * 256 ^ k by rw [Nat.pow_succ, Nat.mul_comm], Nat.mod_mul]
    omega

/-- The words of a hash state are 32 bits wide. -/
def ShaWords (s : ShaSt) : Prop :=
  s.a < 2 ^ 32 ∧ s.b < 2 ^ 32 ∧ s.c < 2 ^ 32 ∧ s.d < 2 ^ 32 ∧ s.e < 2 ^ 32 ∧ s.f < 2 ^ 32 ∧ s.g < 2 ^ 32 ∧ s.h < 2 ^ 32

theorem shaWords_mod (r t : ShaSt) (m : Nat) (hm : m = 2 ^ 32) : ShaWords ⟨(t.a + r.a) % m, (t.b + r.b) % m, (t.c + r.c) % m,
    (t.d + r.d) % m, (t.e + r.e) % m, (t.f + r.f) % m, (t.g + r.g) % m, (t.h + r.h) % m⟩ := by
  subst hm
  refine ⟨?_, ?_, ?_, ?_, ?_, ?_, ?_, ?_⟩ <;> exact Nat.mod_lt _ (by decide)

theorem shaWords_block (s : ShaSt) (ws : List Nat) : ShaWords (shaBlock sha32 s ws) :=
  shaWords_mod (shaRounds sha32 sha32.ks ws s) s (2 ^ sha32.w) (by rw [show sha32.w = 32 from rfl])

theorem shaWords_blocks (n : Nat) : ∀ (m : List Byte) (s : ShaSt), ShaWords s → ShaWords (shaBlocks sha32 n m s) := by
  induction n with
  | zero =>
    intro m s h
    rw [shaBlocks]
    exact h
  | succ n ih =>
    intro m s _
    rw [shaBlocks]
    exact ih _ _ (shaWords_block _ _)

/-- SHA-256 has 256 bits. -/
theorem sha256_lt (m : List Byte) : sha256 m < 2 ^ 256 := by
  have key : ∀ r : ShaSt, ShaWords r → [r.a, r.b, r.c, r.d, r.e, r.f, r.g, r.h].foldl (fun acc x => acc * 2 ^ 32 + x) 0 < 2 ^ 256 := by
    rintro r ⟨h1, h2, h3, h4, h5, h6, h7, h8⟩
    simp only [List.foldl]
    omega
  have h := key _ (shaWords_blocks ((shaPad 64 8 m).length / 64) (shaPad 64 8 m) ⟨0x6A09E667, 0xBB67AE85, 0x3C6EF372, 0xA54FF53A, 0x510E527F,
    0x9B05688C, 0x1F83D9AB, 0x5BE0CD19⟩ (by unfold ShaWords; decide))
  simp only [sha256]
  exact h

/-- LIFE_RESP holds a number of 256 bits, in life-cycle state 2 with a challenge loaded. -/
def sResp (e : Nat) : State :=
  (List.range 8).foldl (fun s k => s.fset (LIFE_RESP_V k) (leAt (beBytes 32 e) (4 * k) 4)) (sLife 2 { security0 with chal := true })

theorem leAt_lt (l : List Byte) (o : Nat) : leAt l o 4 < 2 ^ 32 := by
  have h : ∀ l : List Byte, leVal l < 256 ^ l.length := by
    intro l
    induction l with
    | nil => simp [leVal]
    | cons b l ih => have := b.isLt; simp only [leVal, List.length_cons, Nat.pow_succ]; omega
  have h1 := h (sliceOf l o 4)
  have h2 : (sliceOf l o 4).length ≤ 4 := by simp only [sliceOf, List.length_take]; omega
  exact Nat.lt_of_lt_of_le h1 (Nat.le_trans (Nat.pow_le_pow_right (by decide) h2) (by decide))

theorem sResp_other (e : Nat) (f : Fld) (h : ∀ k < 8, f.key ≠ (LIFE_RESP_V k).key) :
    (sResp e).fget f = (sLife 2 { security0 with chal := true }).fget f := by
  simp only [sResp, List.range, List.range.loop, List.foldl, State.fget_fset]
  simp [h 0, h 1, h 2, h 3, h 4, h 5, h 6, h 7]

theorem sResp_word (e k : Nat) (hk : k < 8) : leBytes 4 ((sResp e).fget (LIFE_RESP_V k)) = sliceOf (beBytes 32 e) (4 * k) 4 := by
  have hb := leAt_lt (beBytes 32 e) (4 * k)
  have h1 : (sResp e).fget (LIFE_RESP_V k) = leAt (beBytes 32 e) (4 * k) 4 := by
    simp only [sResp, List.range, List.range.loop, List.foldl, State.fget_fset]
    rcases (by omega : k = 0 ∨ k = 1 ∨ k = 2 ∨ k = 3 ∨ k = 4 ∨ k = 5 ∨ k = 6 ∨ k = 7) with rfl | rfl | rfl | rfl | rfl | rfl | rfl | rfl <;>
      simp [Fld.key, LIFE_RESP_V] <;> omega
  have h := leBytes_leVal (sliceOf (beBytes 32 e) (4 * k) 4)
  have hl : (sliceOf (beBytes 32 e) (4 * k) 4).length = 4 := by
    simp only [sliceOf, List.length_take, List.length_drop, beBytes, List.length_reverse, leBytes, List.length_cons, List.length_nil]
    omega
  rw [hl] at h
  rw [h1]
  exact h

/-- LIFE_RESP as bytes. -/
theorem sResp_bytes (e : Nat) : ((List.range 12).flatMap (fun k => leBytes 4 ((sResp e).fget (LIFE_RESP_V k)))).take 32 = beBytes 32 e := by
  have h := fun k hk => sResp_word e k hk
  simp only [List.range, List.range.loop, List.flatMap_cons, List.flatMap_nil]
  rw [h 0 (by decide), h 1 (by decide), h 2 (by decide), h 3 (by decide), h 4 (by decide), h 5 (by decide), h 6 (by decide), h 7 (by decide)]
  simp [beBytes, leBytes, sliceOf]

/-- LIFE_CHAL and LIFE_DIEID as bytes. -/
theorem sResp_challenge (e : Nat) :
    [LIFE_CHAL_V 0, LIFE_CHAL_V 1, LIFE_CHAL_V 2, LIFE_CHAL_V 3].flatMap (fun f => leBytes 4 ((sResp e).fget f)) ++
      [LIFE_DIEID_V 0, LIFE_DIEID_V 1].flatMap (fun f => leBytes 4 ((sResp e).fget f)) = zeroBytes 24 := by
  have chal : ∀ j < 4, (sResp e).fget (LIFE_CHAL_V j) = 0 := by
    intro j hj
    rw [sResp_other e _ (by intro k hk; simp only [Fld.key, LIFE_CHAL_V, LIFE_RESP_V]; omega)]
    revert j
    decide +kernel
  have die : ∀ j < 2, (sResp e).fget (LIFE_DIEID_V j) = 0 := by
    intro j hj
    rw [sResp_other e _ (by intro k hk; simp only [Fld.key, LIFE_DIEID_V, LIFE_RESP_V]; omega)]
    revert j
    decide +kernel
  simp only [List.flatMap_cons, List.flatMap_nil, chal 0 (by decide), chal 1 (by decide), chal 2 (by decide), chal 3 (by decide),
    die 0 (by decide), die 1 (by decide)]
  decide

/-- A response that the check takes, for each operation. -/
theorem witness_lifeResponse (op : Byte) (auth : Nat) : ∃ e, (sResp e).sec.chal = true ∧ (sResp e).sec.life = 2 ∧
    beVal (((List.range 12).flatMap (fun k => leBytes 4 ((sResp e).fget (LIFE_RESP_V k)))).take 32) =
      hmacSha256 (beBytes 32 auth) ([LIFE_CHAL_V 0, LIFE_CHAL_V 1, LIFE_CHAL_V 2, LIFE_CHAL_V 3].flatMap (fun f => leBytes 4 ((sResp e).fget f)) ++
        [LIFE_DIEID_V 0, LIFE_DIEID_V 1].flatMap (fun f => leBytes 4 ((sResp e).fget f)) ++ [op]) := by
  refine ⟨hmacSha256 (beBytes 32 auth) (zeroBytes 24 ++ [op]), ?_, ?_, ?_⟩
  · generalize hmacSha256 _ _ = e; rfl
  · generalize hmacSha256 _ _ = e; rfl
  · rw [sResp_challenge, sResp_bytes, beVal_beBytes]
    have h : ∀ n : Nat, n < 2 ^ 256 → n % 256 ^ 32 = n := fun n hn => by
      rw [show (256 : Nat) ^ 32 = 2 ^ 256 by decide +kernel]
      exact Nat.mod_eq_of_lt hn
    apply h
    simp only [hmacSha256]
    exact sha256_lt _

/-! ### CAN, I/O groups -/

/-- A message object. -/
def obj1 (cfg fmt stat : Nat) : List Byte := leBytes 4 cfg ++ leBytes 4 fmt ++ leBytes 4 stat ++ zeroBytes 84

/-- An input group of object 0 into lane 0's data memory. -/
def grp1 (gen : Nat) : List Byte := leBytes 2 gen ++ leBytes 1 0x80 ++ leBytes 1 0xFF ++ leBytes 2 0 ++ leBytes 1 1 ++ leBytes 1 0xFF ++ leBytes 4 0 ++
  leBytes 2 8 ++ zeroBytes 2

/-- Controller 0 is enabled; object 0 receives identifier 0x123, object 1 sends; the groups `gs` are valid. -/
def sCan (gs : List (Nat × List Byte)) : State :=
  let s : State := sN.fset (IO_CTL_EN 0) 1
  { s with io := { s.io with groups := gs, can := s.io.can.set 0 ⟨[(0, obj1 0x80000123 0 0x10), (1, obj1 0xC0000200 8 0x80)], [], []⟩ },
           mem := memWrite [] 0 (grp1 1) }

/-- A controller on and off; frames for an object, for none, remote frames; objects that win and that do not; error counters. -/
theorem witness_can :
    (let s := sCan []
     s.domOn 5 = true ∧ s.pllOn 3 = true ∧ s.fbit (IO_CTL_EN 0) = true ∧ s.fbit (IO_STAT_BOFF 0) = false ∧ sN.fbit (IO_CTL_EN 0) = false ∧
       (∀ b : Fin 2, (s.io.can[b].objs.all (fun o => o.2.length == 96)) = true) ∧ s.fget (IO_STAT_REC 0) ≤ 127 ∧
       (let o := obj1 0x80000123 0 0x10
        obV o = true ∧ obTx o = false ∧ obIde o = false ∧ obId o = 0x123 ∧ obNew o = true ∧ obPend o = false) ∧
       (let o := obj1 0xC0000200 8 0x80
        obV o = true ∧ obTx o = true ∧ obPend o = true ∧ obTxLen o = 8) ∧ s.fbit (IO_CTL_MON 0) = false ∧
       groupsEndingAt s 0 0 = [] ∧ s.obj 0 5 = zeroBytes 96 ∧ s.fget (IO_STAT_TEC 0) + 8 ≤ 255 ∧
       255 < (s.fset (IO_STAT_TEC 0) 250).fget (IO_STAT_TEC 0) + 8) ∧
    (let s := sCan [(6, grp1 0)]
     let g := s.ioGroup 6
     groupsEndingAt s 0 0 = [6] ∧ igN g = 1 ∧ igFirst g = 0 ∧ igBus g = 0 ∧ igDest g = 0 ∧ s.ecc = [] ∧
       (s.gate (igVmid g) 0x4100010000 8 true).rsp = .ok) := by decide +kernel

/-- RECOVER and bus-off; staged groups that pass and that fail each check; object commands; a cyclic output group. -/
theorem witness_canCommands :
    (let s := sCan [(6, grp1 0)]
     writes [0xF000120000, 0xF000120100, 0xF000120804, 0xF000120810] s ∧ s.fget (IO_CTL_MON 0) < 2 ∧ s.fget IOBUS_STSRC_ADDR = 0 ∧
       s.fbit IOBUS_CMDSTAT_BUSY = false ∧ (s.gate 0xFF 0 8 false).rsp = .ok ∧ s.rd 0 16 = grp1 1 ∧
       leAt (grp1 1) 0 2 = (leAt (s.ioGroup 6) 0 2 + 1) % 65536 ∧ leAt (grp1 2) 0 2 ≠ (leAt (s.ioGroup 6) 0 2 + 1) % 65536 ∧
       allZero (sliceOf (grp1 1) 0xE 2) = true ∧ leAt (grp1 1) 2 1 / 2 % 32 = 0 ∧ igObjs (grp1 1) = [0] ∧ obTx (s.obj 0 0) = igOut (grp1 1) ∧
       igLen (grp1 1) ≤ 232 ∧ 232 < igLen ((grp1 1).set 13 1) ∧ obV (s.obj 0 (igFirst ((grp1 1).set 4 5))) = false ∧
       igN ((grp1 1).set 6 0) = 0 ∧ s.fbit IOBUS_OBJSEL_BUS = false ∧ s.fget IOBUS_OBJSEL_IDX = 0 ∧
       ((s.fset IOBUS_OBJSEL_IDX 1).fset (IOBUS_WIN_V 0) 0x80000123).fget (IOBUS_WIN_V 0) = 0x80000123) ∧
    ((sN.fset (IO_STAT_BOFF 0) 1).fset (IO_CTL_RECOVER 0) 1).fbit (IO_CTL_RECOVER 0) = true ∧ sN.fbit (IO_STAT_BOFF 0) = false ∧
    (let g := (grp1 0).set 2 0xC0 |>.set 8 5
     igV g = true ∧ igOut g = true ∧ igDest g % 65536 ≠ 0 ∧ (sCan [(6, g)]).ioGroup 6 = g) := by decide +kernel

/-! ### Slots, cages, trip lines -/

/-- An identity record of a kind. -/
def idRec (kind : Nat) : List Byte :=
  let b := leBytes 4 0x44495654 ++ [1, 128] ++ leBytes 2 kind ++ zeroBytes 116
  b ++ leBytes 4 (crc32c b)

/-- Slots in each state, with records that pass, that are of another kind, and that are not well formed; cages. -/
theorem witness_slotsAndCages :
    (let s := sN.fset IDBUS_CTL_EN 1
     let t := s.fset (IDBUS_SLOT_STATE 0) 1
     writes [0xF000130140, 0xF00013017C, 0xF000130300] s ∧ s.fget (IDBUS_SLOT_STATE 0) ≠ 1 ∧ t.fget (IDBUS_SLOT_STATE 0) = 1 ∧
       t.fbit IDBUS_CTL_EN = true ∧ 0 ∉ t.io.passed ∧ s.fbit (IDBUS_SLOT_FORCE 0) = false ∧
       (s.fset (IDBUS_SLOT_FORCE 0) 1).fbit (IDBUS_SLOT_FORCE 0) = true ∧ s.io.groups = [] ∧ bitOf (s.fget IDBUS_PRES_SLOT) 0 = false ∧
       bitOf ((s.fset IDBUS_PRES_SLOT 1).fget IDBUS_PRES_SLOT) 0 = true) ∧
    (idRec 5).length = 128 ∧ leAt (idRec 5) 0x7C 4 = crc32c ((idRec 5).take 0x7C) ∧ leAt (idRec 5) 0 4 = 0x44495654 ∧
    leAt (idRec 5) 6 2 = 5 ∧ leAt ((idRec 5).set 6 1) 0x7C 4 ≠ crc32c (((idRec 5).set 6 1).take 0x7C) ∧
    ((sN.fset (IDBUS_EXP_V 0) 1).fset (IDBUS_EXP_KIND 0) 4).fget (IDBUS_EXP_KIND 0) = 4 ∧ sN.fbit (IDBUS_EXP_ANY 0) = false ∧
    sN.fbit (IDBUS_EXP_V 0) = false ∧ sN.portFitted 0 = true ∧ ({ sN with variant := .e } : State).portFitted 2 = false ∧
    bitOf (sN.fget IDBUS_PRES_CAGE) 0 = false ∧ bitOf ((sN.fset IDBUS_PRES_CAGE 1).fget IDBUS_PRES_CAGE) 0 = true ∧
    sN.fbit IDBUS_SFPSTAT_BUSY = false ∧ (sN.fset IDBUS_SFPSTAT_BUSY 1).fbit IDBUS_SFPSTAT_BUSY = true := by decide +kernel

/-- Trip lines locked and free, granted and not, inputs, cross-trigger lines and comparators. -/
theorem witness_tripLines : writes [0xF000140004, 0xF000140010, 0xF000140300] sN ∧
    (List.finRange 32).all (fun r => !(sN.recorder r).ent.v) = true ∧ fldLocked sN DTRIP_ARM_ARM = false ∧
    fldLocked (sN.fset SCHED_STAT_ADM 1) DTRIP_ARM_ARM = true ∧ (List.range 8).all (fun k => (grantee sN k).isNone) = true ∧
    (grantee (sN.fset VPI_DTGRANT0_V0 1) 0).isSome = true ∧ bitOf (sN.fget DTRIP_STATE_OUT) 0 = false ∧
    bitOf (sN.fget DTRIP_STATE_LATCH) 0 = false ∧ bitOf ((sN.fset DTRIP_STATE_OUT 1).fget DTRIP_STATE_OUT) 0 = true ∧
    bitOf (sN.fget DTRIP_BISTATE_DEB) 0 = false ∧ sN.fbit (DTRIP_BICFG_INV 0) = false ∧ (List.range 4).all (fun d => !sN.fbit (DTRIP_BIDEST_V d)) = true ∧
    (List.finRange 8).all (fun c => decide (sN.owner c ≠ 3)) = true ∧ sN.fbit (DTRIP_BICFG_STAMP 0) = false ∧
    sN.fget (DTRIP_BICFG_DEB 0) * 1000 * 65536 ≤ sLate.now ∧ sLate.tb.count < 2 ^ 48 * secUnits * 4096 ∧ sLate.domOn 5 = true ∧
    (let s := (sN.fset (PWR_OWN_OWNER 12) 2).fset (PWR_OWN_OWNER 8) 1
     writes [0xF000140100] s ∧ s.owner 12 = 2 ∧ s.owner 13 = 0 ∧ s.owner 8 = 1 ∧ s.owner 9 ≠ 1 ∧ tdcChan s 0x02 0 = none ∧
       (tdcChan ((s.fset (PWR_OWN_OWNER 3) 2).fset (TB_TDCCTL_SRC 3) 0) 0x02 0).isSome = true) ∧
    sN.fget DTRIP_BIPER_P = 0 ∧
    (let s := (sN.fset DTRIP_BIPER_P 5).fset (DTRIP_BIDEST_V 0) 1
     s.fget DTRIP_BIPER_P ≠ 0 ∧ s.fbit (DTRIP_BIDEST_V 0) = true ∧ s.fbit (DTRIP_BIDEST_V 1) = false ∧ s.ecc = [] ∧
       s.fget (DTRIP_BIDEST_CL 0) < 5 ∧ (s.gate 0 0x4100010000 8 true).rsp = .ok) ∧ sN.fbit (PWR_CMP_OUT 0) = false := by decide +kernel

/-! ### Ends of commands and the whole machine -/

/-- Commands under way and not, an exchange that passed and one that failed, a transition pending. -/
theorem witness_commandEnds : State.reset.net.actErr = none ∧ ({ security0 with next := some 1 } : Security).next ≠ none ∧ State.reset.sec.next = none ∧
    (State.reset.fset VPI_TXSTAT_BUSY 1).fget VPI_TXSTAT_BUSY ≠ 0 ∧ State.reset.fget VPI_TXCMD_CMD ≠ 2 ∧ State.reset.fget VPI_TXSTAT_ERR = 0 ∧
    (State.reset.fset VPI_TXSTAT_ERR 5).fget VPI_TXSTAT_ERR ≠ 0 ∧ (sV (vpiOf .resetting) []).fget VPI_CMDSTAT_ERR = 0 ∧
    ((sV (vpiOf .resetting) []).vpi 5).st = .resetting := by decide +kernel

/-- A state whose memories are canonical, and a step from it. -/
theorem witness_canonicalStep : MemsCanonical State.reset ∧
    ∃ t, step { State.reset with pending := [.branch 40 .eq 1 2 0] } = .next t := by
  refine ⟨by unfold MemsCanonical; decide +kernel, ?_⟩
  exact ⟨_, rfl⟩

/-! ### Well-formed commands -/

/-- Every check refuses an ill-formed command. -/
theorem test_illFormedRefused : ([.registerWrite ⟨256, 0xFF, false⟩ 0xF000090000 4 0, .takeup ⟨0x80, 64, false⟩, .registerWrite sup (2 ^ 40) 4 0,
    .registerWrite sup 0xF000090000 3 0, .handshakeWatchdogExpiry sup 0 .read 4 0 none 0, .handshakeWatchdogExpiry sup 0 .read 0 16 none 0,
    .handshakeWatchdogExpiry sup 0 .read 0 0 none 8, .tdcEdge 0 true (2 ^ 48 * secUnits), .bufferedStoreComplete 0 false 8, .slackReading 0 0 256,
    .class1Release 16384, .frameReceive 0 ⟨[], true, false, 2 ^ 48 * secUnits⟩, .accountTick [0], .reservationFrameEnd 0 [1], .arbiterGrant 0 [⟨0, 65, 1⟩], .canFrameReceive 0 ⟨2 ^ 11, false, false, false, false, []⟩,
    .canFrameReceive 0 ⟨0, false, true, true, false, []⟩, .canFrameReceive 0 ⟨0, false, false, false, false, zeroBytes 12⟩,
    .canFrameReceive 0 ⟨0, false, false, false, true, []⟩, .slotDebounceDone 0 (some []), .sfpInsert 0 (some []), .arm sup 32,
    .mulOp 0 .mulD 31 2 3] : List Instr).all (fun i => !i.wellFormed) = true := by decide +kernel

/-- The same commands with operands in range pass. -/
theorem test_wellFormedAccepted : ([.registerWrite sup 0xF000090000 4 0, .takeup sup, .handshakeWatchdogExpiry sup 0 .read 3 15 none 7,
    .tdcEdge 0 true 0, .bufferedStoreComplete 0 false 7, .slackReading 0 0 255, .class1Release 16383, .frameReceive 0 rx0,
    .accountTick (List.replicate 9 0), .reservationFrameEnd 0 [1, 2, 3, 4, 5], .reservationFrameEnd 1 [1], .arbiterGrant 0 [⟨0, 64, 1⟩], .canFrameReceive 0 ⟨2 ^ 11, true, false, false, false, zeroBytes 8⟩, .slotDebounceDone 0 (some (zeroBytes 128)),
    .sfpInsert 0 none, .arm sup 31, .mulOp 0 .mulD 30 2 3] : List Instr).all (fun i => i.wellFormed) = true := by decide +kernel

/-! ### Words of instructions -/

/-- Words built field by field from R109 to R111 decode to their instructions, and reserved ones to none. -/
theorem test_words : decodeFields 0 0xA4221808 = some (.cmac 0 1 2 3) ∧ decodeFields 0 0b00000100011000010001000000000001 = some (.aluOp 0 .sub 3 1 2) ∧
    decodeFields 0 0xFC000000 = none := by decide +kernel

/-- R115: −2³¹ ÷ −1 gives the quotient 0x7FFF_FFFF. -/
theorem test_divOverflow : (bankAt 40 (match exec (.divOp 40 .div 3 1 2) (sM.modLane 40 (fun x => { x with
    f := (x.f.setReg 1 0x80000000).setReg 2 0xFFFFFFFF })) with
  | .next t => t
  | _ => sM)).reg 3 = 0x7FFFFFFF := by decide +kernel

end Sys2Proof.Tests
end

/-! ### Register writes, field by field (R10, R496) -/

namespace Sys2Proof.Machine

/-- Subtracting from `a` the bits it shares with `b` clears them. -/
theorem testBit_sub_and (a b i : Nat) : (a - (a &&& b)).testBit i = (a.testBit i && !b.testBit i) := by
  have hle : a &&& b ≤ a := Nat.and_le_left
  have hodd : (a &&& b) % 2 = 1 ↔ a % 2 = 1 ∧ b % 2 = 1 := Nat.and_mod_two_eq_one
  induction i generalizing a b with
  | zero =>
    have hbit : (a - (a &&& b)) % 2 = 1 ↔ a % 2 = 1 ∧ ¬ b % 2 = 1 := by omega
    simp only [Nat.testBit_zero, hbit, Bool.decide_and, decide_not]
  | succ i ih =>
    have hhalf : (a - (a &&& b)) / 2 = a / 2 - (a / 2 &&& b / 2) := by
      rw [← Nat.and_div_two]
      omega
    rw [Nat.testBit_succ, Nat.testBit_succ, Nat.testBit_succ, hhalf]
    exact ih (a / 2) (b / 2) Nat.and_le_left Nat.and_mod_two_eq_one

/-- The written bits of a field fit its width. -/
@[simp] theorem fldBits_mod (f : Fld) (v : Nat) : fldBits f v % 2 ^ f.width = fldBits f v := by
  simp [fldBits, bitsOf]

/-- A write is answered as locked exactly when it gives some locked RWL field another value (R496). -/
theorem writeLocked_iff (s : State) (fs : List Fld) (v : Nat) :
    writeLocked s fs v = true ↔ ∃ f ∈ fs, ∃ a lo r, f.acc = .rwl a lo r ∧
      (alookup (a * 32 + lo) s.regs).getD r ≠ 0 ∧ fldBits f v ≠ s.fget f := by
  rw [writeLocked, List.any_eq_true]
  refine exists_congr fun f => and_congr_right fun _ => ?_
  cases h : f.acc with
  | rwl a lo r =>
    simp only [fldLocked, h, Bool.and_eq_true, bne_iff_ne]
    constructor
    · exact fun hlocked => ⟨a, lo, r, rfl, hlocked⟩
    · rintro ⟨_, _, _, ⟨⟩, hlocked⟩
      exact hlocked
  | _ => simp

/-! #### The write of one field -/

/-- The write of a field either keeps it in every state or sets it to one value in every state: both the choice and the
value come from the state before the access (R496). -/
theorem writeFld_keeps_or_sets (s0 : State) (v : Nat) (f : Fld) :
    (∀ s, writeFld s0 v f s = s) ∨ ∃ n, ∀ s, writeFld s0 v f s = s.fset f n := by
  unfold writeFld
  split
  case h_1 | h_2 => exact .inl fun _ => rfl
  case h_3 | h_4 | h_5 => exact .inr ⟨_, fun _ => rfl⟩
  case h_6 | h_7 | h_8 =>
    split
    · exact .inl fun _ => rfl
    · exact .inr ⟨_, fun _ => rfl⟩

/-- The write of one of the fields changes only those fields. -/
theorem OnlyRegs.writeFld {fs : List Fld} {s t : State} (h : OnlyRegs fs s t) (s0 : State) (v : Nat) {f : Fld} (hf : f ∈ fs) :
    OnlyRegs fs s (writeFld s0 v f t) := by
  obtain keeps | ⟨n, sets⟩ := writeFld_keeps_or_sets s0 v f
  · rwa [keeps]
  · rw [sets]; exact h.fset f n (List.mem_map_of_mem hf)

/-- The write of a field leaves the fields of other keys. -/
theorem fget_writeFld_ne {f g : Fld} (h : g.key ≠ f.key) (s0 : State) (v : Nat) (s : State) :
    (writeFld s0 v f s).fget g = s.fget g :=
  ((OnlyRegs.refl [f] s).writeFld s0 v List.mem_cons_self).2 g (by simpa using h)

/-- What the write of a field leaves in it depends on no other field. -/
theorem fget_writeFld_congr {f : Fld} {s t : State} (h : s.fget f = t.fget f) (s0 : State) (v : Nat) :
    (writeFld s0 v f s).fget f = (writeFld s0 v f t).fget f := by
  obtain keeps | ⟨n, sets⟩ := writeFld_keeps_or_sets s0 v f
  · rw [keeps, keeps, h]
  · simp [sets]

/-- A field with the code RO or RC is not written. -/
theorem fget_writeFld_readOnly {f : Fld} (hacc : f.acc = .ro ∨ f.acc = .rc) (s : State) (v : Nat) :
    (writeFld s v f s).fget f = s.fget f := by
  obtain hacc | hacc := hacc <;> rw [writeFld, hacc]

/-- A field with the code RW or WO takes the written bits. -/
theorem fget_writeFld_plain {f : Fld} (hacc : f.acc = .rw ∨ f.acc = .wo) (s : State) (v : Nat) :
    (writeFld s v f s).fget f = fldBits f v := by
  obtain hacc | hacc := hacc <;> simp [writeFld, hacc]

/-- A field that can only be set takes the written bits unless they are 0 (R474). -/
theorem fget_writeFld_rws {f : Fld} (hacc : f.acc = .rws) (s : State) (v : Nat) :
    (writeFld s v f s).fget f = if fldBits f v = 0 then s.fget f else fldBits f v := by
  simp only [writeFld, hacc]
  split <;> simp

/-- A W1C field loses the bits that are written as 1 (R10). -/
theorem testBit_writeFld_w1c {f : Fld} (hacc : f.acc = .w1c) {s : State} (hlt : s.fget f < 2 ^ f.width) (v i : Nat) :
    ((writeFld s v f s).fget f).testBit i = ((s.fget f).testBit i && !(fldBits f v).testBit i) := by
  simp only [writeFld, hacc, State.fget_fset_same]
  rw [Nat.mod_eq_of_lt (Nat.lt_of_le_of_lt (Nat.sub_le _ _) hlt), testBit_sub_and]

/-- The write of a field that a lock bit guards: a locked field keeps its value, another takes the written bits. -/
theorem fget_writeFld_lockable {f : Fld} {a lo r : Nat} (hacc : f.acc = .rwl a lo r ∨ f.acc = .rwn a lo r) (s : State) (v : Nat) :
    ((alookup (a * 32 + lo) s.regs).getD r ≠ 0 → (writeFld s v f s).fget f = s.fget f) ∧
      (¬ (alookup (a * 32 + lo) s.regs).getD r ≠ 0 → (writeFld s v f s).fget f = fldBits f v) := by
  have hlock : fldLocked s f = true ↔ (alookup (a * 32 + lo) s.regs).getD r ≠ 0 := by
    obtain hacc | hacc := hacc <;> simp [fldLocked, hacc]
  have hwrite : writeFld s v f s = if fldLocked s f then s else s.fset f (fldBits f v) := by
    obtain hacc | hacc := hacc <;> rw [writeFld, hacc]
  rw [hwrite, ← hlock]
  exact ⟨fun h => by rw [if_pos h], fun h => by rw [if_neg h, State.fget_fset_same, fldBits_mod]⟩

/-! #### The write of all fields of a register -/

/-- The write of a list of fields changes only those fields. -/
theorem onlyRegs_each_writeFld (s0 : State) (v : Nat) (fs : List Fld) (s : State) :
    OnlyRegs fs s (s.each fs (writeFld s0 v)) :=
  List.foldlRecOn fs _ (OnlyRegs.refl fs s) fun _ h _ hf => h.writeFld s0 v hf

/-- When no two fields share a key, each ends as its own write alone leaves it. -/
theorem fget_each_writeFld (s0 : State) (v : Nat) {fs : List Fld} (hnd : (fs.map Fld.key).Nodup) {f : Fld} (hf : f ∈ fs) (s : State) :
    (s.each fs (writeFld s0 v)).fget f = (writeFld s0 v f s).fget f := by
  induction fs generalizing s with
  | nil => cases hf
  | cons g gs ih =>
    obtain ⟨hg, hgs⟩ := List.nodup_cons.mp hnd
    change ((writeFld s0 v g s).each gs (writeFld s0 v)).fget f = _
    obtain rfl | hf := List.mem_cons.mp hf
    · exact (onlyRegs_each_writeFld s0 v gs _).2 f hg
    · have hne : f.key ≠ g.key := fun e => hg (e ▸ List.mem_map_of_mem hf)
      rw [ih hgs hf]
      exact fget_writeFld_congr (fget_writeFld_ne hne s0 v s) s0 v

/-- Settles O29: the fields of a register have keys of their own, so each ends as its own write leaves it. -/
theorem fieldsFollowTheirAccessCodes : Obligations.FieldsFollowTheirAccessCodes := by
  intro s fs v hnd bits lock
  refine ⟨fun hill => by simp [regWrite, hill], fun hok => ?_⟩
  have written : regWrite fs v s = (if writeLocked s fs v then .denied else .ok, s.each fs (writeFld s v)) := by
    simp [regWrite, hok]
  rw [written]
  refine ⟨?denied, onlyRegs_each_writeFld s v fs s, fun f hf => ?field⟩
  case denied =>
    refine Iff.trans ?_ (writeLocked_iff s fs v)
    cases writeLocked s fs v <;> simp
  case field =>
    rw [fget_each_writeFld s v hnd hf s]
    split
    case h_1 hacc => exact fget_writeFld_readOnly (.inl hacc) s v
    case h_2 hacc => exact fget_writeFld_readOnly (.inr hacc) s v
    case h_3 hacc => exact fget_writeFld_plain (.inl hacc) s v
    case h_4 hacc => exact fget_writeFld_plain (.inr hacc) s v
    case h_5 hacc => exact fun hlt => testBit_writeFld_w1c hacc hlt v
    case h_6 hacc => exact fget_writeFld_rws hacc s v
    case h_7 hacc => exact fget_writeFld_lockable (.inl hacc) s v
    case h_8 hacc => exact fget_writeFld_lockable (.inr hacc) s v

end Sys2Proof.Machine

namespace Sys2Proof.Machine

/-! ### Results of the integer instructions (R115, R116, R119) -/

/-- An integer in the signed range is the value of its word. -/
theorem toInt_w32i {i : Int} (hlo : -2147483648 ≤ i) (hhi : i < 2147483648) : (w32i i).toInt = i :=
  BitVec.toInt_ofInt_eq_self (by decide) hlo hhi

theorem toInt_satWord (i : Int) : (satWord i).toInt = sat32 i := by
  have hsat : satI32 i = sat32 i := by
    unfold satI32 clampInt sat32
    omega
  rw [satWord, hsat]
  unfold sat32
  exact toInt_w32i (by omega) (by omega)

theorem wordOf_sub (a b : Word) : wordOf (a.toInt - b.toInt) = a - b := by
  rw [wordOf, Int.sub_eq_add_neg, BitVec.ofInt_add, BitVec.ofInt_neg, BitVec.ofInt_toInt, BitVec.ofInt_toInt,
    BitVec.sub_eq_add_neg]

theorem toNat_boolWord (b : Bool) : (boolWord b).toNat = if b then 1 else 0 := by
  cases b <;> rfl

/-- The highest set bit lies just below the leading zeros. -/
theorem leadingZeros_says (a : Word) :
    leadingZeros a ≤ 32 ∧ a.toNat < 2 ^ (32 - leadingZeros a) ∧
      (leadingZeros a < 32 → 2 ^ (31 - leadingZeros a) ≤ a.toNat) := by
  unfold leadingZeros
  split
  case isTrue hzero => simp [hzero]
  case isFalse hzero =>
    have hne : a.toNat ≠ 0 := fun h => hzero (BitVec.eq_of_toNat_eq h)
    have hlog : Nat.log2 a.toNat < 32 := (Nat.log2_lt hne).mpr a.isLt
    have hexp : 32 - (31 - Nat.log2 a.toNat) = Nat.log2 a.toNat + 1 := by omega
    have hexp' : 31 - (31 - Nat.log2 a.toNat) = Nat.log2 a.toNat := by omega
    rw [hexp, hexp']
    exact ⟨by omega, Nat.lt_log2_self, fun _ => Nat.log2_self_le hne⟩

theorem shiftSays_shiftValue (op : ShiftOp) (a : Word) {n : Nat} (hn : n < 32) : ShiftSays op a (shiftValue op a n) n := by
  cases op with
  | shl => simp [ShiftSays, shiftValue, Nat.shiftLeft_eq]
  | shr => simp [ShiftSays, shiftValue, Nat.shiftRight_eq_div_pow]
  | sar => simp [ShiftSays, shiftValue, BitVec.toInt_sshiftRight, Int.shiftRight_eq_div_pow]
  | ror =>
    intro i hi
    rw [shiftValue, BitVec.getLsbD_rotateRight, Nat.mod_eq_of_lt hn]
    by_cases hwrap : i < 32 - n
    · have hidx : (i + n) % 32 = n + i := by omega
      simp [hwrap, hidx]
    · have hidx : (i + n) % 32 = i - (32 - n) := by omega
      simp [hwrap, hidx, hi]

theorem aluSays_aluValue (op : AluOp) (a b : Word) : AluSays op a b (aluValue op a b) := by
  cases op with
  | add => exact BitVec.toNat_add a b
  | sub => exact (wordOf_sub a b).symm
  | and => exact fun i => BitVec.getLsbD_and
  | or => exact fun i => BitVec.getLsbD_or
  | xor => exact fun i => BitVec.getLsbD_xor
  | shl => exact shiftSays_shiftValue .shl a (Nat.mod_lt b.toNat (by decide))
  | shr => exact shiftSays_shiftValue .shr a (Nat.mod_lt b.toNat (by decide))
  | sar => exact shiftSays_shiftValue .sar a (Nat.mod_lt b.toNat (by decide))
  | cmpLt => simp [AluSays, aluValue, toNat_boolWord, BitVec.slt]
  | cmpLtu => simp [AluSays, aluValue, toNat_boolWord, BitVec.ult]
  | min => simp only [AluSays, aluValue, BitVec.slt, decide_eq_true_eq]; split <;> omega
  | max => simp only [AluSays, aluValue, BitVec.slt, decide_eq_true_eq]; split <;> omega
  | minu => simp only [AluSays, aluValue, BitVec.ult, decide_eq_true_eq]; split <;> omega
  | maxu => simp only [AluSays, aluValue, BitVec.ult, decide_eq_true_eq]; split <;> omega
  | clz =>
    obtain ⟨hle, hrest⟩ := leadingZeros_says a
    have hval : (aluValue .clz a b).toNat = leadingZeros a := Nat.mod_eq_of_lt (by omega)
    simp only [AluSays, hval]
    exact ⟨hle, hrest⟩
  | addsat => exact toInt_satWord _
  | subsat => exact toInt_satWord _

theorem mulSays_mulValue (op : MulOp) (a b : Word) : MulSays op a b (mulValue op a b) := by
  have hlo : -2 ^ 62 ≤ a.toInt * b.toInt := BitVec.le_toInt_mul_toInt
  have hhi : a.toInt * b.toInt ≤ 2 ^ 62 := BitVec.toInt_mul_toInt_le
  cases op with
  | mul | mulD => exact BitVec.toNat_mul a b
  | hss => exact toInt_w32i (by omega) (by omega)
  | huu =>
    have hprod : a.toNat * b.toNat < 2 ^ 32 * 2 ^ 32 := Nat.mul_lt_mul'' a.isLt b.isLt
    exact Nat.mod_eq_of_lt (by omega)
  | hsu =>
    have ha : -2 ^ 31 ≤ a.toInt := BitVec.le_toInt a
    have ha' : a.toInt ≤ 2 ^ 31 - 1 := Int.le_sub_one_of_lt BitVec.toInt_lt
    have hb : b.toNat < 2 ^ 32 := b.isLt
    have hmin := Int.mul_le_mul_of_nonneg_right ha (Int.natCast_nonneg b.toNat)
    have hmax := Int.mul_le_mul_of_nonneg_right ha' (Int.natCast_nonneg b.toNat)
    exact toInt_w32i (by omega) (by omega)
  | mulq =>
    refine (toInt_satWord _).trans ?_
    unfold sat32
    omega

theorem wrapTo_lt (w : Nat) (i : Int) : wrapTo w i < 2 ^ w := by
  unfold wrapTo
  have hpos : 0 < ((2 ^ w : Nat) : Int) := Int.natCast_pos.mpr (Nat.two_pow_pos w)
  have hlt : i % ((2 ^ w : Nat) : Int) < (2 ^ w : Nat) := Int.emod_lt_of_pos i hpos
  have hnonneg : 0 ≤ i % ((2 ^ w : Nat) : Int) := Int.emod_nonneg i (Int.ne_of_gt hpos)
  omega

theorem signedOf_mulWide (a b : Word) : signedOf 64 (mulWide a b) = a.toInt * b.toInt := by
  have hlo : -2 ^ 62 ≤ a.toInt * b.toInt := BitVec.le_toInt_mul_toInt
  have hhi : a.toInt * b.toInt ≤ 2 ^ 62 := BitVec.toInt_mul_toInt_le
  unfold signedOf mulWide wrapTo
  split <;> omega

theorem toInt_eq_intMin_iff (a : Word) : a.toInt = -2147483648 ↔ a = 0x80000000 :=
  BitVec.toInt_inj (y := 0x80000000)

theorem toInt_eq_neg_one_iff (a : Word) : a.toInt = -1 ↔ a = 0xFFFFFFFF := BitVec.toInt_inj (y := 0xFFFFFFFF)

theorem toNat_eq_zero_iff (a : Word) : a.toNat = 0 ↔ a = 0 := BitVec.toNat_inj (y := 0)

/-- Only −2³¹ ÷ −1 leaves the signed range, so every other quotient is held by its word. -/
theorem toInt_w32i_tdiv {a b : Word} (h : ¬ (a = 0x80000000 ∧ b = 0xFFFFFFFF)) :
    (w32i (a.toInt.tdiv b.toInt)).toInt = a.toInt.tdiv b.toInt := by
  rw [← BitVec.toInt_sdiv_of_ne_or_ne a b (Decidable.not_and_iff_or_not.mp h), w32i, BitVec.ofInt_toInt]

theorem toInt_w32i_tmod (a b : Word) :
    (w32i (a.toInt.tmod b.toInt)).toInt = a.toInt - b.toInt * a.toInt.tdiv b.toInt := by
  rw [← Int.tmod_def, ← BitVec.toInt_srem, w32i, BitVec.ofInt_toInt]

theorem divSays_divValue (op : DivOp) (a b : Word) : DivSays op a b (divValue op a b).1 (divValue op a b).2 := by
  have hdiv : a.toNat / b.toNat < 2 ^ 32 := Nat.lt_of_le_of_lt (Nat.div_le_self _ _) a.isLt
  have hmod : a.toNat % b.toNat < 2 ^ 32 := Nat.lt_of_le_of_lt (Nat.mod_le _ _) a.isLt
  cases op with
  | div =>
    simp only [DivSays, divValue, toNat_eq_zero_iff, toInt_eq_intMin_iff, toInt_eq_neg_one_iff]
    split
    case isTrue => exact ⟨by split <;> rfl, rfl⟩
    case isFalse =>
      split
      case isTrue => exact ⟨rfl, rfl⟩
      case isFalse hov => exact ⟨toInt_w32i_tdiv hov, rfl⟩
  | divu =>
    simp only [DivSays, divValue, toNat_eq_zero_iff]
    split
    case isTrue => exact ⟨rfl, rfl⟩
    case isFalse => exact ⟨Nat.mod_eq_of_lt hdiv, rfl⟩
  | rem =>
    simp only [DivSays, divValue, toNat_eq_zero_iff, toInt_eq_intMin_iff, toInt_eq_neg_one_iff]
    by_cases hz : b = 0
    · rw [if_pos (.inl hz), if_pos hz]
      exact ⟨rfl, rfl⟩
    · by_cases hov : a = 0x80000000 ∧ b = 0xFFFFFFFF
      · rw [if_pos (.inr hov), if_neg hz, if_pos hov]
        exact ⟨rfl, rfl⟩
      · rw [if_neg (not_or.mpr ⟨hz, hov⟩), if_neg hz, if_neg hov]
        exact ⟨toInt_w32i_tmod a b, rfl⟩
  | remu =>
    simp only [DivSays, divValue, toNat_eq_zero_iff]
    split
    case isTrue => exact ⟨rfl, rfl⟩
    case isFalse => exact ⟨Nat.mod_eq_of_lt hmod, rfl⟩

/-- An immediate form is its register operation on the immediate (R116). -/
theorem immValue_eq_aluValue (op : ImmOp) (a : Word) (imm : BitVec 16) :
    immValue op a imm = aluValue (aluOfImm op) a (immOf op imm) := by
  cases op <;> rfl

theorem branchTaken_iff (op : BrOp) (a b : Word) : branchTaken op a b = true ↔ BranchSays op a b := by
  cases op <;> simp [branchTaken, BranchSays, BitVec.slt, BitVec.ult, BitVec.toNat_inj]

/-- The upper-immediate operand of mov.hi and pc.hi (R116). -/
theorem toNat_upper21 (imm : BitVec 21) : (imm ++ 0#11 : Word).toNat = imm.toNat * 2 ^ 11 := by
  refine (BitVec.toNat_append imm 0#11).trans ?_
  simp [Nat.shiftLeft_eq]

/-! ### Steps that change the running bank -/

@[simp] theorem Bank.setReg_pc (r : Fin 32) (v : Word) (b : Bank) : (b.setReg r v).pc = b.pc := by
  unfold Bank.setReg
  split <;> rfl

@[simp] theorem Bank.setPair_pc (r : Fin 32) (v : Nat) (b : Bank) : (b.setPair r v).pc = b.pc := by
  simp [Bank.setPair]

@[simp] theorem Bank.setReg_fcsr (r : Fin 32) (v : Word) (b : Bank) : (b.setReg r v).fcsr = b.fcsr := by
  unfold Bank.setReg
  split <;> rfl

/-- IDV is bit 2 of FCSR (R79). -/
theorem Bank.raise_idv (b : Bank) (idv : Bool) :
    b.raise (if idv then flIDV else 0) = { b with fcsr := b.fcsr ||| (if idv then 4#9 else 0#9) } := by
  cases idv <;> rfl

theorem Lane.modBank_congr {f g : Bank → Bank} {x : Lane} (h : f x.bank = g x.bank) : x.modBank f = x.modBank g := by
  unfold Lane.modBank Lane.bank at *
  split <;> simp_all

/-- What a step does to the bank matters on the bank it starts from alone. -/
theorem BankStep.congr {l : Fin 52} {n : Nat} {f g : Bank → Bank} {s t : State} (h : BankStep l n f s t)
    (hfg : f (s.lane l).bank = g (s.lane l).bank) : BankStep l n g s t := by
  obtain ⟨honly, hlane⟩ := h
  refine ⟨honly, hlane.trans (Lane.modBank_congr ?_)⟩
  rwa [spentLane_bank]

theorem Runs.congr {l : Fin 52} {i : Instr} {n : Nat} {f g : Bank → Bank} {s : State} (h : Runs l i n f s)
    (hfg : f (bankAt l s) = g (bankAt l s)) : Runs l i n g s := by
  obtain ⟨t, hexec, hstep⟩ := h
  exact ⟨t, hexec, hstep.congr (congrArg (fun k : Bank => { k with pc := (bankAt l s).pc + 4 }) hfg)⟩

/-- An instruction that writes one register writes the value it finds at issue. -/
theorem runs_setReg_of_regOp {l : Fin 52} {i : Instr} {n : Nat} {rd : Fin 32} {val : Bank → Word} {s : State}
    (hexec : exec i s = regOp l i n (fun b => b.setReg rd (val b)) s) (h : Issues l i plain n s) :
    Runs l i n (Bank.setReg rd (val (bankAt l s))) s :=
  (runs_of_regOp hexec (fun b => b.setReg_pc rd _) h).congr rfl

theorem State.modBank_modBank (l : Fin 52) (f g : Bank → Bank) (s : State) :
    (s.modBank l f).modBank l g = s.modBank l (fun b => g (f b)) := by
  simp only [State.modBank, State.modLane_modLane, Lane.modBank_modBank]

theorem bankStep_modBank_spend (l : Fin 52) (n : Nat) (f : Bank → Bank) (s : State) :
    BankStep l n f s ((spend l n s).modBank l f) := by
  rw [spend_eq, State.modBank, State.modLane_modLane]
  exact ⟨OnlyLane_modLane l _ s, State.modLane_lane l _ s⟩

theorem bankStep_setPc_modBank_spend (l : Fin 52) (n : Nat) (f : Bank → Bank) (t : Word) (s : State) :
    BankStep l n (fun k => { f k with pc := t }) s (((spend l n s).modBank l f).setPc l t) := by
  rw [State.setPc, State.modBank_modBank]
  exact bankStep_modBank_spend l n _ s

/-! ### Reads that leave the lanes as they are -/

@[simp] theorem State.bump_lanes (f : Fld) (s : State) : (s.bump f).lanes = s.lanes := rfl

@[simp] theorem State.recordFault_lanes (rq : Req) (a : Nat) (k : AccKind) (r : Rsp) (d c : Nat) (s : State) :
    (s.recordFault rq a k r d c).lanes = s.lanes := by
  rw [(OnlyRegs_recordFault s rq a k r d c).1]

@[simp] theorem State.pushEv_lanes (e : Ev) (s : State) : (s.pushEv e).lanes = s.lanes := by
  unfold State.pushEv
  split
  · rfl
  · split
    · split <;> rfl
    · rfl

@[simp] theorem State.log'_lanes (f : Fld) (p : Bool) (sev vmid : Nat) (args : List Nat) (s : State) :
    (s.log' f p sev vmid args).lanes = s.lanes := State.pushEv_lanes _ s

@[simp] theorem State.modTask_lanes (t : Nat) (f : Task → Task) (s : State) : (s.modTask t f).lanes = s.lanes := by
  unfold State.modTask
  split <;> simp

@[simp] theorem clearRc_lanes (fs : List Fld) (s : State) : (clearRc fs s).lanes = s.lanes :=
  List.foldlRecOn (motive := fun t : State => t.lanes = s.lanes) fs _ rfl fun t ht f _ => by
    simp [apply_ite State.lanes, ht]

@[simp] theorem regRead_lanes (fs : List Fld) (s : State) : (regRead fs s).2.lanes = s.lanes := clearRc_lanes fs s

@[simp] theorem tableRead_lanes (t : List RegSpec) (a : Nat) (s : State) : (tableRead t a s).2.lanes = s.lanes := by
  unfold tableRead
  split <;> simp

@[simp] theorem countCecc_lanes (a n : Nat) (s : State) : (countCecc a n s).lanes = s.lanes := by
  simp [countCecc, apply_ite State.lanes, apply_dite State.lanes]

@[simp] theorem memReadAcc_lanes (rq : Req) (a n : Nat) (k : AccKind) (s : State) :
    (memReadAcc rq a n k s).2.2.lanes = s.lanes := by
  unfold memReadAcc
  dsimp only
  split
  · simp
  · split
    · rfl
    · split
      · simp
      · split <;> simp
    · split <;> simp

@[simp] theorem memWriteAcc_lanes (rq : Req) (a : Nat) (bs : List Byte) (k : AccKind) (s : State) :
    (memWriteAcc rq a bs k s).2.lanes = s.lanes := by
  simp [memWriteAcc, apply_ite Prod.snd, apply_ite State.lanes]

@[simp] theorem sysRead_lanes (off : Nat) (s : State) : (sysRead off s).2.lanes = s.lanes := by
  simp [sysRead, apply_ite Prod.snd, apply_ite State.lanes]

@[simp] theorem pwrRead_lanes (off : Nat) (s : State) : (pwrRead off s).2.lanes = s.lanes := by
  simp [pwrRead, apply_ite Prod.snd, apply_ite State.lanes]

@[simp] theorem bezelRead_lanes (off : Nat) (s : State) : (bezelRead off s).2.lanes = s.lanes := by
  simp [bezelRead, slackReadOp, apply_ite Prod.snd, apply_ite State.lanes]

@[simp] theorem keyRead_lanes (off : Nat) (s : State) : (keyRead off s).2.lanes = s.lanes := by
  simp [keyRead, keyRngOp, drawBits, State.draw, apply_ite Prod.snd, apply_ite State.lanes]

@[simp] theorem lifeRead_lanes (off : Nat) (s : State) : (lifeRead off s).2.lanes = s.lanes := by
  simp [lifeRead, apply_ite Prod.snd, apply_ite State.lanes]

@[simp] theorem netRead_lanes (off : Nat) (s : State) : (netRead off s).2.lanes = s.lanes := by
  simp [netRead, c0useRead, apply_ite Prod.snd, apply_ite State.lanes]

@[simp] theorem octetRead_lanes (p : Nat) (tx : Bool) (s : State) : (octetRead p tx s).2.lanes = s.lanes := by
  simp [octetRead, apply_dite State.lanes]

@[simp] theorem portRead_lanes (off : Nat) (s : State) : (portRead off s).2.lanes = s.lanes := by
  simp [portRead, apply_ite Prod.snd, apply_ite State.lanes]

@[simp] theorem sfeRead_lanes (off : Nat) (s : State) : (sfeRead off s).2.lanes = s.lanes := by
  simp [sfeRead, apply_ite Prod.snd, apply_ite State.lanes]

@[simp] theorem wamsRead_lanes (off : Nat) (s : State) : (wamsRead off s).2.lanes = s.lanes := by
  simp [wamsRead, apply_ite Prod.snd, apply_ite State.lanes]

@[simp] theorem claspRead_lanes (off : Nat) (s : State) : (claspRead off s).2.lanes = s.lanes := by
  simp [claspRead, apply_ite Prod.snd, apply_ite State.lanes]

@[simp] theorem viewRead_lanes (vi o : Nat) (s : State) : (viewRead vi o s).2.lanes = s.lanes := by
  simp [viewRead, State.modPart, apply_ite Prod.snd, apply_ite State.lanes]

@[simp] theorem evrecRead_lanes (vmid off : Nat) (s : State) : (evrecRead vmid off s).2.lanes = s.lanes := by
  simp [evrecRead, apply_ite Prod.snd, apply_ite State.lanes]

@[simp] theorem acqRead_lanes (off : Nat) (s : State) : (acqRead off s).2.lanes = s.lanes := by
  unfold acqRead
  split <;> simp

@[simp] theorem idbusRead_lanes (off : Nat) (s : State) : (idbusRead off s).2.lanes = s.lanes := by
  simp [idbusRead, apply_ite Prod.snd, apply_ite State.lanes]

@[simp] theorem dtripRead_lanes (off : Nat) (s : State) : (dtripRead off s).2.lanes = s.lanes := by
  simp [dtripRead, apply_ite Prod.snd, apply_ite State.lanes]

@[simp] theorem selfRead_lanes (v o : Nat) (s : State) : (selfRead v o s).2.lanes = s.lanes := by
  simp [selfRead, apply_ite Prod.snd, apply_ite State.lanes]

@[simp] theorem txRead_lanes (off : Nat) (s : State) : (txRead off s).2.lanes = s.lanes := by
  unfold txRead
  cases selTask s <;> simp [apply_ite Prod.snd, apply_ite State.lanes]

@[simp] theorem vpiRead_lanes (vmid off : Nat) (s : State) : (vpiRead vmid off s).2.lanes = s.lanes := by
  simp [vpiRead, apply_ite Prod.snd, apply_ite State.lanes]

/-- Every register of the TB block but TB_NOW_NS, whose read latches a snapshot in the reading lane's bank (R58). -/
theorem tbRead_lanes (rq : Req) {off : Nat} (hoff : off ≠ 0x24) (s : State) : (tbRead rq off s).2.lanes = s.lanes := by
  simp [tbRead, hoff, tsqPop, tdcPop, State.modTdc, apply_ite Prod.snd, apply_dite Prod.snd, apply_ite State.lanes,
    apply_dite State.lanes]

/-! ### The PC across a fetch

A fetch may read any address, so it may walk tables, fill the translation buffer and read a register that changes with the
read; none of this moves a PC. -/

/-- Every lane's running bank has the PC it had. -/
def PcsKept (s t : State) : Prop := ∀ l, (t.lane l).bank.pc = (s.lane l).bank.pc

theorem PcsKept.of_lanes {s t : State} (h : t.lanes = s.lanes) : PcsKept s t := fun l => by
  rw [State.lane, State.lane, h]

theorem PcsKept.refl (s : State) : PcsKept s s := .of_lanes rfl

theorem PcsKept.trans {s t u : State} (h : PcsKept s t) (h' : PcsKept t u) : PcsKept s u := fun l => (h' l).trans (h l)

theorem PcsKept.modLane {f : Lane → Lane} (hf : ∀ x : Lane, (f x).bank.pc = x.bank.pc) (i : Fin 52) (s : State) :
    PcsKept s (s.modLane i f) := fun l => by
  by_cases hl : l = i
  · rw [hl, State.modLane_lane, hf]
  · rw [State.modLane_lane_ne i l f s hl]

/-- Only the snapshot of a bank or the shared one changes (R58). -/
theorem latchNow_pcsKept (rq : Req) (s : State) : PcsKept s (latchNow rq s) := by
  unfold latchNow
  split
  · split
    all_goals
      refine .modLane (fun x => ?_) _ s
      unfold Lane.bank
      split <;> rfl
  · exact .of_lanes rfl

theorem tbRead_pcsKept (rq : Req) (off : Nat) (s : State) : PcsKept s (tbRead rq off s).2 := by
  by_cases hoff : off = 0x24
  · rw [tbRead, if_pos hoff]
    exact latchNow_pcsKept rq s
  · exact .of_lanes (tbRead_lanes rq hoff s)

theorem readBlock_pcsKept (rq : Req) (i off : Nat) (s : State) : ∀ r, readBlock rq i off s = some r → PcsKept s r.2 := by
  by_cases htb : i = 9
  · simpa [readBlock, htb] using tbRead_pcsKept rq off s
  · have hlanes : ∀ r, readBlock rq i off s = some r → r.2.lanes = s.lanes := by
      unfold readBlock
      split
      case h_10 => exact absurd rfl htb
      all_goals
        simp [clkRead, schedRead, fabRead, foRead, iobusRead, lktRead]
    exact fun r hr => .of_lanes (hlanes r hr)

theorem devRead_pcsKept (rq : Req) (a size : Nat) (kind : AccKind) (s : State) :
    PcsKept s (devRead rq a size kind s).2.2 := by
  unfold devRead
  dsimp only
  split
  · exact .of_lanes (by simp)
  · split
    · split
      case h_1 hread => exact (readBlock_pcsKept _ _ _ _ _ hread :)
      case h_2 => exact .of_lanes (by simp)
    · exact .of_lanes (by simp)

theorem busRead_pcsKept (rq : Req) (a size : Nat) (kind : AccKind) (s : State) :
    PcsKept s (busRead rq a size kind s).2.2 := by
  unfold busRead
  split
  · exact devRead_pcsKept rq a size kind s
  · exact .of_lanes (memReadAcc_lanes rq a size kind s)

/-! #### Translation (R81 to R89) -/

/-- A walk keeps the lanes when every read of an entry does. -/
theorem walkLevels_lanes {read : Nat → Walk → Except WalkErr (Nat × Nat) × Walk}
    (hread : ∀ a w, (read a w).2.s.lanes = w.s.lanes) (stage2 : Bool) (acc : Option Access) (tu : Bool) (a : Nat)
    (lvs : List Level) (table : Nat) (w : Walk) :
    (walkLevels read stage2 acc tu a lvs table w).2.s.lanes = w.s.lanes := by
  induction lvs generalizing table w with
  | nil => rfl
  | cons lv rest ih =>
    have hentry := hread (table + 8 * bitsOf a lv.shift lv.bits) w
    unfold walkLevels
    split
    case h_1 hr => rwa [hr] at hentry
    case h_2 hr =>
      rw [hr] at hentry
      split
      · exact hentry
      · split
        · exact (ih _ _).trans hentry
        · dsimp only
          split
          · exact hentry
          · split
            · exact hentry
            · split <;> exact hentry

theorem readEntry_lanes (rq : Req) (pa : Nat) (w : Walk) : (readEntry rq pa w).2.s.lanes = w.s.lanes :=
  memReadAcc_lanes rq pa 8 .walk w.s

theorem walkStage2_lanes (rq : Req) (root : Nat) (acc : Option Access) (ipa : Nat) (w : Walk) :
    (walkStage2 rq root acc ipa w).2.s.lanes = w.s.lanes := by
  unfold walkStage2
  split
  · rfl
  · exact walkLevels_lanes (readEntry_lanes rq) _ _ _ _ _ _ _

theorem readTable_lanes (rq : Req) (root2 : Option Nat) (ipa : Nat) (w : Walk) :
    (readTable rq root2 ipa w).2.s.lanes = w.s.lanes := by
  cases root2 with
  | none => exact readEntry_lanes rq ipa w
  | some r2 =>
    have hstage2 := walkStage2_lanes rq r2 (some .r) ipa w
    unfold readTable
    dsimp only
    split
    case h_1 hw =>
      rw [hw] at hstage2
      exact (readEntry_lanes _ _ _).trans hstage2
    case h_2 hw => rwa [hw] at hstage2
    case h_3 hw => rwa [hw] at hstage2

theorem walkBoth_lanes (rq : Req) (root1 : Nat) (root2 : Option Nat) (acc : Option Access) (tu : Bool) (va : Nat) (w : Walk) :
    (walkBoth rq root1 root2 acc tu va w).2.s.lanes = w.s.lanes := by
  have hstage1 := walkLevels_lanes (readTable_lanes rq root2) false acc tu va (levels false) root1 w
  unfold walkBoth
  split
  · rfl
  · split
    case h_1 hw => rwa [hw] at hstage1
    case h_2 l1 w1 hw =>
      rw [hw] at hstage1
      cases root2 with
      | none => exact hstage1
      | some r2 =>
        have hstage2 := walkStage2_lanes rq r2 acc l1.pa w1
        dsimp only
        split
        case h_1 hw2 | h_2 hw2 =>
          rw [hw2] at hstage2
          exact hstage2.trans hstage1

theorem dirtyLog_lanes (l : Fin 52) (vmid ipa : Nat) (big : Bool) (s : State) : (dirtyLog l vmid ipa big s).lanes = s.lanes := by
  simp [dirtyLog, apply_ite State.lanes, apply_dite State.lanes]

theorem applyUpdate_lanes (l : Fin 52) (rq : Req) (u : Update) (r : Except WalkErr Unit × State) :
    (applyUpdate l rq u r).2.lanes = r.2.lanes := by
  obtain ⟨_ | _, s⟩ := r
  · rfl
  · simp [applyUpdate, apply_ite Prod.snd, apply_ite State.lanes, dirtyLog_lanes]

theorem applyUpdates_lanes (l : Fin 52) (rq : Req) (us : List Update) (s : State) :
    (applyUpdates l rq us s).2.lanes = s.lanes :=
  List.foldlRecOn (motive := fun r : Except WalkErr Unit × State => r.2.lanes = s.lanes) us _ rfl fun r hr u _ =>
    (applyUpdate_lanes l rq u r).trans hr

theorem tlbInsert_pcsKept (l : Fin 52) (e : TlbEntry) (s : State) : PcsKept s (tlbInsert l e s) := by
  unfold tlbInsert
  dsimp only
  split
  · exact .refl s
  · split
    · refine .modLane ?_ l s
      exact fun _ => rfl
    · refine .trans (t := (s.draw Site.tlbVictim 6).2) (.of_lanes rfl) (.modLane ?_ l _)
      exact fun _ => rfl

theorem translateF_pcsKept (l : Fin 52) (va : Nat) (acc : Access) (s : State) : PcsKept s (translateF l va acc s).2 := by
  unfold translateF
  dsimp only
  split
  · exact .refl s
  · split
    · exact .refl s
    · split
      case h_1 hwalk => exact .of_lanes ((congrArg (·.2.s.lanes) hwalk).symm.trans (walkBoth_lanes ..))
      case h_2 leaf w hwalk =>
        have hw : w.s.lanes = s.lanes := (congrArg (·.2.s.lanes) hwalk).symm.trans (walkBoth_lanes ..)
        have hupd := applyUpdates_lanes l (laneReq l false (s.lane l).f.vmid.toNat) w.upd w.s
        split
        case h_1 hu =>
          rw [hu] at hupd
          exact .of_lanes (hupd.trans hw)
        case h_2 hu =>
          rw [hu] at hupd
          exact .trans (.of_lanes (hupd.trans hw)) (tlbInsert_pcsKept _ _ _)

theorem translate_pcsKept (l : Fin 52) (va : Nat) (acc : Access) (s : State) : PcsKept s (translate l va acc s).2 := by
  unfold translate
  split
  · exact .refl s
  · exact translateF_pcsKept l va acc s

theorem fetched_pcsKept (l : Fin 52) (s : State) : PcsKept s (fetched l s) := by
  unfold fetched fetch
  dsimp only
  split
  · exact .refl s
  · have htr := translate_pcsKept l (s.lane l).bank.pc.toNat .x s
    split
    case h_1 hw => rwa [hw] at htr
    case h_2 hw =>
      rw [hw] at htr
      split <;> exact htr.trans (busRead_pcsKept _ _ _ _ _)

/-- An instruction that fetches stands at an aligned PC: another one raises FETCH_ALIGN (R97). -/
theorem pc_aligned_of_fetchOk {l : Fin 52} {s : State} (h : fetchOk l s = true) : (bankAt l s).pc.toNat % 4 = 0 := by
  have hkept : (bankAt l s).pc = (s.lane l).bank.pc := fetched_pcsKept l s l
  rw [hkept]
  refine Decidable.byContradiction fun hmis => ?_
  simp [fetchOk, fetch, hmis] at h

/-! ### Integer instructions (R115, R116) -/

/-- ALU, multiply and divide instructions: each is a register operation whose value is the one R115 says. -/
theorem integerOperationResults : IntegerOperationResults := by
  intro s l rd rs1 rs2 a b
  refine ⟨fun op h => ?alu, fun op hop h => ?mul, fun h => ?mulD, fun op h => ?div⟩
  case alu =>
    exact ⟨_, aluSays_aluValue op a b,
      runs_setReg_of_regOp (val := fun k => aluValue op (k.reg rs1) (k.reg rs2)) rfl h⟩
  case mul =>
    refine ⟨_, mulSays_mulValue op a b,
      runs_setReg_of_regOp (val := fun k => mulValue op (k.reg rs1) (k.reg rs2)) ?_ h⟩
    change execMulOp l op rd rs1 rs2 s = _
    simp only [execMulOp, if_neg hop]
  case mulD =>
    exact ⟨mulWide a b, wrapTo_lt 64 _, signedOf_mulWide a b,
      (runs_of_regOp (f := fun k => k.setPair rd (mulWide (k.reg rs1) (k.reg rs2))) rfl
        (fun k => k.setPair_pc rd _) h).congr rfl⟩
  case div =>
    refine ⟨_, _, divSays_divValue op a b, (runs_of_regOp (f := fun k =>
      let r := divValue op (k.reg rs1) (k.reg rs2)
      (k.setReg rd r.1).raise (if r.2 then flIDV else 0)) rfl (fun k => k.setReg_pc rd _) h).congr ?_⟩
    simp only [Bank.raise_idv, Bank.setReg_fcsr]
    rfl

/-- Immediate forms: each is a register operation whose value is the one R116 says. -/
theorem immediateFormResults : ImmediateFormResults := by
  intro s l rd rs1 a
  refine ⟨fun op imm h => ?imm, fun op sh h => ?shift, fun imm h => ?movHi, fun imm h => ?pcHi⟩
  case imm =>
    refine ⟨_, aluSays_aluValue (aluOfImm op) a (immOf op imm), ?_⟩
    rw [← immValue_eq_aluValue]
    exact runs_setReg_of_regOp (val := fun k => immValue op (k.reg rs1) imm) rfl h
  case shift =>
    exact ⟨_, shiftSays_shiftValue op a sh.isLt,
      runs_setReg_of_regOp (val := fun k => shiftValue op (k.reg rs1) sh.toNat) rfl h⟩
  case movHi => exact ⟨_, toNat_upper21 imm, runs_setReg_of_regOp (val := fun _ => imm ++ 0#11) rfl h⟩
  case pcHi =>
    refine ⟨_, ?_, runs_setReg_of_regOp (val := fun k => k.pc + (imm ++ 0#11)) rfl h⟩
    rw [BitVec.toNat_add, toNat_upper21]

/-- Settles O5: the value lemmas of R115 and R116, and the law that a register operation changes its bank alone. -/
theorem integerInstructionResults : Obligations.IntegerInstructionResults :=
  ⟨integerOperationResults, immediateFormResults⟩

/-! ### Branches and jumps (R119) -/

theorem finish_goto_of_aligned {t : Word} (ht : t.toNat % 4 = 0) (l : Fin 52) (s : State) :
    finish l (.goto t s) = s.setPc l t := if_neg (not_not_intro ht)

theorem finish_goto_of_misaligned {t : Word} (ht : t.toNat % 4 ≠ 0) (l : Fin 52) (s : State) :
    finish l (.goto t s) = takeTrap l ⟨.fetchAlign, t.toNat, 0, 0, 0⟩ (s.setPc l t) := if_pos ht

/-- The wrapped sum of R110 is the integer sum cut to 32 bits. -/
theorem branchTarget_eq_wordOf (pc : Word) {w : Nat} (off : BitVec w) :
    branchTarget pc off = wordOf (pc.toNat + off.toInt * 4) := by
  rw [wordOf, BitVec.ofInt_add, BitVec.ofInt_mul, BitVec.ofInt_natCast, BitVec.ofNat_toNat]
  simp [branchTarget, BitVec.signExtend]

theorem branchTarget_aligned {pc : Word} (hpc : pc.toNat % 4 = 0) {w : Nat} (off : BitVec w) :
    (branchTarget pc off).toNat % 4 = 0 := by
  have hfour : (4 : Word).toNat = 4 := rfl
  rw [branchTarget, BitVec.toNat_add, BitVec.toNat_mul, hfour]
  omega

theorem add_sext16_eq_wordOf (a : Word) (imm : BitVec 16) : a + sext16 imm = wordOf (a.toNat + imm.toInt) := by
  rw [wordOf, BitVec.ofInt_add, BitVec.ofInt_natCast, BitVec.ofNat_toNat]
  simp [sext16, BitVec.signExtend]

theorem State.modBank_id (l : Fin 52) (s : State) : s.modBank l id = s := by
  have hlane : ∀ x : Lane, x.modBank id = x := fun x => by
    unfold Lane.modBank
    split <;> rfl
  simp [State.modBank, State.modLane, hlane]

/-- An instruction that changes its bank by `g` and jumps ends with the jump's own check of the target. -/
theorem exec_of_goto {l : Fin 52} {i : Instr} {n : Nat} {s : State} {t : Word} {g : Bank → Bank}
    {plan : State → Except Trap Plan × State} {body : State → Ans}
    (hexec : exec i s = .next (issue l i plain plan s)) (h : Issues l i plain n s)
    (hplan : plan (fetched l s) = (.ok ⟨n, none, body⟩, fetched l s)) (hbody : ∀ u, body u = .goto t (u.modBank l g)) :
    exec i s = .next (finish l (.goto t ((spend l n (fetched l s)).modBank l g))) := by
  rw [hexec, issue_of_issues h hplan, hbody]

/-- Branches, `jmp` and `call`: from an aligned PC a word offset leads to an aligned target (R110, R119). -/
theorem completes_of_goto_branchTarget {l : Fin 52} {i : Instr} {n w : Nat} {off : BitVec w} {s : State} {g f : Bank → Bank}
    {plan : State → Except Trap Plan × State} {body : State → Ans}
    (hexec : exec i s = .next (issue l i plain plan s)) (h : Issues l i plain n s)
    (hplan : plan (fetched l s) = (.ok ⟨n, none, body⟩, fetched l s))
    (hbody : ∀ u, body u = .goto (branchTarget (bankAt l s).pc off) (u.modBank l g))
    (hf : g (bankAt l s) = f (bankAt l s)) :
    Completes i s
      (BankStep l n (fun k => { f k with pc := wordOf (k.pc.toNat + off.toInt * 4) }) (fetched l s)) := by
  have ⟨_, _, hfetch, _⟩ := h
  refine ⟨_, exec_of_goto hexec h hplan hbody, ?_⟩
  rw [finish_goto_of_aligned (branchTarget_aligned (pc_aligned_of_fetchOk hfetch) off), branchTarget_eq_wordOf]
  exact (bankStep_setPc_modBank_spend l n g _ (fetched l s)).congr
    (congrArg (fun k : Bank => { k with pc := wordOf ((bankAt l s).pc.toNat + off.toInt * 4) }) hf)

theorem finish_next_spend (l : Fin 52) (n : Nat) (s : State) :
    finish l (.next (spend l n s)) = (spend l n s).setPc l ((s.lane l).bank.pc + 4) := by
  rw [finish, spend_eq, State.modLane_lane, spentLane_bank]

/-- An instruction without effect of its own moves the PC on. -/
theorem runs_of_next {l : Fin 52} {i : Instr} {n : Nat} {s : State} {plan : State → Except Trap Plan × State}
    (hexec : exec i s = .next (issue l i plain plan s)) (h : Issues l i plain n s)
    (hplan : plan (fetched l s) = (.ok ⟨n, none, .next⟩, fetched l s)) : Runs l i n id s := by
  refine ⟨_, hexec, ?_⟩
  rw [issue_of_issues h hplan, finish_next_spend]
  exact (bankStep_modBank_spend l n _ (fetched l s)).congr rfl

/-- Settles O7: an instruction that is fetched stands at an aligned PC, so word offsets lead to aligned targets; only jmp.r
can miss, and its check comes after the link write. -/
theorem branchesAndJumps : Obligations.BranchesAndJumps := by
  intro s l rd rs1 rs2 b
  refine ⟨fun op off hrel h => ?taken, fun op off hrel h => ?notTaken, fun off h => ?jmp, fun off h => ?call,
    fun imm h => ?jmpR⟩
  case taken =>
    have hplan : (if branchTaken op (b.reg rs1) (b.reg rs2) then ⟨2, none, .goto (branchTarget b.pc off)⟩
        else ⟨1, none, .next⟩ : Plan) = ⟨2, none, .goto (branchTarget b.pc off)⟩ :=
      if_pos ((branchTaken_iff op _ _).mpr hrel)
    exact completes_of_goto_branchTarget (g := id) (f := id) rfl h (congrArg (fun p => (Except.ok p, fetched l s)) hplan)
      (fun u => by rw [State.modBank_id]) rfl
  case notTaken =>
    have hplan : (if branchTaken op (b.reg rs1) (b.reg rs2) then ⟨2, none, .goto (branchTarget b.pc off)⟩
        else ⟨1, none, .next⟩ : Plan) = ⟨1, none, .next⟩ :=
      if_neg (hrel ∘ (branchTaken_iff op _ _).mp)
    exact runs_of_next rfl h (congrArg (fun p => (Except.ok p, fetched l s)) hplan)
  case jmp =>
    exact completes_of_goto_branchTarget (g := id) (f := id) rfl h rfl (fun u => by rw [State.modBank_id]; rfl) rfl
  case call =>
    exact completes_of_goto_branchTarget (g := Bank.setReg 31 (b.pc + 4)) (f := fun k => k.setReg 31 (k.pc + 4)) rfl h rfl
      (fun _ => rfl) rfl
  case jmpR =>
    intro tgt
    have htgt : b.reg rs1 + sext16 imm = tgt := add_sext16_eq_wordOf _ imm
    have hexec : exec (.jmpR l rd rs1 imm) s =
        .next (finish l (.goto tgt ((spend l 3 (fetched l s)).modBank l (Bank.setReg rd (b.pc + 4))))) := by
      rw [← htgt]
      exact exec_of_goto rfl h rfl fun _ => rfl
    have hstep := (bankStep_setPc_modBank_spend l 3 (Bank.setReg rd (b.pc + 4)) tgt (fetched l s)).congr
      (g := fun k => { k.setReg rd (k.pc + 4) with pc := tgt }) rfl
    refine ⟨fun haligned => ⟨_, ?_, hstep⟩, fun hmis => ⟨_, hstep, ?_⟩⟩
    · rw [hexec, finish_goto_of_aligned haligned]
    · rw [hexec, finish_goto_of_misaligned hmis]

end Sys2Proof.Machine
